-- ==== Sys2Proof/Word.lean ====
section
/-! DEFINITION. The plain types that the formats and the numbered things of the VX416 are made of. -/

namespace Sys2Proof

/-- A byte of a frame, a request, a response or a record (12, R193 to R195). -/
abbrev Byte := BitVec 8

/-- A station's number, 0 to 15 (00, Terms; R187). -/
abbrev Station := Fin 16

/-- A channel's number, 0 to 3 (04, R72). -/
abbrev Channel := Fin 4

/-- A set of stations: bit `s` stands for station `s` (R192). -/
abbrev StationSet := BitVec 16

/-- A set of channels, or the levels of four like lines: bit `n` stands for channel `n` (R192). -/
abbrev ChannelSet := BitVec 4

/-- The sixteen stations in rising order. -/
def stations : List Station := [0, 1, 2, 3, 4, 5, 6, 7, 8, 9, 10, 11, 12, 13, 14, 15]

/-- The four channels in rising order. -/
def channels : List Channel := [0, 1, 2, 3]

/-- Four like things, one for each channel. -/
structure Quad (α : Type) where
  c0 : α
  c1 : α
  c2 : α
  c3 : α
deriving DecidableEq, Repr

namespace Quad

/-- The same thing at every channel. -/
def all {α : Type} (a : α) : Quad α := ⟨a, a, a, a⟩

/-- The thing at channel `n`. -/
def get {α : Type} (q : Quad α) (n : Channel) : α :=
  match n with
  | 0 => q.c0
  | 1 => q.c1
  | 2 => q.c2
  | 3 => q.c3

/-- One thing for each channel, from a rule. -/
def ofFn {α : Type} (f : Channel → α) : Quad α := ⟨f 0, f 1, f 2, f 3⟩

/-- The four things with the one at channel `n` replaced. -/
def set {α : Type} (q : Quad α) (n : Channel) (a : α) : Quad α :=
  match n with
  | 0 => ⟨a, q.c1, q.c2, q.c3⟩
  | 1 => ⟨q.c0, a, q.c2, q.c3⟩
  | 2 => ⟨q.c0, q.c1, a, q.c3⟩
  | 3 => ⟨q.c0, q.c1, q.c2, a⟩

/-- The four things in channel order. -/
def toList {α : Type} (q : Quad α) : List α := [q.c0, q.c1, q.c2, q.c3]

end Quad

end Sys2Proof
end

