-- ==== Sys2Proof/Syntax.lean ====
section
/-! DEFINITION. The commands of the node: one constructor for each row of spec/opcode_table.json, with its operands.
Every command carries `after`, the wait between the command before it and itself: the microseconds of the time base that
pass, the raw levels that the fast filters see in them, and the falling edges of SCK (log 1). -/

namespace Sys2Proof

/-- A character as the receiver has sampled it: data byte, mark bit and stop bit, 1 = recessive (R2, R3). -/
structure CharBits where
  data : Byte
  mark : Bool
  stop : Bool
deriving DecidableEq, Repr

/-- The event that takes a round boundary: the two local boundaries (R8, R9), or the completion of a character
(R11 to R15). -/
inductive BoundaryEvent where
  | standbyLocal
  | listeningLocal
  | character (c : CharBits)
deriving DecidableEq, Repr

/-- The lines that have a fast filter (R73). -/
inductive FastLine where
  | spd
  | ldf
  | idx
deriving DecidableEq, Repr

/-- The raw levels of the lines that have a fast filter, 1 = high (R72). -/
structure RawLines where
  spd : ChannelSet
  ldf : ChannelSet
  idx : ChannelSet
deriving DecidableEq, Repr

/-- The raw levels of one kind of line. -/
def RawLines.line (r : RawLines) (l : FastLine) : ChannelSet :=
  match l with
  | .spd => r.spd
  | .ldf => r.ldf
  | .idx => r.idx

/-- Microseconds in a row at whose looks the raw lines stand at the same levels, and the falling edges of SCK among them
(R72, R171; log 1). -/
structure Span where
  micros : Nat
  raw : RawLines
  falls : Nat
deriving DecidableEq, Repr

/-- What passes before a command arrives: spans of microseconds, the oldest first (log 1). -/
abbrev Wait := List Span

/-- The microseconds of a wait. -/
def Wait.micros (d : Wait) : Nat := (d.map (·.micros)).sum

/-- The falling edges of SCK in a wait, each after a rising edge of its own (R171, R196; log 1). -/
def Wait.falls (d : Wait) : Nat := (d.map (·.falls)).sum

/-- The raw levels of one kind of line at the last look of a wait; those before it when it has no look (R72). -/
def Wait.level (d : Wait) (l : FastLine) (before : ChannelSet) : ChannelSet :=
  d.foldl (fun v p => if p.micros = 0 then v else p.raw.line l) before

/-- The raw levels that one slow filter sample sees, 1 = high (R76). -/
structure SlowLevels where
  rdy : ChannelSet
  flt : ChannelSet
  brk : Bool
deriving DecidableEq, Repr

/-- The five pulse-width outputs (R142). -/
inductive PwmOutput where
  | trm
  | sht (n : Channel)
deriving DecidableEq, Repr

/-- The commands. Each constructor is the row of the table whose name it spells in lower case. -/
inductive Instr where
  -- supply and reset (11, Resets)
  | powerOnReset (after : Wait)
  | powerOnResetEnd (after : Wait) (straps : BitVec 4)
  | resetPinAssert (after : Wait)
  | resetPinRelease (after : Wait) (straps : BitVec 4)
  -- the service port's wires (11, Transactions)
  | transactionStart (after : Wait)
  | transactionEnd (after : Wait) (bits : List Bool)
  | readLogReadoutComplete (after : Wait)
  -- executions of the request that the request buffer holds (R173, R175)
  | unknownRequest (after : Wait)
  | nop (after : Wait)
  | readStatus (after : Wait) (straps : BitVec 4)
  | readEvents (after : Wait)
  | setEventMask (after : Wait)
  | readLinkErrors (after : Wait)
  | clearLinkErrors (after : Wait)
  | readLog (after : Wait)
  | readTrial (after : Wait)
  | readRoster (after : Wait)
  | configure (after : Wait)
  | join (after : Wait)
  | leave (after : Wait)
  | proposeTrial (after : Wait)
  | abortTrial (after : Wait)
  | manualTrim (after : Wait)
  | snap (after : Wait)
  | flushLog (after : Wait)
  | revCheck (after : Wait)
  | cancelCheck (after : Wait)
  | readCheck (after : Wait)
  | clearFaults (after : Wait)
  | clearBreak (after : Wait)
  | softReset (after : Wait)
  -- the Drawlink (01)
  | characterStart (after : Wait) (stillDominant : Bool)
  | characterComplete (after : Wait) (c : CharBits)
  | readbackMismatch (after : Wait)
  | markWindowOpen (after : Wait)
  | origination (after : Wait)
  | standbyLocalBoundary (after : Wait)
  | listeningLocalBoundary (after : Wait)
  | ownSlotOpen (after : Wait)
  | slotWindowClose (after : Wait)
  -- the drive and break lines (04)
  | speedEdge (after : Wait) (n : Channel) (dir : Bool)
  | loadEdge (after : Wait) (n : Channel)
  | indexEdge (after : Wait) (n : Channel)
  | rdyChange (after : Wait) (n : Channel)
  | fltChange (after : Wait) (n : Channel)
  | brkChange (after : Wait)
  | stall (after : Wait) (n : Channel)
  | indexTimeout (after : Wait)
  -- the outputs (08)
  | pwmPeriodStart (after : Wait)
  | pwmHighTimeEnd (after : Wait) (o : PwmOutput)
  -- what comes about at a boundary, commanded with the boundary it comes about at (log 6)
  | slip (after : Wait) (b : BoundaryEvent) (n : Channel)
  | shareAlarm (after : Wait) (b : BoundaryEvent)
  | shareAlarmClear (after : Wait) (b : BoundaryEvent)
  | entrySilent (after : Wait) (b : BoundaryEvent) (st : Station)
  | entryAgedOut (after : Wait) (b : BoundaryEvent) (st : Station)
  | listenTimeout (after : Wait) (b : BoundaryEvent)
  | joinQualified (after : Wait) (b : BoundaryEvent)
  | leaveComplete (after : Wait) (b : BoundaryEvent)
  | drawAlarm (after : Wait) (b : BoundaryEvent)
  | drawAlarmClear (after : Wait) (b : BoundaryEvent)
  | claimBoundary (after : Wait) (b : BoundaryEvent)
  | claimLapsed (after : Wait) (b : BoundaryEvent)
  | noQuorum (after : Wait) (b : BoundaryEvent)
  | trialStart (after : Wait) (b : BoundaryEvent)
  | trialCompleted (after : Wait) (b : BoundaryEvent)
  | recoveryDone (after : Wait) (b : BoundaryEvent)
  -- filters and supply
  | fastFilterFallingEdge (after : Wait) (line : FastLine) (n : Channel)
  | slowFilterSample (after : Wait) (levels : SlowLevels)
  | powerLoss (after : Wait)
deriving DecidableEq, Repr

/-- The wait before a command arrives (log 1). -/
def Instr.after : Instr → Wait
  | .powerOnReset a => a
  | .powerOnResetEnd a _ => a
  | .resetPinAssert a => a
  | .resetPinRelease a _ => a
  | .transactionStart a => a
  | .transactionEnd a _ => a
  | .readLogReadoutComplete a => a
  | .unknownRequest a => a
  | .nop a => a
  | .readStatus a _ => a
  | .readEvents a => a
  | .setEventMask a => a
  | .readLinkErrors a => a
  | .clearLinkErrors a => a
  | .readLog a => a
  | .readTrial a => a
  | .readRoster a => a
  | .configure a => a
  | .join a => a
  | .leave a => a
  | .proposeTrial a => a
  | .abortTrial a => a
  | .manualTrim a => a
  | .snap a => a
  | .flushLog a => a
  | .revCheck a => a
  | .cancelCheck a => a
  | .readCheck a => a
  | .clearFaults a => a
  | .clearBreak a => a
  | .softReset a => a
  | .characterStart a _ => a
  | .characterComplete a _ => a
  | .readbackMismatch a => a
  | .markWindowOpen a => a
  | .origination a => a
  | .standbyLocalBoundary a => a
  | .listeningLocalBoundary a => a
  | .ownSlotOpen a => a
  | .slotWindowClose a => a
  | .speedEdge a _ _ => a
  | .loadEdge a _ => a
  | .indexEdge a _ => a
  | .rdyChange a _ => a
  | .fltChange a _ => a
  | .brkChange a => a
  | .stall a _ => a
  | .indexTimeout a => a
  | .pwmPeriodStart a => a
  | .pwmHighTimeEnd a _ => a
  | .slip a _ _ => a
  | .shareAlarm a _ => a
  | .shareAlarmClear a _ => a
  | .entrySilent a _ _ => a
  | .entryAgedOut a _ _ => a
  | .listenTimeout a _ => a
  | .joinQualified a _ => a
  | .leaveComplete a _ => a
  | .drawAlarm a _ => a
  | .drawAlarmClear a _ => a
  | .claimBoundary a _ => a
  | .claimLapsed a _ => a
  | .noQuorum a _ => a
  | .trialStart a _ => a
  | .trialCompleted a _ => a
  | .recoveryDone a _ => a
  | .fastFilterFallingEdge a _ _ => a
  | .slowFilterSample a _ => a
  | .powerLoss a => a

end Sys2Proof
end

