-- ==== Sys2Proof/Decode.lean ====
section
/-! DEFINITION. The table's words: no row of spec/opcode_table.json gives bits, so no word spells a command (log 36). -/

namespace Sys2Proof

/-- The command that a word spells by the table's bits. No row of the table gives any, so none is spelled. -/
def decodeTableWord (_nbits _w : Nat) : Option Instr := none

end Sys2Proof
end

