-- ==== Sys2Proof/Config.lean ====
section
/-! DEFINITION. What the part fixes once for all (times and sizes of the spec), and the free values: the points
the spec leaves open, as constants without a body. -/

namespace Sys2Proof.Config

/-- The round period P in µs for a round period code (R7). -/
def period (code : Nat) : Nat :=
  match code with
  | 0 => 8000
  | 1 => 10000
  | 2 => 20000
  | _ => 40000

/-- The mark window opens this long before P (R7). -/
def windowLead : Nat := 1000

/-- The LISTENING local boundary falls this long after P (R9). -/
def listeningMargin : Nat := 800

/-- Each station's origination holdoff beyond the one below it (R13). -/
def holdoff : Nat := 50

/-- Where slot 0 opens in the round (R17). -/
def slotLead : Nat := 40

/-- The length of a slot window (R17). -/
def slotLength : Nat := 360

/-- A character's length in µs (R2). -/
def characterTime : Nat := 22

/-- The stop bit is sampled this long after the start edge (R3). -/
def stopSample : Nat := 21

/-- The characters of a report frame (R2). -/
def frameLength : Nat := 15

/-- The index timer's limit: 60 s (R113). -/
def indexLimit : Nat := 60000000

/-- The PWM period in µs (R142). -/
def pwmPeriod : Nat := 1000

/-- The spacing of slow filter samples in µs (R76). -/
def samplePeriod : Nat := 1000

/-- The log's capacity in records (10, R159). -/
def logCapacity : Nat := 256

/-- The pretrigger ring's capacity in samples (R158). -/
def ringCapacity : Nat := 8

/-- Rising SCK edges that shift out a READ_LOG response's status and 24 record bytes (R196). -/
def readoutEdges : Nat := 200

/-- FREE VALUE (log 3): the rank by which commands that come due at one instant are put in order.
The spec gives the outcome of every order and fixes none. -/
opaque tieRank : Nat → Nat → Nat

/-- FREE VALUE (log 4): how long after SSEL rose a request executes, reduced below to 0 to 20 µs (R173). -/
opaque executionDelay : Nat → Nat

/-- FREE VALUE (log 25): the byte READ_TRIAL shows for a boundary count above 255 (R195 gives the count one byte). -/
opaque countByte : Nat → Byte

/-- FREE VALUE (log 37): the quotient of a division whose divisor is 0, by its dividend. -/
opaque quotientByZero : Int → Int

end Sys2Proof.Config
end

