-- ==== Sys2Proof/Machine/State.lean ====
section
/-! DEFINITION. The state of the node, block by block, as plain data; why a step can stop; and the state right after
power-on reset. Timers are held as the time base value at which they started (log 1). -/

namespace Sys2Proof.Machine

/-! ### Codes and modes -/

/-- Link states (02, Link states; codes of R192). -/
inductive LinkState where
  | unconfigured
  | standby
  | listening
  | active
  | leaving
deriving DecidableEq, Repr

/-- Leave progress (02, Link states). -/
inductive LeaveProgress where
  | idle
  | owed
  | sent
deriving DecidableEq, Repr

/-- What was observed in the own slot of a round (R20). -/
inductive SlotObservation where
  | silent
  | heard
  | unobserved
deriving DecidableEq, Repr

/-- The kinds of round boundary (R6). -/
inductive BoundaryKind where
  | localTimed
  | adopted
  | originated
  | lost
deriving DecidableEq, Repr

/-- Presence states of a roster entry (02, The roster). -/
inductive Presence where
  | absent
  | present
  | silent
deriving DecidableEq, Repr

/-- Trial phases as reported (R33, R192). -/
inductive TrialPhase where
  | none
  | claim
  | accept
  | refuse
  | go
  | run
  | abort
deriving DecidableEq, Repr

/-- Trial kinds; `none` is the kind of an empty record (R44, R192). -/
inductive TrialKind where
  | none
  | watch
  | drawStep
  | shareStep
deriving DecidableEq, Repr

/-- Local phases of the trial record (03, The trial record). -/
inductive LocalPhase where
  | idle
  | proposing
  | accepting
  | scheduled
  | running
  | recovering
deriving DecidableEq, Repr

/-- Roles of the trial record (R192). -/
inductive Role where
  | none
  | proposer
  | member
  | proposerMember
  | bystander
deriving DecidableEq, Repr

/-- Refusal reasons, abort causes and last-outcome codes: one code space (R192). -/
inductive Reason where
  | none
  | brk
  | busy
  | drives
  | notNeutral
  | logSpace
  | draw
  | invalid
  | requested
  | targetAbsent
  | noTrial
  | noCheck
  | inputActive
  | driveFault
  | drawLimit
  | peerLost
  | missedGo
  | notReady
  | link
  | withdrawn
  | noQuorum
  | lapsed
deriving DecidableEq, Repr

/-- How a tracked trial ended (R69, R192). -/
inductive TrialOutcome where
  | none
  | completed
  | aborted
  | withdrawn
  | lost
  | dropped
deriving DecidableEq, Repr

/-- Causes of the FAULTED latch (R85). -/
inductive FaultCause where
  | faultInput
  | slip
  | reversed
deriving DecidableEq, Repr

/-- Channel states (04, Channel states); a FAULTED channel holds its cause (R85). -/
inductive ChannelState where
  | disabled
  | offline
  | ready
  | faulted (cause : FaultCause)
deriving DecidableEq, Repr

/-- Speed methods (R90, R104). -/
inductive SpeedMethod where
  | none
  | count
  | period
  | start
  | stalled
deriving DecidableEq, Repr

/-- Check states (06). -/
inductive CheckState where
  | idle
  | armed
  | counting
  | done
deriving DecidableEq, Repr

/-- Causes of an INCOMPLETE verdict (06). -/
inductive CheckCause where
  | channel
  | noIndex
  | overrange
  | cancelled
deriving DecidableEq, Repr

/-- Verdicts of the revolution check; INCOMPLETE holds its cause (06). -/
inductive Verdict where
  | none
  | isMatch
  | mismatch
  | reversed
  | incomplete (cause : CheckCause)
deriving DecidableEq, Repr

/-- Why a draw is UNDEFINED (R117, R119). -/
inductive UndefinedReason where
  | notMeasured
  | noUpstream
  | upstreamNotPresent
  | ownInvalid
  | upstreamInvalid
  | upstreamSlow
deriving DecidableEq, Repr

/-- The draw state (07). -/
inductive DrawState where
  | defined
  | undefined (reason : UndefinedReason)
deriving DecidableEq, Repr

/-- The place of a draw against the soft window (R122). -/
inductive SoftPosition where
  | inside
  | low
  | high
deriving DecidableEq, Repr

/-- Ramp classes (R134). -/
inductive RampClass where
  | normal
  | trial
  | recovery
deriving DecidableEq, Repr

/-- Log record types (10, Records). -/
inductive RecordType where
  | none
  | pre
  | run
  | close
  | snap
deriving DecidableEq, Repr

/-- Status codes of a response (R195). -/
inductive Status where
  | ok
  | refused
  | notAvailable
  | unknown
  | badLength
  | invalid
deriving DecidableEq, Repr

/-! ### Supply, reset and input pins -/

/-- What holds the node in reset (R188, R189). -/
structure Power where
  supplied : Bool
  por : Bool
  resetPin : Bool
deriving DecidableEq, Repr

/-- The input pins' raw levels as the node last saw them, 1 = high (12, Pins; log 32). -/
structure Pins where
  straps : BitVec 4
  spd : ChannelSet
  dir : ChannelSet
  ldf : ChannelSet
  idx : ChannelSet
  rdy : ChannelSet
  flt : ChannelSet
  brk : Bool
  sckFalls : Nat
deriving DecidableEq, Repr

/-! ### The report and the trial's names -/

/-- A trial id: proposer station and sequence (R45). -/
structure TrialId where
  proposer : Station
  seq : Fin 16
deriving DecidableEq, Repr

/-- The four parameter bytes of a report (R33). -/
structure ParamBytes where
  a : Byte
  b : Byte
  c : Byte
  d : Byte
deriving DecidableEq, Repr

/-- The fields of a report, the check byte left out (02, The node's own report). Speed and load are words as the
frame carries them, with their invalid codes (R193). -/
structure Report where
  station : Station
  leaving : Bool
  brk : Bool
  fault : Bool
  alarm : Bool
  readyCount : Nat
  phase : TrialPhase
  speed : BitVec 24
  load : BitVec 16
  trim : BitVec 16
  id : TrialId
  params : ParamBytes
deriving DecidableEq, Repr

/-- A trial's seven parameters (R44). -/
structure TrialParams where
  kind : TrialKind
  spanFirst : Station
  spanLast : Station
  target : Station
  drive : Channel
  step : Int
  duration : Nat
deriving DecidableEq, Repr

/-! ### Line Interface and Round Timer -/

/-- An open frame attempt (R17, R18): its slot, its characters' data bytes in order, whether one of them had a
framing fault, whether a valid mark began inside it, and where its last character ended. -/
structure Attempt where
  slot : Station
  bytes : List Byte
  framing : Bool
  markInside : Bool
  lastEnd : Nat
deriving DecidableEq, Repr

/-- What the transmitter is doing (R1, R2, R4). -/
inductive Tx where
  | released
  | mark (number : BitVec 8)
  | frame (report : Report) (sent : Nat)
deriving DecidableEq, Repr

/-- What is left of an attempt that its window's closing has cut (R17): the slot it was in, and the last instant at which a
start edge still belongs to it. -/
structure CutAttempt where
  slot : Station
  lastEnd : Nat
deriving DecidableEq, Repr

/-- The Line Interface (01). `rx` and `rxNext` are the start edges of the character under way and of one that began from
its stop-bit sample on; `rxSampled` is that of a received character whose stop bit had been sampled when the node began
to send, and which has not completed (R3). -/
structure LineInterface where
  rx : Option Nat
  rxNext : Option Nat
  rxSampled : Option Nat
  attempt : Option Attempt
  overrun : Option CutAttempt
  tx : Tx
  errors : BitVec 8
deriving DecidableEq, Repr

/-- What places a character in a round: when the round opened, in which link state, whether frames are assembled in it,
and whether it is lost (R3, R9, R16). -/
structure RoundFrame where
  start : Nat
  state : LinkState
  synced : Bool
  lost : Bool
deriving DecidableEq, Repr

/-- The Round Timer (01, The round). `start` is the instant of the last boundary: the round timer's reading is the
time base less it. `before` is the round that this boundary closed, which the characters belong to whose start edges fell
in it (R3). -/
structure RoundTimer where
  start : Nat
  number : BitVec 8
  windowOpen : Bool
  lost : Bool
  synced : Bool
  startInWindow : Bool
  ownSlot : SlotObservation
  slotsClosed : Nat
  ownSlotDone : Bool
  before : RoundFrame
deriving DecidableEq, Repr

/-! ### Link membership and the roster -/

/-- The link state and its three further items (02, Link states). -/
structure Link where
  state : LinkState
  listenCount : Nat
  joinCount : Nat
  leave : LeaveProgress
deriving DecidableEq, Repr

/-- A roster entry (02, The roster). -/
structure Entry where
  presence : Presence
  miss : Nat
  heard : Bool
  lastRound : BitVec 8
  report : Report
deriving DecidableEq, Repr

/-! ### Trial Controller -/

/-- The pending request of the trial record (03, The trial record). -/
inductive PendingRequest where
  | none
  | propose (id : TrialId) (params : TrialParams)
  | abort
deriving DecidableEq, Repr

/-- The trial record (03, The trial record), with the cause and origin its owed ABORT reports carry (R57, R65, R66)
and the CLOSE record owed after an own-slot conflict (R67). -/
structure TrialRecord where
  phase : LocalPhase
  role : Role
  id : TrialId
  params : TrialParams
  startRound : BitVec 8
  remaining : Nat
  required : StationSet
  accepted : StationSet
  watched : StationSet
  readySet : ChannelSet
  count : Nat
  abortsOwed : Nat
  abortCause : Byte
  abortOrigin : Station
  request : PendingRequest
  refusing : Bool
  linkCloseOwed : Bool
deriving DecidableEq, Repr

/-- The last-outcome record (R69). The code is a byte: a refusal reason is stored as received (R193). -/
structure LastOutcome where
  outcome : TrialOutcome
  id : TrialId
  code : Byte
  station : Station
deriving DecidableEq, Repr

/-! ### Inputs and counters -/

/-- A fast filter: filtered level, the consecutive looks at which the raw line has differed (R73), and whether the line,
high when CONFIGURE was accepted, has still to be seen low before it can rise (R74). -/
structure FastFilter where
  level : Bool
  differs : Nat
  held : Bool
deriving DecidableEq, Repr

/-- A slow filter: whether its filtered level is the line's active level, and its run count (R76). -/
structure SlowFilter where
  active : Bool
  run : Nat
deriving DecidableEq, Repr

/-- The Input Conditioner (04). `sensedFrom` is the acceptance of CONFIGURE, `samples` the slow filter samples
taken since (R76). -/
structure Inputs where
  spd : Quad FastFilter
  ldf : Quad FastFilter
  idx : Quad FastFilter
  rdy : Quad SlowFilter
  flt : Quad SlowFilter
  brk : SlowFilter
  sensedFrom : Nat
  samples : Nat
deriving DecidableEq, Repr

/-- The edge history of a channel (R79); `forward` is the direction of the newer edge. -/
inductive History where
  | empty
  | one (newer : Nat) (forward : Bool)
  | two (older newer : Nat) (forward : Bool)
deriving DecidableEq, Repr

/-- The counters of a channel (04, The channel counters). -/
structure Counters where
  net : Int
  loads : Nat
  history : History
  stallFrom : Nat
  stalled : Bool
deriving DecidableEq, Repr

/-! ### Measurement, check, draw -/

/-- A channel's values of the closing round (05). -/
structure ChannelValues where
  method : SpeedMethod
  speed : Option Int
  load : Option Int
  share : Option Int
  deviation : Option Int
  slip : Nat
deriving DecidableEq, Repr

/-- The Section Measurement Unit's values (05). -/
structure Measurement where
  chan : Quad ChannelValues
  speed : Option Int
  load : Option Int
  sharesComputed : Bool
  alarm : Bool
  outRun : Nat
  inRun : Nat
deriving DecidableEq, Repr

/-- The index timer: running since an instant, or stopped at a reading (R113). -/
inductive IndexTimer where
  | stopped (reading : Nat)
  | running (since : Nat)
deriving DecidableEq, Repr

/-- The Revolution Check Unit (06). -/
structure RevCheck where
  state : CheckState
  channel : Channel
  count : Int
  verdict : Verdict
  timer : IndexTimer
  firstIndex : Nat
  revTime : Nat
deriving DecidableEq, Repr

/-- The Draw Monitor (07). -/
structure Draw where
  value : Int
  state : DrawState
  position : SoftPosition
  hard : Bool
  alarm : Bool
  outRun : Nat
  inRun : Nat
  upSpeed : BitVec 24
  upMiss : Nat
deriving DecidableEq, Repr

/-! ### Trims, outputs, break -/

/-- The Trim Generator's targets and applied values (08). -/
structure Trim where
  manual : Int
  trialTarget : Option Int
  target : Int
  applied : Int
  shiftTarget : Int
  shift : Int
  drive : Channel
  cls : RampClass
  shares : Quad Int
deriving DecidableEq, Repr

/-- The PWM output units (R142 to R146): `trmNow` and `shtNow` are the high times in µs of the period under way,
`trmNext` (in sixteenths of a µs) and `shtNext` the high times waiting. -/
structure Pwm where
  running : Bool
  start : Nat
  dither : Fin 16
  trmNow : Nat
  trmNext : Nat
  shtNow : Quad Nat
  shtNext : Quad Nat
  trm : Bool
  sht : Quad Bool
deriving DecidableEq, Repr

/-- The Break Monitor (09). -/
structure Break where
  latch : Bool
  mark : Bool
deriving DecidableEq, Repr

/-! ### Response Log -/

/-- A sample (R157). An absent speed or load stands for its invalid code. -/
structure Sample where
  round : BitVec 8
  speed : Option Int
  load : Option Int
  loads : Quad (Option Int)
  ready : ChannelSet
  draw : Int
  drawUndefined : Bool
  trim : Int
  brk : Bool
  alarm : Bool
  lost : Bool
deriving DecidableEq, Repr

/-- A log record (10, Records). -/
structure LogRecord where
  seq : BitVec 16
  type : RecordType
  id : TrialId
  sample : Sample
  outcome : TrialOutcome
  cause : Byte
  origin : Station
deriving DecidableEq, Repr

/-- The Response Log (10). -/
structure Log where
  records : List LogRecord
  counter : BitVec 16
  ring : List Sample
  last : Sample
  latch : Option LogRecord
  removal : Bool
deriving DecidableEq, Repr

/-! ### Service Port and configuration -/

/-- A response: its status, its body, and whether it answers READ_LOG (R167, R175). -/
structure Response where
  status : Status
  body : List Byte
  readLog : Bool
deriving DecidableEq, Repr

/-- The transaction under way (R171, R174). -/
inductive Txn where
  | none
  | ordinary
  | busy
deriving DecidableEq, Repr

/-- The Service Port (11). -/
structure Port where
  srdy : Bool
  request : List Byte
  requestAt : Nat
  response : Option Response
  sselLow : Bool
  txn : Txn
  events : BitVec 16
  mask : BitVec 16
deriving DecidableEq, Repr

/-- The configuration fields of a channel (R185). -/
structure ChannelConfig where
  pulse : Nat
  share : Nat
  expected : Nat
  f0 : Nat
  f100 : Nat
deriving DecidableEq, Repr

/-- The configuration record (R185). -/
structure ConfigRecord where
  periodCode : Nat
  upstream : Option Station
  driveCount : Nat
  chan : Quad ChannelConfig
  fastWidth : Nat
  slowTime : Nat
  stallTime : Nat
  minSpeed : Nat
  minLoad : Nat
  slipTolerance : Nat
  shareTolerance : Nat
  softLow : Int
  softHigh : Int
  hardLow : Int
  hardHigh : Int
  trimLimit : Nat
  shareTrimLimit : Nat
  rampNormal : Nat
  rampTrial : Nat
  rampRecovery : Nat
  separateRamps : Bool
deriving DecidableEq, Repr

/-! ### The state -/

/-- The node: every block's state, and the queue of the commands that wait. -/
structure State where
  now : Nat
  power : Power
  pins : Pins
  station : Station
  config : Option ConfigRecord
  line : LineInterface
  round : RoundTimer
  link : Link
  roster : List Entry
  ownReport : Report
  trial : TrialRecord
  lastOutcome : LastOutcome
  seqCounter : Fin 16
  inputs : Inputs
  counters : Quad Counters
  chans : Quad ChannelState
  meas : Measurement
  check : RevCheck
  draw : Draw
  trim : Trim
  pwm : Pwm
  brk : Break
  log : Log
  port : Port
  pending : List Instr
deriving DecidableEq, Repr

/-! ### Why a step can stop -/

/-- The faults. There are none: the spec names no condition in which the node stops. Supply loss and a held reset are
states (R188, R189), FAULTED is a channel state (R85), and link errors are flags (R21). Safe: nothing stops (log 35). -/
inductive Fault where
deriving DecidableEq, Repr

/-- The refusals. -/
inductive Refusal where
  /-- Raised by `exec` for a command that has no meaning in the model yet, by its mnemonic. Safe: the model stops where
  the hardware goes on. No arm of `exec` raises it. -/
  | notModelled (mnemonic : String)
deriving DecidableEq, Repr

/-! ### Values after reset -/

/-- The invalid code of a section speed (R193). -/
def invalidSpeed : BitVec 24 := 0x800000#24

/-- The invalid code of a load (R193). -/
def invalidLoad : BitVec 16 := 0x8000#16

/-- The zero trial id (R46). -/
def TrialId.zero : TrialId := ⟨0, 0⟩

/-- The empty report (R31, R34). -/
def Report.empty : Report :=
  { station := 0, leaving := false, brk := false, fault := false, alarm := false, readyCount := 0, phase := .none,
    speed := invalidSpeed, load := invalidLoad, trim := 0, id := .zero, params := ⟨0, 0, 0, 0⟩ }

/-- A cleared roster entry (R34). -/
def Entry.cleared : Entry :=
  { presence := .absent, miss := 0, heard := false, lastRound := 0, report := .empty }

/-- Parameters of an empty record (R46). -/
def TrialParams.zero : TrialParams :=
  { kind := .none, spanFirst := 0, spanLast := 0, target := 0, drive := 0, step := 0, duration := 0 }

/-- The empty trial record (R46). -/
def TrialRecord.empty : TrialRecord :=
  { phase := .idle, role := .none, id := .zero, params := .zero, startRound := 0, remaining := 0, required := 0,
    accepted := 0, watched := 0, readySet := 0, count := 0, abortsOwed := 0, abortCause := 0, abortOrigin := 0,
    request := .none, refusing := false, linkCloseOwed := false }

/-- The empty last-outcome record (R46). -/
def LastOutcome.empty : LastOutcome := { outcome := .none, id := .zero, code := 0, station := 0 }

/-- The Line Interface after a reset (R1, R3, R21). -/
def LineInterface.reset : LineInterface :=
  { rx := none, rxNext := none, rxSampled := none, attempt := none, overrun := none, tx := .released, errors := 0 }

/-- No round: none has been closed since the round timer started (R8). -/
def RoundFrame.none : RoundFrame := { start := 0, state := .unconfigured, synced := false, lost := false }

/-- The Round Timer after a reset (R5, R8, R16). -/
def RoundTimer.reset : RoundTimer :=
  { start := 0, number := 0, windowOpen := false, lost := false, synced := false, startInWindow := false,
    ownSlot := .unobserved, slotsClosed := 0, ownSlotDone := false, before := .none }

/-- The link state after a reset (R23). -/
def Link.reset : Link := { state := .unconfigured, listenCount := 0, joinCount := 0, leave := .idle }

/-- A fast filter with its level low and its time 0 (R74). -/
def FastFilter.low : FastFilter := { level := false, differs := 0, held := false }

/-- The filters after a reset (R74, R77). -/
def Inputs.reset : Inputs :=
  { spd := .all .low, ldf := .all .low, idx := .all .low, rdy := .all ⟨false, 0⟩,
    flt := .all ⟨false, 0⟩, brk := ⟨false, 0⟩, sensedFrom := 0, samples := 0 }

/-- A channel's counters after a reset (R78 to R80, R82). -/
def Counters.reset : Counters := { net := 0, loads := 0, history := .empty, stallFrom := 0, stalled := true }

/-- A channel's values after a reset (R104). -/
def ChannelValues.reset : ChannelValues :=
  { method := .none, speed := none, load := none, share := none, deviation := none, slip := 0 }

/-- The measurements after a reset (R104). -/
def Measurement.reset : Measurement :=
  { chan := .all .reset, speed := none, load := none, sharesComputed := false, alarm := false, outRun := 0, inRun := 0 }

/-- The revolution check after a reset (R107). -/
def RevCheck.reset : RevCheck :=
  { state := .idle, channel := 0, count := 0, verdict := .none, timer := .stopped 0, firstIndex := 0, revTime := 0 }

/-- The draw after a reset (R117). -/
def Draw.reset : Draw :=
  { value := 0, state := .undefined .notMeasured, position := .inside, hard := false, alarm := false, outRun := 0,
    inRun := 0, upSpeed := invalidSpeed, upMiss := 0 }

/-- The trims after a reset (R129). -/
def Trim.reset : Trim :=
  { manual := 0, trialTarget := none, target := 0, applied := 0, shiftTarget := 0, shift := 0, drive := 0,
    cls := .normal, shares := .all 0 }

/-- The outputs as a hardware reset's end starts them at an instant: neutral, dither position 0, every output high
(R129, R142; log 10). -/
def Pwm.started (at_ : Nat) : Pwm :=
  { running := true, start := at_, dither := 0, trmNow := 500, trmNext := 8000, shtNow := .all 500, shtNext := .all 500,
    trm := true, sht := .all true }

/-- The empty sample (R156). -/
def Sample.empty : Sample :=
  { round := 0, speed := none, load := none, loads := .all none, ready := 0, draw := 0, drawUndefined := true, trim := 0,
    brk := false, alarm := false, lost := false }

/-- The Response Log after a power-on or pin reset (R156). -/
def Log.reset : Log :=
  { records := [], counter := 0, ring := [], last := .empty, latch := none, removal := false }

/-- The Service Port after a power-on or pin reset (R188, R191). -/
def Port.reset : Port :=
  { srdy := true, request := [], requestAt := 0, response := none, sselLow := false, txn := .none, events := 0, mask := 0 }

/-- The node at the end of power-on reset (R188), with every input pin at its inactive level and the straps low
(log 7). -/
def State.reset : State :=
  { now := 0
    power := { supplied := true, por := false, resetPin := false }
    pins := { straps := 0, spd := 0, dir := 0, ldf := 0, idx := 0, rdy := 0, flt := 0xF#4, brk := true, sckFalls := 0 }
    station := 0
    config := none
    line := .reset
    round := .reset
    link := .reset
    roster := List.replicate 16 Entry.cleared
    ownReport := .empty
    trial := .empty
    lastOutcome := .empty
    seqCounter := 0
    inputs := .reset
    counters := .all .reset
    chans := .all .disabled
    meas := .reset
    check := .reset
    draw := .reset
    trim := .reset
    pwm := .started 0
    brk := { latch := false, mark := false }
    log := .reset
    port := .reset
    pending := [] }

end Sys2Proof.Machine
end

