-- ==== Sys2Proof/Machine/Flags.lean ====
section
/-! DEFINITION. The event flags, the event mask, ALERT and the link error flags. -/

namespace Sys2Proof.Machine

/-- The fifteen events, in the order of the event table (11, Events and ALERT). -/
inductive Event where
  | joined
  | left
  | duplicate
  | peerChange
  | claimSeen
  | trialStart
  | trialEnd
  | brk
  | drawAlarm
  | shareAlarm
  | channelFault
  | revCheckDone
  | logClosed
  | linkError
  | portOverrun
deriving DecidableEq, Repr

/-- The bit of an event in the two-byte field (R192). -/
def Event.bit : Event → Nat
  | .joined => 0
  | .left => 1
  | .duplicate => 2
  | .peerChange => 3
  | .claimSeen => 4
  | .trialStart => 5
  | .trialEnd => 6
  | .brk => 7
  | .drawAlarm => 8
  | .shareAlarm => 9
  | .channelFault => 10
  | .revCheckDone => 11
  | .logClosed => 12
  | .linkError => 13
  | .portOverrun => 14

/-- The mask with one event's bit set. -/
def Event.flag (e : Event) : BitVec 16 := BitVec.twoPow 16 e.bit

/-- The positions that stand for a flag: bit 15 reads 0 (R182, R192). -/
def eventPositions : BitVec 16 := 0x7FFF#16

/-- The event's flag is set. -/
def State.hasEvent (s : State) (e : Event) : Bool := s.port.events.getLsbD e.bit

/-- An event is raised: its flag becomes set, whatever its enable (R180). -/
def State.raise (s : State) (e : Event) : State :=
  { s with port := { s.port with events := s.port.events ||| e.flag } }

/-- An event is raised when a condition holds. -/
def State.raiseIf (s : State) (p : Bool) (e : Event) : State := if p then s.raise e else s

/-- The node is running: supplied and held by neither reset (R188, R189). -/
def State.running (s : State) : Bool := s.power.supplied && !s.power.por && !s.power.resetPin

/-- ALERT is active, driven low: an event flag and its enable are both set, and no reset is held (R183). -/
def State.alertLow (s : State) : Bool := s.running && (s.port.events &&& s.port.mask &&& eventPositions != 0#16)

/-- The seven link error flags (R21). -/
inductive LinkError where
  | framing
  | check
  | slot
  | short
  | earlyMark
  | lostMark
  | collision
deriving DecidableEq, Repr

/-- The bit of a link error flag in the link error byte (R192). -/
def LinkError.bit : LinkError → Nat
  | .framing => 0
  | .check => 1
  | .slot => 2
  | .short => 3
  | .earlyMark => 4
  | .lostMark => 5
  | .collision => 6

/-- The byte with one link error's bit set. -/
def LinkError.flag (e : LinkError) : BitVec 8 := BitVec.twoPow 8 e.bit

/-- The link error's flag is set. -/
def State.hasLinkError (s : State) (e : LinkError) : Bool := s.line.errors.getLsbD e.bit

/-- A link error's cause: its flag becomes set, and LINK_ERROR is raised when it was clear (R21). -/
def State.linkError (s : State) (e : LinkError) : State :=
  ({ s with line := { s.line with errors := s.line.errors ||| e.flag } } : State).raiseIf
    (!s.hasLinkError e) .linkError

/-- A link error's cause, when a condition holds. -/
def State.linkErrorIf (s : State) (p : Bool) (e : LinkError) : State := if p then s.linkError e else s

end Sys2Proof.Machine
end

