-- ==== Sys2Proof/Machine/Operands.lean ====
section
/-! DEFINITION. Codes, byte layouts and operand forms: the report frame, the log record, requests and their parameters,
the configuration record; and the exact arithmetic the chapters share. -/

namespace Sys2Proof.Machine

/-! ### Arithmetic (00, Numbers) -/

/-- A quotient truncated toward zero. A divisor of 0 cannot stand in the spec's formulas and gives a free value
(log 37). -/
def truncDiv (a b : Int) : Int := if b = 0 then Config.quotientByZero a else Int.tdiv a b

/-- A value held within two bounds. -/
def clamp (lo hi x : Int) : Int := if x < lo then lo else if hi < x then hi else x

/-- The sum of a list of integers. -/
def sumInt (l : List Int) : Int := l.foldr (· + ·) 0

/-! ### Bytes and words, most significant byte first (00, Byte order) -/

/-- The two bytes of a 16-bit word. -/
def bytes16 (w : BitVec 16) : List Byte := [w.extractLsb' 8 8, w.extractLsb' 0 8]

/-- The three bytes of a 24-bit word. -/
def bytes24 (w : BitVec 24) : List Byte := [w.extractLsb' 16 8, w.extractLsb' 8 8, w.extractLsb' 0 8]

/-- The four bytes of a 32-bit word. -/
def bytes32 (w : BitVec 32) : List Byte :=
  [w.extractLsb' 24 8, w.extractLsb' 16 8, w.extractLsb' 8 8, w.extractLsb' 0 8]

/-- A signed value in two bytes, two's complement. -/
def signed16 (x : Int) : List Byte := bytes16 (BitVec.ofInt 16 x)

/-- A count in two bytes. -/
def unsigned16 (x : Nat) : List Byte := bytes16 (BitVec.ofNat 16 x)

/-- A count in one byte. -/
def byteOf (x : Nat) : Byte := BitVec.ofNat 8 x

/-- A flag in one byte, 1 = set. -/
def flagByte (p : Bool) : Byte := if p then 1 else 0

/-- A channel set in one byte, bits 4 to 7 reading 0 (R192). -/
def setByte (m : ChannelSet) : Byte := m.setWidth 8

/-- Byte `i` of a list of bytes; 0 beyond its end. -/
def nth (p : List Byte) (i : Nat) : Byte := p.getD i 0

/-- The 16-bit word at byte `i`. -/
def word16 (p : List Byte) (i : Nat) : BitVec 16 := nth p i ++ nth p (i + 1)

/-- The 24-bit word at byte `i`. -/
def word24 (p : List Byte) (i : Nat) : BitVec 24 := nth p i ++ word16 p (i + 1)

/-- The upper four bits of a byte as a number 0 to 15. -/
def upperNibble (b : Byte) : Fin 16 := (b.extractLsb' 4 4).toFin

/-- The lower four bits of a byte as a number 0 to 15. -/
def lowerNibble (b : Byte) : Fin 16 := (b.extractLsb' 0 4).toFin

/-- A byte of two four-bit numbers. -/
def nibbles (hi lo : Fin 16) : Byte := (BitVec.ofFin hi : BitVec 4) ++ (BitVec.ofFin lo : BitVec 4)

/-- The channels of a set, by a rule for each channel. -/
def channelSet (p : Channel → Bool) : ChannelSet :=
  BitVec.ofNat 4 ((channels.map fun n => if p n then 2 ^ n.val else 0).foldr (· + ·) 0)

/-- The stations of a set, by a rule for each station. -/
def stationSet (p : Station → Bool) : StationSet :=
  BitVec.ofNat 16 ((stations.map fun t => if p t then 2 ^ t.val else 0).foldr (· + ·) 0)

/-- The bytes that a run of bits makes, most significant bit first; an unfinished last byte is discarded (R171, R196). -/
def wholeBytes : List Bool → List Byte
  | b7 :: b6 :: b5 :: b4 :: b3 :: b2 :: b1 :: b0 :: rest =>
    BitVec.ofBoolListBE [b7, b6, b5, b4, b3, b2, b1, b0] :: wholeBytes rest
  | _ => []

/-! ### A character on the line (R2, R3) -/

/-- The eleven levels of a character in the order sent, true = recessive: start bit, data bits least significant first,
mark bit, stop bit (R2). -/
def charLevels (c : CharBits) : List Bool :=
  false :: (List.range 8).map (fun i => c.data.getLsbD i) ++ [c.mark, c.stop]

/-- The character that eleven sampled levels make (R3). -/
def charOfLevels (l : List Bool) : CharBits :=
  { data := BitVec.ofNat 8 (((l.drop 1).take 8).foldr (fun b n => (if b then 1 else 0) + 2 * n) 0)
    mark := l.getD 9 false
    stop := l.getD 10 false }

/-- The levels that every node sees when two nodes send: dominant prevails (01, The line and its characters). -/
def lineLevels (a b : List Bool) : List Bool := List.zipWith (· && ·) a b

/-! ### Codes (R192) -/

/-- Code of a link state. -/
def LinkState.code : LinkState → Byte
  | .unconfigured => 0
  | .standby => 1
  | .listening => 2
  | .active => 3
  | .leaving => 4

/-- Code of a leave progress (R195, byte 7 of the status). -/
def LeaveProgress.code : LeaveProgress → Byte
  | .idle => 0
  | .owed => 1
  | .sent => 2

/-- Code of a presence state. -/
def Presence.code : Presence → Byte
  | .absent => 0
  | .present => 1
  | .silent => 2

/-- Code of a trial phase. -/
def TrialPhase.code : TrialPhase → BitVec 3
  | .none => 0
  | .claim => 1
  | .accept => 2
  | .refuse => 3
  | .go => 4
  | .run => 5
  | .abort => 6

/-- The trial phase a code names; code 7 names none (R193). -/
def TrialPhase.ofCode (c : BitVec 3) : Option TrialPhase :=
  match c.toNat with
  | 0 => some .none
  | 1 => some .claim
  | 2 => some .accept
  | 3 => some .refuse
  | 4 => some .go
  | 5 => some .run
  | 6 => some .abort
  | _ => none

/-- Code of a trial kind. -/
def TrialKind.code : TrialKind → BitVec 2
  | .none => 0
  | .watch => 1
  | .drawStep => 2
  | .shareStep => 3

/-- The trial kind a code names: code 0, and every code above 3, names none. -/
def TrialKind.ofCode (c : Nat) : TrialKind :=
  match c with
  | 1 => .watch
  | 2 => .drawStep
  | 3 => .shareStep
  | _ => .none

/-- Code of a local phase. -/
def LocalPhase.code : LocalPhase → Byte
  | .idle => 0
  | .proposing => 1
  | .accepting => 2
  | .scheduled => 3
  | .running => 4
  | .recovering => 5

/-- Code of a role. -/
def Role.code : Role → Byte
  | .none => 0
  | .proposer => 1
  | .member => 2
  | .proposerMember => 3
  | .bystander => 4

/-- Code of a refusal reason, abort cause or last-outcome code. -/
def Reason.code : Reason → Byte
  | .none => 0
  | .brk => 1
  | .busy => 2
  | .drives => 3
  | .notNeutral => 4
  | .logSpace => 5
  | .draw => 6
  | .invalid => 7
  | .requested => 8
  | .targetAbsent => 9
  | .noTrial => 10
  | .noCheck => 11
  | .inputActive => 12
  | .driveFault => 13
  | .drawLimit => 14
  | .peerLost => 15
  | .missedGo => 16
  | .notReady => 17
  | .link => 18
  | .withdrawn => 19
  | .noQuorum => 20
  | .lapsed => 21

/-- A received ABORT cause is defined when it is one of 1, 8, 13 to 19 (R193). -/
def definedCause (c : Byte) : Bool := c = 1 || c = 8 || (13 ≤ c.toNat && c.toNat ≤ 19)

/-- Code of an outcome. -/
def TrialOutcome.code : TrialOutcome → Byte
  | .none => 0
  | .completed => 1
  | .aborted => 2
  | .withdrawn => 3
  | .lost => 4
  | .dropped => 5

/-- Code of a FAULTED cause. -/
def FaultCause.code : FaultCause → BitVec 4
  | .faultInput => 1
  | .slip => 2
  | .reversed => 3

/-- A channel's state in bits 3 to 0 and its FAULTED cause in bits 7 to 4 (R195). -/
def ChannelState.byte : ChannelState → Byte
  | .disabled => 0
  | .offline => 1
  | .ready => 2
  | .faulted c => c.code ++ 3#4

/-- Code of a speed method (R195). -/
def SpeedMethod.code : SpeedMethod → Byte
  | .none => 0
  | .count => 1
  | .period => 2
  | .start => 3
  | .stalled => 4

/-- Code of a check state. -/
def CheckState.code : CheckState → Byte
  | .idle => 0
  | .armed => 1
  | .counting => 2
  | .done => 3

/-- Code of a verdict. -/
def Verdict.code : Verdict → Byte
  | .none => 0
  | .isMatch => 1
  | .mismatch => 2
  | .reversed => 3
  | .incomplete _ => 4

/-- Code of a check cause. -/
def CheckCause.code : CheckCause → Byte
  | .channel => 1
  | .noIndex => 2
  | .overrange => 3
  | .cancelled => 4

/-- Code of a verdict's cause: none but for INCOMPLETE. -/
def Verdict.causeCode : Verdict → Byte
  | .incomplete c => c.code
  | .none => 0
  | .isMatch => 0
  | .mismatch => 0
  | .reversed => 0

/-- Code of a record type. -/
def RecordType.code : RecordType → BitVec 4
  | .none => 0
  | .pre => 1
  | .run => 2
  | .close => 3
  | .snap => 4

/-- Code of an undefined reason (R195). -/
def UndefinedReason.code : UndefinedReason → Byte
  | .notMeasured => 1
  | .noUpstream => 2
  | .upstreamNotPresent => 3
  | .ownInvalid => 4
  | .upstreamInvalid => 5
  | .upstreamSlow => 6

/-- Codes of a draw state and its reason (R195). -/
def DrawState.codes : DrawState → List Byte
  | .defined => [0, 0]
  | .undefined r => [1, r.code]

/-- Code of a soft position (R195). -/
def SoftPosition.code : SoftPosition → Byte
  | .inside => 0
  | .low => 1
  | .high => 2

/-- Code of a ramp class (R195). -/
def RampClass.code : RampClass → Byte
  | .normal => 0
  | .trial => 1
  | .recovery => 2

/-- Code of a pending request (R195). -/
def PendingRequest.code : PendingRequest → Byte
  | .none => 0
  | .propose _ _ => 1
  | .abort => 2

/-- Code of a status (R195). -/
def Status.code : Status → Byte
  | .ok => 1
  | .refused => 2
  | .notAvailable => 3
  | .unknown => 4
  | .badLength => 5
  | .invalid => 6

/-! ### The report frame (R193) -/

/-- A section speed, or the invalid code, as a report carries it. -/
def speedWord : Option Int → BitVec 24
  | some v => BitVec.ofInt 24 v
  | none => invalidSpeed

/-- A load, or the invalid code, as a report carries it. -/
def loadWord : Option Int → BitVec 16
  | some v => BitVec.ofInt 16 v
  | none => invalidLoad

/-- A trial id in a byte: proposer in bits 7 to 4, sequence in bits 3 to 0. -/
def TrialId.byte (i : TrialId) : Byte := nibbles i.proposer i.seq

/-- The trial id of a byte. -/
def TrialId.ofByte (b : Byte) : TrialId := ⟨upperNibble b, lowerNibble b⟩

/-- Parameter byte A of CLAIM, GO and RUN: kind, drive index, target. -/
def TrialParams.byteA (p : TrialParams) : Byte := p.kind.code ++ (BitVec.ofFin p.drive : BitVec 2) ++ (BitVec.ofFin p.target : BitVec 4)

/-- Parameter byte B of CLAIM, GO and RUN: span first and last. -/
def TrialParams.byteB (p : TrialParams) : Byte := nibbles p.spanFirst p.spanLast

/-- Parameter byte C of CLAIM, GO and RUN: the step. -/
def TrialParams.byteC (p : TrialParams) : Byte := BitVec.ofInt 8 p.step

/-- The four bytes of a claim, with its duration (R193). -/
def TrialParams.claimBytes (p : TrialParams) : ParamBytes := ⟨p.byteA, p.byteB, p.byteC, byteOf p.duration⟩

/-- The parameters that a claim's four bytes carry. -/
def TrialParams.ofBytes (b : ParamBytes) : TrialParams :=
  { kind := TrialKind.ofCode (b.a.extractLsb' 6 2).toNat
    drive := (b.a.extractLsb' 4 2).toFin
    target := lowerNibble b.a
    spanFirst := upperNibble b.b
    spanLast := lowerNibble b.b
    step := b.c.toInt
    duration := b.d.toNat }

/-- The parameters keep R44: a defined kind, an ordered span that holds the target, a step of −127 to +127, a duration
of 1 to 200, and for WATCH a step of 0 and the target equal to span first. -/
def TrialParams.valid (p : TrialParams) : Bool :=
  p.kind != .none && p.spanFirst ≤ p.spanLast && p.spanFirst ≤ p.target && p.target ≤ p.spanLast
    && -127 ≤ p.step && p.step ≤ 127 && 1 ≤ p.duration && p.duration ≤ 200
    && (p.kind != .watch || (p.step = 0 && p.target = p.spanFirst))

/-- A station lies in the span. -/
def TrialParams.inSpan (p : TrialParams) (t : Station) : Bool := p.spanFirst ≤ t && t ≤ p.spanLast

/-- Bytes 0 to 13 of a report. -/
def Report.bytes (r : Report) : List Byte :=
  [ BitVec.ofBool r.alarm ++ BitVec.ofBool r.fault ++ BitVec.ofBool r.brk ++ BitVec.ofBool r.leaving
      ++ (BitVec.ofFin r.station : BitVec 4),
    0#1 ++ r.phase.code ++ 0#1 ++ BitVec.ofNat 3 r.readyCount ]
  ++ bytes24 r.speed ++ bytes16 r.load ++ bytes16 r.trim
  ++ [r.id.byte, r.params.a, r.params.b, r.params.c, r.params.d]

/-- The sum of bytes modulo 256. -/
def sumBytes (l : List Byte) : Byte := l.foldr (· + ·) 0

/-- The fifteen bytes of a report frame: the check byte makes them sum to 0 modulo 256 (R19, R193). -/
def Report.frame (r : Report) : List Byte := r.bytes ++ [0 - sumBytes r.bytes]

/-- The report that fifteen bytes carry when it is a good report: a ready count of at most 4 and a defined phase (R35). -/
def Report.ofFrame (f : List Byte) : Option Report :=
  let b0 := nth f 0
  let b1 := nth f 1
  let ready := (b1.extractLsb' 0 3).toNat
  match TrialPhase.ofCode (b1.extractLsb' 4 3) with
  | none => none
  | some ph =>
    if ready ≤ 4 then
      some
        { station := lowerNibble b0
          leaving := b0.getLsbD 4
          brk := b0.getLsbD 5
          fault := b0.getLsbD 6
          alarm := b0.getLsbD 7
          readyCount := ready
          phase := ph
          speed := word24 f 2
          load := word16 f 5
          trim := word16 f 7
          id := .ofByte (nth f 9)
          params := ⟨nth f 10, nth f 11, nth f 12, nth f 13⟩ }
    else none

/-! ### The log record (R194) -/

/-- The 24 bytes of a log record as read out. -/
def LogRecord.bytes (r : LogRecord) : List Byte :=
  let m := r.sample
  bytes16 r.seq
  ++ [ BitVec.ofBool m.lost ++ BitVec.ofBool m.alarm ++ BitVec.ofBool m.brk ++ BitVec.ofBool m.drawUndefined ++ r.type.code,
       r.id.byte, m.round ]
  ++ bytes24 (speedWord m.speed) ++ bytes16 (loadWord m.load) ++ signed16 m.draw ++ signed16 m.trim
  ++ bytes16 (loadWord m.loads.c0) ++ bytes16 (loadWord m.loads.c1)
  ++ bytes16 (loadWord m.loads.c2) ++ bytes16 (loadWord m.loads.c3)
  ++ [ (BitVec.ofFin r.origin : BitVec 4) ++ m.ready, r.outcome.code.setWidth 2 ++ r.cause.setWidth 6 ]

/-- The record bytes that an empty log answers: the counter, and zeros (R166, R194). -/
def noneRecordBytes (counter : BitVec 16) : List Byte := bytes16 counter ++ List.replicate 22 0

/-! ### Requests (R175, R176, R195) -/

/-- The requests of the service port. -/
inductive Request where
  | nop
  | readStatus
  | readEvents
  | setEventMask
  | readLinkErrors
  | clearLinkErrors
  | readLog
  | readTrial
  | readRoster
  | configure
  | join
  | leave
  | proposeTrial
  | abortTrial
  | manualTrim
  | snap
  | flushLog
  | revCheck
  | cancelCheck
  | readCheck
  | clearFaults
  | clearBreak
  | softReset
deriving DecidableEq, Repr

/-- The request codes (R195). -/
def Request.code : Request → Byte
  | .nop => 0x00
  | .readStatus => 0x01
  | .readEvents => 0x02
  | .setEventMask => 0x03
  | .readLinkErrors => 0x04
  | .clearLinkErrors => 0x05
  | .readLog => 0x06
  | .readTrial => 0x07
  | .readRoster => 0x08
  | .configure => 0x10
  | .join => 0x11
  | .leave => 0x12
  | .proposeTrial => 0x20
  | .abortTrial => 0x21
  | .manualTrim => 0x30
  | .snap => 0x40
  | .flushLog => 0x41
  | .revCheck => 0x50
  | .cancelCheck => 0x51
  | .readCheck => 0x52
  | .clearFaults => 0x60
  | .clearBreak => 0x61
  | .softReset => 0x7F

/-- All requests, in the order of the table of R195. -/
def Request.list : List Request :=
  [.nop, .readStatus, .readEvents, .setEventMask, .readLinkErrors, .clearLinkErrors, .readLog, .readTrial,
   .readRoster, .configure, .join, .leave, .proposeTrial, .abortTrial, .manualTrim, .snap, .flushLog, .revCheck,
   .cancelCheck, .readCheck, .clearFaults, .clearBreak, .softReset]

/-- The request a code names, if any. -/
def Request.ofCode (c : Byte) : Option Request := Request.list.find? fun q => q.code = c

/-- The fixed parameter length of a request (R195). -/
def Request.paramLength : Request → Nat
  | .setEventMask => 2
  | .configure => 78
  | .proposeTrial => 7
  | .manualTrim => 2
  | .revCheck => 1
  | .nop | .readStatus | .readEvents | .readLinkErrors | .clearLinkErrors | .readLog | .readTrial | .readRoster => 0
  | .join | .leave | .abortTrial | .snap | .flushLog | .cancelCheck | .readCheck | .clearFaults | .clearBreak => 0
  | .softReset => 0

/-- The link states in which a request is available (R176). -/
def Request.availableIn (q : Request) (l : LinkState) : Bool :=
  match q with
  | .nop | .readStatus | .readEvents | .setEventMask | .readLinkErrors | .clearLinkErrors => true
  | .readLog | .readTrial | .softReset => true
  | .configure => l = .unconfigured
  | .join => l = .standby
  | .leave => l = .listening || l = .active
  | .proposeTrial => l = .active
  | .abortTrial => l = .active || l = .leaving
  | .manualTrim => l = .standby || l = .listening || l = .active
  | .readRoster | .snap | .flushLog | .revCheck | .cancelCheck | .readCheck | .clearFaults | .clearBreak =>
    l != .unconfigured

/-- What the request buffer keeps of a transaction's bytes: the code and the fixed parameter bytes of the request it
names; of an unknown code, the code alone (R171; log 30). -/
def storedRequest (bytes : List Byte) : List Byte :=
  match bytes with
  | [] => []
  | c :: rest =>
    match Request.ofCode c with
    | some q => c :: rest.take q.paramLength
    | none => [c]

/-- The parameters of PROPOSE_TRIAL: seven bytes (R195). Bytes that no field can hold give a kind of none, which R44
does not allow: a drive index above 3 or a station above 15 is refused like an undefined kind. -/
def TrialParams.ofRequest (p : List Byte) : TrialParams :=
  let inRange := (nth p 1).toNat ≤ 3 && (nth p 2).toNat ≤ 15 && (nth p 3).toNat ≤ 15 && (nth p 4).toNat ≤ 15
  { kind := if inRange then TrialKind.ofCode (nth p 0).toNat else .none
    drive := ((nth p 1).extractLsb' 0 2).toFin
    target := lowerNibble (nth p 2)
    spanFirst := lowerNibble (nth p 3)
    spanLast := lowerNibble (nth p 4)
    step := (nth p 5).toInt
    duration := (nth p 6).toNat }

/-! ### The configuration record (R185, R195) -/

/-- The five fields of a channel, from their eleven bytes. -/
def ChannelConfig.ofBytes (p : List Byte) (n : Channel) : ChannelConfig :=
  let b := 3 + 11 * n.val
  { pulse := (word24 p b).toNat
    share := (word16 p (b + 3)).toNat
    expected := (word16 p (b + 5)).toNat
    f0 := (word16 p (b + 7)).toNat
    f100 := (word16 p (b + 9)).toNat }

/-- The fields of the 78 parameter bytes of CONFIGURE (R195). -/
def ConfigRecord.ofBytes (p : List Byte) : ConfigRecord :=
  { periodCode := (nth p 0).toNat
    upstream := if (nth p 1).toNat ≤ 15 then some (lowerNibble (nth p 1)) else none
    driveCount := (nth p 2).toNat
    chan := Quad.ofFn (ChannelConfig.ofBytes p)
    fastWidth := (nth p 47).toNat
    slowTime := (nth p 48).toNat
    stallTime := (word16 p 49).toNat
    minSpeed := (word24 p 51).toNat
    minLoad := (word16 p 54).toNat
    slipTolerance := (word16 p 56).toNat
    shareTolerance := (word16 p 58).toNat
    softLow := (word16 p 60).toInt
    softHigh := (word16 p 62).toInt
    hardLow := (word16 p 64).toInt
    hardHigh := (word16 p 66).toInt
    trimLimit := (word16 p 68).toNat
    shareTrimLimit := (nth p 70).toNat
    rampNormal := (word16 p 71).toNat
    rampTrial := (word16 p 73).toNat
    rampRecovery := (word16 p 75).toNat
    separateRamps := nth p 77 = 1 }

/-- The sum of the share targets of the channels below the drive count. -/
def ConfigRecord.shareSum (c : ConfigRecord) : Nat :=
  (channels.map fun n => if n.val < c.driveCount then (c.chan.get n).share else 0).foldr (· + ·) 0

/-- A count lies within two bounds. -/
def within (lo hi x : Nat) : Bool := lo ≤ x && x ≤ hi

/-- A signed value lies within two bounds. -/
def withinInt (lo hi x : Int) : Bool := lo ≤ x && x ≤ hi

/-- The checks of channel n's fields, each with its index; none at or above the drive count (R184, R185). -/
def ConfigRecord.channelChecks (c : ConfigRecord) (n : Channel) : List (Nat × Bool) :=
  let k := c.chan.get n
  if n.val < c.driveCount then
    [ (4 + 5 * n.val, within 1 16777215 k.pulse),
      (5 + 5 * n.val, within 50 1000 k.share && (n.val + 1 != c.driveCount || c.shareSum = 1000)),
      (6 + 5 * n.val, within 1 65535 k.expected),
      (7 + 5 * n.val, within 100 50000 k.f0),
      (8 + 5 * n.val, within (k.f0 + 100) 65535 k.f100) ]
  else []

/-- The checks of a configuration record, each with its field index, in index order (R185). Index 2 looks at the byte
itself: 0xFF is NONE, and 16 to 254 name no station. -/
def configChecks (own : Station) (p : List Byte) : List (Nat × Bool) :=
  let c := ConfigRecord.ofBytes p
  [ (1, within 0 3 c.periodCode),
    (2, nth p 1 = 0xFF || (nth p 1).toNat < own.val),
    (3, within 1 4 c.driveCount) ]
  ++ c.channelChecks 0 ++ c.channelChecks 1 ++ c.channelChecks 2 ++ c.channelChecks 3
  ++ [ (24, within 0 15 c.fastWidth),
       (25, within 1 255 c.slowTime),
       (26, within 100 5000 c.stallTime),
       (27, within 1 300000 c.minSpeed),
       (28, within 0 4000 c.minLoad),
       (29, within 1 1000 c.slipTolerance),
       (30, within 1 1000 c.shareTolerance),
       (31, withinInt (-3000) 3000 c.softLow),
       (32, withinInt (-3000) 3000 c.softHigh && c.softLow < c.softHigh),
       (33, withinInt (-3000) 3000 c.hardLow && c.hardLow ≤ c.softLow),
       (34, withinInt (-3000) 3000 c.hardHigh && c.softHigh ≤ c.hardHigh),
       (35, within 1 1000 c.trimLimit),
       (36, within 1 200 c.shareTrimLimit),
       (37, within 1 1000 c.rampNormal),
       (38, within 1 1000 c.rampTrial),
       (39, within 1 1000 c.rampRecovery),
       (40, (nth p 77).toNat ≤ 1) ]

/-- The index of the first field that fails, if any (R184). -/
def configFailure (own : Station) (p : List Byte) : Option Nat :=
  ((configChecks own p).find? fun k => !k.2).map (·.1)

/-- Every field at zero: what a node without a record reads for the values that belong to the configuration (R178). -/
def ConfigRecord.zero : ConfigRecord :=
  { periodCode := 0, upstream := none, driveCount := 0, chan := .all ⟨0, 0, 0, 0, 0⟩, fastWidth := 0, slowTime := 0,
    stallTime := 0, minSpeed := 0, minLoad := 0, slipTolerance := 0, shareTolerance := 0, softLow := 0, softHigh := 0,
    hardLow := 0, hardHigh := 0, trimLimit := 0, shareTrimLimit := 0, rampNormal := 0, rampTrial := 0, rampRecovery := 0,
    separateRamps := false }

end Sys2Proof.Machine
end

