-- ==== Sys2Proof/Machine/Ops.lean ====
section
/-! DEFINITION. The named operations over the state that several commands share: time, the roster, the line's release,
places in the round, attempts whose window has closed, the channel states, the check's end, the trim selection, the log, answers to requests. -/

namespace Sys2Proof.Machine

/-! ### The configuration -/

/-- The configuration record, or zeros when none is held. -/
def State.cfg (s : State) : ConfigRecord := s.config.getD ConfigRecord.zero

/-- The channel is sensed: it is not DISABLED (R72, R83). -/
def State.sensed (s : State) (n : Channel) : Bool := s.chans.get n != .disabled

/-! ### The looks of the fast filters (R72 to R74) -/

/-- The raw level has differed at every look for `w` µs after the first that saw it: the change is taken (R73). A change
that is taken waits for the command of its edge (log 33). -/
def FastFilter.taken (f : FastFilter) (w : Nat) : Bool := !f.held && w < f.differs

/-- One look of a fast filter of width `w` at the raw level: a level that differs is counted, up to the look that takes
the change, and one that does not differ discards the excursion (R73); a line held since CONFIGURE waits to be seen low
(R74). -/
def FastFilter.look (f : FastFilter) (w : Nat) (raw : Bool) : FastFilter :=
  if f.taken w then f
  else if f.held then { f with held := raw, differs := 0 }
  else { f with differs := if raw = f.level then 0 else f.differs + 1 }

/-- `k` looks in a row at the same raw level: `look` taken `k` times. -/
def FastFilter.looks (f : FastFilter) (w k : Nat) (raw : Bool) : FastFilter :=
  if k = 0 || f.taken w then f
  else
    let g := f.look w raw
    if g.held || raw = g.level then g else { g with differs := min (g.differs + (k - 1)) (w + 1) }

/-- A fast filter through a wait, by the raw level of its line in each span. -/
def FastFilter.through (f : FastFilter) (w : Nat) (l : FastLine) (n : Channel) (d : Wait) : FastFilter :=
  d.foldl (fun f p => f.looks w p.micros ((p.raw.line l).getLsbD n.val)) f

/-- The fast filter of a line. -/
def State.fastFilter (s : State) (l : FastLine) (n : Channel) : FastFilter :=
  match l with
  | .spd => s.inputs.spd.get n
  | .ldf => s.inputs.ldf.get n
  | .idx => s.inputs.idx.get n

/-- The fast filters of one kind of line through a wait: those of the sensed channels look at their lines once per
microsecond (R72). -/
def State.filtersThrough (s : State) (l : FastLine) (d : Wait) : Quad FastFilter :=
  Quad.ofFn fun n =>
    if s.sensed n then (s.fastFilter l n).through s.cfg.fastWidth l n d else s.fastFilter l n

/-! ### Time -/

/-- Time passes on the 1 µs time base, every fast filter looks at its line at each microsecond, and a transaction under way
counts the falling edges of SCK, which are ignored outside one (00, Time; R72, R171; log 1). -/
def State.elapse (s : State) (d : Wait) : State :=
  { s with
    now := s.now + d.micros
    pins := { s.pins with
      spd := d.level .spd s.pins.spd, ldf := d.level .ldf s.pins.ldf, idx := d.level .idx s.pins.idx
      sckFalls := if s.port.txn = .none then s.pins.sckFalls else s.pins.sckFalls + d.falls }
    inputs := { s.inputs with
      spd := s.filtersThrough .spd d, ldf := s.filtersThrough .ldf d, idx := s.filtersThrough .idx d } }

/-- An effect that only a running node has: one without supply, or held in reset, takes none (R188, R189). -/
def State.live (s : State) (f : State → State) : State := if s.running then f s else s

/-- The round period P (R7). -/
def State.period (s : State) : Nat := Config.period s.cfg.periodCode

/-- The round timer's reading: the time since the last boundary (R6). -/
def State.roundTime (s : State) : Nat := s.now - s.round.start

/-! ### Link states -/

/-- ACTIVE or LEAVING: the states that drive the line and take the mark window (R1, R7). -/
def LinkState.onLink : LinkState → Bool
  | .active => true
  | .leaving => true
  | .unconfigured => false
  | .standby => false
  | .listening => false

/-- LISTENING, ACTIVE or LEAVING: the states in which the receiver is enabled (R3). -/
def LinkState.receives : LinkState → Bool
  | .listening => true
  | .active => true
  | .leaving => true
  | .unconfigured => false
  | .standby => false

/-! ### Roster (02) -/

/-- The roster entry of a station. -/
def State.entry (s : State) (t : Station) : Entry := s.roster.getD t.val Entry.cleared

/-- The roster with one station's entry replaced. -/
def State.setEntry (s : State) (t : Station) (e : Entry) : State := { s with roster := s.roster.set t.val e }

/-- Some other station's entry is not ABSENT. -/
def State.hearsOthers (s : State) : Bool :=
  stations.any fun t => t != s.station && (s.entry t).presence != .absent

/-- The whole roster is cleared; PEER_CHANGE when another station's entry was PRESENT or SILENT (R40). -/
def State.clearRoster (s : State) : State :=
  ({ s with roster := List.replicate 16 Entry.cleared } : State).raiseIf s.hearsOthers .peerChange

/-! ### Line (01) -/

/-- The transmitter is released and the receiver returns to idle with nothing under way; the link error flags stand
(R1, R3, R21). -/
def LineInterface.off (l : LineInterface) : LineInterface :=
  { l with rx := none, rxNext := none, rxSampled := none, attempt := none, overrun := none, tx := .released }

/-- The node enters STANDBY from a state on the link or LISTENING: the line is released, the receiver is disabled, no
window is open, the round under way is not observed, and the roster is cleared (R1, R3, R8, R10, R40). The lost-round flag
of the round under way stands until the next boundary (log 38). -/
def State.enterStandby (s : State) : State :=
  State.clearRoster
    { s with
      link := { s.link with state := .standby, listenCount := 0, joinCount := 0, leave := .idle }
      line := s.line.off
      round := { s.round with windowOpen := false, synced := false, ownSlot := .unobserved } }

/-! ### Places in the round (R3, R7, R17) -/

/-- The round under way, as it places characters (R3). -/
def State.roundFrame (s : State) : RoundFrame :=
  { start := s.round.start, state := s.link.state, synced := s.round.synced, lost := s.round.lost }

/-- A start edge falls in the round under way, and not in the one that the last boundary closed (R3). -/
def State.inThisRound (s : State) (edge : Nat) : Bool := s.round.start ≤ edge

/-- The round that a start edge falls in: the one under way, or the one that the last boundary closed (R3; log 39). -/
def State.roundOf (s : State) (edge : Nat) : RoundFrame := if s.inThisRound edge then s.roundFrame else s.round.before

/-- The time of a start edge, measured from the boundary that opened its round (R3). -/
def State.offset (s : State) (edge : Nat) : Nat := edge - (s.roundOf edge).start

/-- A start edge falls inside the mark window of its round (R3, R7, R11). -/
def State.inWindow (s : State) (edge : Nat) : Bool :=
  s.link.state.onLink && (s.roundOf edge).state.onLink && s.period ≤ s.offset edge + Config.windowLead

/-- Slot s opens this long after the boundary (R17). -/
def slotOpens (k : Nat) : Nat := Config.slotLead + Config.slotLength * k

/-- The slot window of its round that a start edge falls inside, if any (R3, R17). -/
def State.slotOf (s : State) (edge : Nat) : Option Station :=
  stations.find? fun t => slotOpens t.val ≤ s.offset edge && s.offset edge < slotOpens (t.val + 1)

/-! ### Attempts whose window has closed (R17) -/

/-- The start edges of the received characters under way: all while nothing is sent, and else the one whose stop bit was
sampled before the node began to send (R3; log 11). -/
def LineInterface.begun (l : LineInterface) : List Nat :=
  l.rxSampled.toList ++ if l.tx = .released then l.rx.toList ++ l.rxNext.toList else []

/-- Those of them that fall inside a slot window of this round. -/
def State.startsIn (s : State) (k : Station) : List Nat :=
  s.line.begun.filter fun st => s.inThisRound st && s.slotOf st = some k

/-- At the very instant at which a window closes, the receiver can still detect a start edge of the microsecond before,
which lies inside the window: no character is under way, or the one under way has had its stop bit sampled and none follows
it (R3, R17). -/
def State.startOpen (s : State) (k : Station) : Bool :=
  s.line.tx = .released && s.roundTime = slotOpens (k.val + 1)
    && match s.line.rx with
       | none => true
       | some st => s.line.rxNext = none && st + Config.stopSample < s.now

/-- An attempt whose window has closed can still hold fifteen characters: the missing ones began inside the window, and are
under way or may be detected at this very instant (R3, R17; log 14). -/
def State.awaitsLast (s : State) (a : Attempt) : Bool :=
  Config.frameLength ≤ a.bytes.length + (s.startsIn a.slot).length + (if s.startOpen a.slot then 1 else 0)

/-- An attempt whose window has closed with fewer than fifteen characters is discarded and sets SHORT; what of its train
began before the close belongs to it (R16, R17; log 14). -/
def State.cutAttempt (s : State) (a : Attempt) : State :=
  State.linkErrorIf
    { s with line := { s.line with
        attempt := none
        overrun := some { slot := a.slot, lastEnd := max a.lastEnd (s.round.start + slotOpens (a.slot.val + 1) - 1) } } }
    (!s.round.lost) .short

/-- An attempt that outlived its window for a character that began in it, and is not to get it, is discarded (R17). The
closing of a window, a detected start, an early mark, the own slot and all time that passes each settle it. -/
def State.settleAttempt (s : State) : State :=
  match s.line.attempt with
  | none => s
  | some a => if a.slot.val < s.round.slotsClosed && !s.awaitsLast a then s.cutAttempt a else s

/-! ### Commands -/

/-- Time passes up to the arrival of a command; an attempt that no character can complete at that instant is discarded
(log 1, log 14). -/
def State.advance (s : State) (d : Wait) : State := (s.elapse d).settleAttempt

/-- What a command does: time passes up to its arrival, then it has its effect. -/
def command (after : Wait) (f : State → State) (s : State) : Host.Outcome State Fault Refusal :=
  .next (f (s.advance after))

/-! ### Channels (04) -/

/-- The channel is READY. -/
def State.ready (s : State) (n : Channel) : Bool := s.chans.get n = .ready

/-- The channel is FAULTED. -/
def State.isFaulted (s : State) (n : Channel) : Bool :=
  match s.chans.get n with
  | .faulted _ => true
  | .disabled => false
  | .offline => false
  | .ready => false

/-- Some channel is FAULTED. -/
def State.anyFaulted (s : State) : Bool := channels.any s.isFaulted

/-- The READY channels as a set. -/
def State.readySet (s : State) : ChannelSet := channelSet s.ready

/-- The number of READY channels. -/
def State.readyCount (s : State) : Nat := (channels.filter s.ready).length

/-- A channel's state is replaced. -/
def State.setChannel (s : State) (n : Channel) (c : ChannelState) : State := { s with chans := s.chans.set n c }

/-! ### The revolution check's end (06) -/

/-- The index timer's reading in µs (R113). -/
def State.indexReading (s : State) : Nat :=
  match s.check.timer with
  | .stopped r => r
  | .running since => s.now - since

/-- A check is under way: ARMED or COUNTING. -/
def State.checkUnderWay (s : State) : Bool := s.check.state = .armed || s.check.state = .counting

/-- The check enters DONE with a verdict: its timer stops, and REV_CHECK_DONE is raised (R115). -/
def State.endCheck (s : State) (v : Verdict) : State :=
  State.raise
    { s with check := { s.check with state := .done, verdict := v, timer := .stopped s.indexReading } }
    .revCheckDone

/-- The channel leaves READY: a check under way on it ends INCOMPLETE with cause CHANNEL (R112). -/
def State.leaveReady (s : State) (n : Channel) : State :=
  if s.checkUnderWay && s.check.channel = n then s.endCheck (.incomplete .channel) else s

/-- The channel is latched FAULTED with a cause: CHANNEL_FAULT is raised, and a check on it ends (R85, R86, R112). -/
def State.latchFault (s : State) (n : Channel) (c : FaultCause) : State :=
  ((s.setChannel n (.faulted c)).raise .channelFault).leaveReady n

/-! ### Break and trim selection (08, 09) -/

/-- The break is in force: the latch or the mark is set (R150). -/
def State.breakInForce (s : State) : Bool := s.brk.latch || s.brk.mark

/-- The section trim target is chosen afresh from its three sources (R130, R150). -/
def State.reselect (s : State) : State :=
  { s with trim := { s.trim with
      target := if s.breakInForce then 0 else s.trim.trialTarget.getD s.trim.manual } }

/-- The manual trim target is set (R131). -/
def State.setManual (s : State) (v : Int) : State :=
  State.reselect { s with trim := { s.trim with manual := v } }

/-- The ramp class is set (R134). -/
def State.setClass (s : State) (c : RampClass) : State := { s with trim := { s.trim with cls := c } }

/-- A presentation of the Trial Controller: the section target, where 0 is presented as NONE, the share shift target,
the shift drive where one is given, and the class; RECOVERY stands while the break latch is set (R133, R134; log 28). -/
def State.present (s : State) (section_ shift : Int) (drive : Option Channel) (c : RampClass) : State :=
  State.reselect
    { s with trim := { s.trim with
        trialTarget := if section_ = 0 then none else some section_
        shiftTarget := shift
        drive := drive.getD s.trim.drive
        cls := if s.brk.latch then .recovery else c } }

/-! ### Log (10) -/

/-- The free records of the log. -/
def State.freeRecords (s : State) : Nat := Config.logCapacity - s.log.records.length

/-- A record is appended at the tail under the counter's number (R159). A full log takes none, which R163 and R162 keep
from arising but for the CLOSE record that is left out for want of room (log 34). -/
def State.appendRecord (s : State) (t : RecordType) (id : TrialId) (m : Sample) (o : TrialOutcome) (cause : Byte)
    (origin : Station) : State :=
  if s.log.records.length < Config.logCapacity then
    { s with log := { s.log with
        records := s.log.records ++ [{ seq := s.log.counter, type := t, id := id, sample := m, outcome := o, cause := cause, origin := origin }]
        counter := s.log.counter + 1 } }
  else s

/-- A CLOSE record with the boundary's sample; LOG_CLOSED when it was appended (R162). -/
def State.appendClose (s : State) (id : TrialId) (o : TrialOutcome) (cause : Byte) (origin : Station) : State :=
  (s.appendRecord .close id s.log.last o cause origin).raiseIf
    (s.log.records.length < Config.logCapacity) .logClosed

/-! ### Outcomes (03) -/

/-- The last-outcome record is written and TRIAL_END raised (R69, R70). -/
def State.writeOutcome (s : State) (o : TrialOutcome) (id : TrialId) (code : Byte) (st : Station) : State :=
  State.raise { s with lastOutcome := { outcome := o, id := id, code := code, station := st } } .trialEnd

/-- The trial record meets the requirement IDLE: local phase IDLE and pending request NONE (R46). -/
def State.trialIdle (s : State) : Bool := s.trial.phase = .idle && s.trial.request = .none

/-- The own station lies in the tracked trial's span: the node is a member (03, The trial record). -/
def State.isMember (s : State) : Bool := s.trial.params.inSpan s.station

/-! ### Answers (R173, R175) -/

/-- An OK answer with its body. -/
def Response.ok (body : List Byte) : Response := { status := .ok, body := body, readLog := false }

/-- A REFUSED answer with its reason. -/
def Response.refused (r : Reason) : Response := { status := .refused, body := [r.code], readLog := false }

/-- A response's bytes: the status, then the body (R172). -/
def Response.bytes (r : Response) : List Byte := r.status.code :: r.body

/-- The request has executed: its answer becomes the pending response and SRDY returns high (R173). -/
def State.answer (s : State) (r : Response) : State :=
  { s with port := { s.port with srdy := true, request := [], response := some r } }

/-- A request is in execution and its first byte is this code. -/
def State.executing (s : State) (c : Byte) : Bool := s.running && !s.port.srdy && s.port.request.head? = some c

/-- The execution of a request: the checks of R175 in their order, then the request's own work, which gives the state
and the answer. A command for a request that is not the one in execution is no event (log 5). -/
def execution (q : Request) (work : List Byte → State → State × Response) (s : State) : State :=
  if s.executing q.code then
    let params := s.port.request.drop 1
    if params.length < q.paramLength then s.answer { status := .badLength, body := [], readLog := false }
    else if !q.availableIn s.link.state then
      s.answer { status := .notAvailable, body := [s.link.state.code], readLog := false }
    else
      let done := work params s
      done.1.answer done.2
  else s

end Sys2Proof.Machine
end

