-- ==== Sys2Proof/Machine/Roster.lean ====
section
/-! DEFINITION. The roster and the link state at the events that touch them: a report delivered, the own frame, the
ageing and the counts of a boundary. -/

namespace Sys2Proof.Machine

/-- A roster entry aged at a boundary (R38, R34). The round number of an entry that ages out becomes 0 (log 40). -/
def Entry.aged (e : Entry) : Entry :=
  if e.presence = .absent then e
  else if e.heard then { e with heard := false }
  else if e.presence = .present && e.miss + 1 = 3 then { e with presence := .silent, miss := 3 }
  else if e.presence = .silent && e.miss + 1 = 16 then { Entry.cleared with miss := 16 }
  else { e with miss := e.miss + 1 }

/-- The roster as a boundary's ageing leaves it: every entry but the own one (R38, R39). -/
def State.agedRoster (s : State) : List Entry :=
  stations.map fun t => if t = s.station then s.entry t else (s.entry t).aged

/-- An entry changes its presence state at this boundary's ageing. -/
def State.agesOut (s : State) (t : Station) : Bool :=
  t != s.station && (s.entry t).aged.presence != (s.entry t).presence

/-- The ageing of a boundary; PEER_CHANGE when an entry changes its presence state (R38, R41). -/
def State.ageRoster (s : State) : State :=
  ({ s with roster := s.agedRoster } : State).raiseIf (stations.any s.agesOut) .peerChange

/-- A good report from another station reaches its entry: stored, or clearing the entry when it carries the LEAVING
flag (R36, R37, R41). -/
def State.storeReport (s : State) (t : Station) (r : Report) : State :=
  let old := (s.entry t).presence
  if r.leaving then (s.setEntry t .cleared).raiseIf (old != .absent) .peerChange
  else
    (s.setEntry t { presence := .present, miss := 0, heard := true, lastRound := s.round.number, report := r }).raiseIf
      (old != .present) .peerChange

/-- A valid frame in another station's slot is delivered; one that is no good report stores nothing (R35). -/
def State.deliver (s : State) (t : Station) (frame : List Byte) : State :=
  match Report.ofFrame frame with
  | some r => s.storeReport t r
  | none => s

/-- The own entry is written with a report and the round number in force (R26, R39). -/
def State.writeOwnEntry (s : State) (r : Report) : State :=
  s.setEntry s.station { presence := .present, miss := 0, heard := false, lastRound := s.round.number, report := r }

/-- The own frame has completed with no readback mismatch: the own entry is written, an owed LEAVING report is sent
(R28), and one owed ABORT report fewer is owed when the frame carried one (R65, R66). -/
def State.ownFrameDone (s : State) (r : Report) : State :=
  let s := s.writeOwnEntry r
  let s : State := if r.leaving then { s with link := { s.link with leave := .sent } } else s
  if r.phase = .abort then { s with trial := { s.trial with abortsOwed := s.trial.abortsOwed - 1 } } else s

/-- The listen and join counts at a LISTENING boundary (R25). -/
def Link.counted (l : Link) (k : BoundaryKind) (o : SlotObservation) : Link :=
  match k with
  | .localTimed => { l with listenCount := l.listenCount + 1, joinCount := 0 }
  | .adopted => { l with listenCount := 0, joinCount := if o = .silent then l.joinCount + 1 else 0 }
  | .originated => l
  | .lost => l

/-- Whether a count has reached 3 (R26). -/
def Link.qualified (l : Link) : Bool := l.listenCount = 3 || l.joinCount = 3

/-- The link state machine at a boundary taken in LISTENING: the counts, and the entry to ACTIVE, whose own entry
waits for the report built later at this boundary (R25, R26). -/
def State.countBoundary (s : State) (k : BoundaryKind) (o : SlotObservation) : State :=
  let l := s.link.counted k o
  if l.qualified then
    State.raise { s with link := { l with state := .active, listenCount := 0, joinCount := 0 } } .joined
  else { s with link := l }

/-- The leave is complete: STANDBY, LEFT, the line released and the roster cleared (R28, R40). -/
def State.completeLeave (s : State) : State := s.enterStandby.raise .left

end Sys2Proof.Machine
end

