-- ==== Sys2Proof/Machine/Measure.lean ====
section
/-! DEFINITION. The Section Measurement Unit's work at a boundary (05). -/

namespace Sys2Proof.Machine

/-! ### Channel speed and load (R89 to R92) -/

/-- The quotient of a speed formula, clamped (R90). -/
def speedOf (product divisor : Int) : Int := clamp (-300000) 300000 (truncDiv product divisor)

/-- The speed method and channel speed of a round of length `T` (R90). -/
def Counters.speed (c : Counters) (pulse T : Nat) : SpeedMethod × Int :=
  if 16 ≤ c.net.natAbs then (.count, speedOf (60 * c.net * pulse) T)
  else
    match c.history with
    | .two older newer forward =>
      (.period, speedOf (if forward then 60 * pulse else -(60 * pulse)) (newer - older : Nat))
    | .one _ _ => (.start, 0)
    | .empty => (.stalled, 0)

/-- The load frequency of a round of length `T`, in whole hertz (R92). -/
def loadFrequency (loads T : Nat) : Int := truncDiv (loads * 1000000) T

/-- The channel load of a load frequency (R92). -/
def loadOf (k : ChannelConfig) (F : Int) : Int :=
  clamp (-1000) 4000 (truncDiv ((F - k.f0) * 1000) ((k.f100 : Int) - k.f0))

/-- A channel's values at a boundary, its slip count kept; none for a DISABLED channel (R89). -/
def State.channelValues (s : State) (T : Nat) (n : Channel) : ChannelValues :=
  let slip := (s.meas.chan.get n).slip
  if s.sensed n then
    let c := s.counters.get n
    let k := s.cfg.chan.get n
    let v := c.speed k.pulse T
    { method := v.1, speed := some v.2, load := some (loadOf k (loadFrequency c.loads T)), share := none,
      deviation := none, slip := slip }
  else { ChannelValues.reset with slip := slip }

/-- The hand-over: every channel's speed and load of the closing round, and counts restarted (R81, R89). -/
def State.handOver (s : State) (T : Nat) : State :=
  { s with
    meas := { s.meas with chan := Quad.ofFn (s.channelValues T) }
    counters := Quad.ofFn fun n => { s.counters.get n with net := 0, loads := 0 } }

/-- A channel's speed, 0 when absent. -/
def State.channelSpeed (s : State) (n : Channel) : Int := (s.meas.chan.get n).speed.getD 0

/-- A channel's load, 0 when absent. -/
def State.channelLoad (s : State) (n : Channel) : Int := (s.meas.chan.get n).load.getD 0

/-- The mean speed of the READY channels, when there are any (R93, R97). -/
def State.meanSpeed (s : State) : Option Int :=
  if s.readyCount = 0 then none
  else some (truncDiv (sumInt ((channels.filter s.ready).map s.channelSpeed)) s.readyCount)

/-! ### Reversal and slip (R93 to R96) -/

/-- A channel is found reversed against the reference (R94). -/
def State.isReversed (s : State) (ref : Int) (n : Channel) : Bool :=
  s.ready n && s.cfg.minSpeed < (s.channelSpeed n).natAbs && s.cfg.minSpeed < ref.natAbs
    && (decide (s.channelSpeed n < 0) != decide (ref < 0))

/-- A channel departs from the reference by more than the slip tolerance (R95). -/
def State.isSlipping (s : State) (ref : Int) (n : Channel) : Bool :=
  (s.cfg.slipTolerance : Int) < truncDiv ((s.channelSpeed n - ref).natAbs * 1000) ref.natAbs

/-- The slip count that the checks give a channel, before a latching returns it to 0 (R95). -/
def State.slipStep (s : State) (ref : Option Int) (n : Channel) : Nat :=
  match ref with
  | none => 0
  | some r =>
    if s.ready n && s.cfg.minSpeed ≤ r.natAbs && !s.isReversed r n && s.isSlipping r n then
      (s.meas.chan.get n).slip + 1
    else 0

/-- What the checks find against a channel at this boundary (R94, R95). -/
def State.finding (s : State) (ref : Option Int) (n : Channel) : Option FaultCause :=
  if ref.any fun r => s.isReversed r n then some .reversed
  else if s.slipStep ref n = 3 then some .slip
  else none

/-- A channel's slip count is set. -/
def State.setSlip (s : State) (n : Channel) (k : Nat) : State :=
  { s with meas := { s.meas with chan := s.meas.chan.set n { s.meas.chan.get n with slip := k } } }

/-- The first pass: every channel's slip count, and the latchings, all judged on the channels as the boundary finds
them (R89, R93 to R96). -/
def State.judgeChannels (s : State) : State :=
  let ref := s.meanSpeed
  channels.foldl
    (fun t n =>
      match s.finding ref n with
      | some cause => (t.setSlip n 0).latchFault n cause
      | none => t.setSlip n (s.slipStep ref n))
    s

/-! ### Section values and shares (R97 to R100) -/

/-- The sum of load times share target over the READY channels (R97, R99). -/
def State.weightedLoad (s : State) : Int :=
  sumInt ((channels.filter s.ready).map fun n => s.channelLoad n * (s.cfg.chan.get n).share)

/-- The section load (R97). -/
def State.sectionLoad (s : State) : Option Int :=
  if s.readyCount = 0 then none else some (truncDiv s.weightedLoad 1000)

/-- The sum of the READY channels' share targets (R98). -/
def State.readyShares (s : State) : Nat :=
  ((channels.filter s.ready).map fun n => (s.cfg.chan.get n).share).foldr (· + ·) 0

/-- A READY channel's target among ready (R98). -/
def State.targetAmongReady (s : State) (n : Channel) : Int :=
  truncDiv ((s.cfg.chan.get n).share * 1000) s.readyShares

/-- A READY channel's actual share (R99). -/
def State.actualShare (s : State) (n : Channel) : Int :=
  clamp (-2000) 2000 (truncDiv (s.channelLoad n * (s.cfg.chan.get n).share * 1000) s.weightedLoad)

/-- Shares are computed at this boundary (R99). -/
def State.sharesDue (s : State) : Bool :=
  match s.sectionLoad with
  | none => false
  | some l => (s.cfg.minLoad : Int) ≤ l && 0 < s.weightedLoad

/-- The second pass: section speed and load, shares and deviations, over the channels READY as the latchings left them
(R89, R97 to R99). -/
def State.sectionValues (s : State) : State :=
  { s with meas := { s.meas with
      speed := s.meanSpeed
      load := s.sectionLoad
      sharesComputed := s.sharesDue
      chan := Quad.ofFn fun n =>
        let v := s.meas.chan.get n
        if s.sharesDue && s.ready n then
          { v with share := some (s.actualShare n), deviation := some (s.actualShare n - s.targetAmongReady n) }
        else { v with share := none, deviation := none } } }

/-- A READY channel's deviation lies outside the share tolerance (R100). -/
def State.shareOutside (s : State) : Bool :=
  channels.any fun n =>
    match (s.meas.chan.get n).deviation with
    | some d => s.cfg.shareTolerance < d.natAbs
    | none => false

/-- An alarm with its runs after a boundary that is outside or inside; `limit` boundaries in a row change it
(R100, R123). The answer is the alarm, the outside run and the inside run. -/
def alarmStep (limit : Nat) (alarm : Bool) (outRun inRun : Nat) (outside : Bool) : Bool × Nat × Nat :=
  if alarm then
    if outside then (true, 0, 0)
    else if inRun + 1 = limit then (false, 0, 0)
    else (true, 0, inRun + 1)
  else
    if !outside then (false, 0, 0)
    else if outRun + 1 = limit then (true, 0, 0)
    else (false, outRun + 1, 0)

/-- The share alarm's step, at a boundary at which shares are computed; SHARE_ALARM when it is set (R100, R101). -/
def State.judgeShares (s : State) : State :=
  if s.meas.sharesComputed then
    let a := alarmStep 4 s.meas.alarm s.meas.outRun s.meas.inRun s.shareOutside
    ({ s with meas := { s.meas with alarm := a.1, outRun := a.2.1, inRun := a.2.2 } } : State).raiseIf
      (a.1 && !s.meas.alarm) .shareAlarm
  else s

/-- The Section Measurement Unit at a boundary that closes a round of `T` µs (R89). -/
def State.measure (s : State) (T : Nat) : State :=
  (((s.handOver T).judgeChannels).sectionValues).judgeShares

end Sys2Proof.Machine
end

