-- ==== Sys2Proof/Machine/DrawMonitor.lean ====
section
/-! DEFINITION. The Draw Monitor's work at a boundary (07). -/

namespace Sys2Proof.Machine

/-- A reported section speed is the invalid code or lies outside the range of a section speed (R119). -/
def speedUnusable (w : BitVec 24) : Bool :=
  w = invalidSpeed || !withinInt (-300000) 300000 w.toInt

/-- Why the draw of a boundary is UNDEFINED, in the order of the table, or its two speeds, own and upstream (R119). -/
def State.drawInputs (s : State) : UndefinedReason ⊕ (Int × Int) :=
  match s.cfg.upstream with
  | none => .inl .noUpstream
  | some u =>
    let e := s.entry u
    if e.presence != .present then .inl .upstreamNotPresent
    else
      match s.meas.speed with
      | none => .inl .ownInvalid
      | some own =>
        if speedUnusable e.report.speed then .inl .upstreamInvalid
        else if e.report.speed.toInt.natAbs < s.cfg.minSpeed then .inl .upstreamSlow
        else .inr (own, e.report.speed.toInt)

/-- The draw of two speeds, in 0.01 % (R120). -/
def drawOf (own up : Int) : Int := clamp (-3000) 3000 (truncDiv ((own - up) * 10000) up)

/-- Where a draw stands against the soft window (R122). -/
def ConfigRecord.softPosition (c : ConfigRecord) (x : Int) : SoftPosition :=
  if x < c.softLow then .low else if c.softHigh < x then .high else .inside

/-- A draw lies outside the hard window (R125). -/
def ConfigRecord.outsideHard (c : ConfigRecord) (x : Int) : Bool := x < c.hardLow || c.hardHigh < x

/-- The upstream speed and miss count that a boundary takes; the invalid code for an ABSENT entry, and the invalid code and
0 without an upstream station (R119). -/
def State.upstreamSeen (s : State) : BitVec 24 × Nat :=
  match s.cfg.upstream with
  | none => (invalidSpeed, 0)
  | some u => (if (s.entry u).presence = .absent then invalidSpeed else (s.entry u).report.speed, (s.entry u).miss)

/-- The draw of a boundary, with the alarm's step when it is DEFINED; DRAW_ALARM when the alarm is set (R118 to R125). -/
def State.measureDraw (s : State) : State :=
  let seen := s.upstreamSeen
  match s.drawInputs with
  | .inl reason =>
    { s with draw := { s.draw with
        value := 0, state := .undefined reason, hard := false, upSpeed := seen.1, upMiss := seen.2 } }
  | .inr (own, up) =>
    let x := drawOf own up
    let p := s.cfg.softPosition x
    let a := alarmStep 2 s.draw.alarm s.draw.outRun s.draw.inRun (p != .inside)
    ({ s with draw :=
        { value := x, state := .defined, position := p, hard := s.cfg.outsideHard x, alarm := a.1, outRun := a.2.1,
          inRun := a.2.2, upSpeed := seen.1, upMiss := seen.2 } } : State).raiseIf
      (a.1 && !s.draw.alarm) .drawAlarm

/-- The draw is UNDEFINED. -/
def State.drawUndefined (s : State) : Bool :=
  match s.draw.state with
  | .defined => false
  | .undefined _ => true

end Sys2Proof.Machine
end

