-- ==== Sys2Proof/Machine/LogOps.lean ====
section
/-! DEFINITION. The Response Log: samples and the ring, the records a boundary appends, and the log's requests (10). -/

namespace Sys2Proof.Machine

/-! ### Samples and the ring (R157, R158) -/

/-- The sample of the closing round, given its number and whether it was lost; taken before this boundary's ramp
(R157). -/
def State.sampleOf (s : State) (number : BitVec 8) (lost : Bool) : Sample :=
  { round := number
    speed := s.meas.speed
    load := s.meas.load
    loads := Quad.ofFn fun n => (s.meas.chan.get n).load
    ready := s.readySet
    draw := s.draw.value
    drawUndefined := s.drawUndefined
    trim := s.trim.applied
    brk := s.breakInForce
    alarm := s.draw.alarm || s.meas.alarm
    lost := lost }

/-- A sample joins the ring; a full ring loses its oldest (R158). -/
def ringPush (ring : List Sample) (m : Sample) : List Sample :=
  if ring.length < Config.ringCapacity then ring ++ [m] else ring.drop 1 ++ [m]

/-- The sample of a boundary becomes the last sample and joins the ring (R157, R158). -/
def State.takeSample (s : State) (number : BitVec 8) (lost : Bool) : State :=
  let m := s.sampleOf number lost
  { s with log := { s.log with last := m, ring := ringPush s.log.ring m } }

/-- The ring is moved into the log as PRE records, oldest first, and emptied (R160). -/
def State.moveRing (s : State) (id : TrialId) : State :=
  let t := s.log.ring.foldl (fun t m => t.appendRecord .pre id m .none 0 0) s
  { t with log := { t.log with ring := [] } }

/-- A RUN record with the boundary's sample (R161). -/
def State.appendRun (s : State) (id : TrialId) : State := s.appendRecord .run id s.log.last .none 0 0

/-! ### SNAP, FLUSH_LOG, READ_LOG (R164 to R166) -/

/-- SNAP's checks and effect. -/
def snapWork (_ : List Byte) (s : State) : State × Response :=
  if !s.trialIdle then (s, .refused .busy)
  else if Config.logCapacity ≤ s.log.records.length then (s, .refused .logSpace)
  else (s.appendRecord .snap .zero s.log.last .none 0 0, .ok (bytes16 s.log.counter))

/-- SNAP (R164). -/
def execSnap (after : Wait) (s : State) : Host.Outcome State Fault Refusal :=
  command after (execution .snap snapWork) s

/-- FLUSH_LOG's check and effect. -/
def flushLogWork (_ : List Byte) (s : State) : State × Response :=
  if !s.trialIdle then (s, .refused .busy)
  else
    ({ s with log := { s.log with records := [], removal := false } }, .ok (unsigned16 s.log.records.length))

/-- FLUSH_LOG (R165). -/
def execFlushLog (after : Wait) (s : State) : Host.Outcome State Fault Refusal :=
  command after (execution .flushLog flushLogWork) s

/-- READ_LOG's effect. Its response is marked as the one whose read-out removes the head (R166, R167). On an empty log the
read latch is emptied (log 43). -/
def readLogWork (_ : List Byte) (s : State) : State × Response :=
  match s.log.records with
  | r :: _ =>
    ({ s with log := { s.log with latch := some r, removal := true } }, { status := .ok, body := r.bytes, readLog := true })
  | [] =>
    ({ s with log := { s.log with latch := none, removal := false } },
      { status := .ok, body := noneRecordBytes s.log.counter, readLog := true })

/-- READ_LOG (R166). -/
def execReadLog (after : Wait) (s : State) : Host.Outcome State Fault Refusal :=
  command after (execution .readLog readLogWork) s

end Sys2Proof.Machine
end

