-- ==== Sys2Proof/Machine/Trims.lean ====
section
/-! DEFINITION. The Trim Generator at a boundary, and the pulse-width outputs (08). -/

namespace Sys2Proof.Machine

/-! ### Ramps (R134 to R137) -/

/-- The ramp class in force: RECOVERY while the break latch is set (R134, R154; log 28). -/
def State.classInForce (s : State) : RampClass := if s.brk.latch then .recovery else s.trim.cls

/-- The ramp limit of a class (R135). -/
def ConfigRecord.rampLimit (c : ConfigRecord) (k : RampClass) : Nat :=
  if c.separateRamps then
    match k with
    | .normal => c.rampNormal
    | .trial => c.rampTrial
    | .recovery => c.rampRecovery
  else c.rampNormal

/-- A value moved toward its target by at most a limit (R136). -/
def rampToward (limit : Nat) (target applied : Int) : Int :=
  if (target - applied).natAbs ≤ limit then target
  else if applied < target then applied + limit
  else applied - limit

/-- The applied section trim that this boundary's ramp gives (R136). -/
def State.rampedTrim (s : State) : Int :=
  rampToward (s.cfg.rampLimit s.classInForce) s.trim.target s.trim.applied

/-- The applied share shift that this boundary's ramp gives (R137). -/
def State.rampedShift (s : State) : Int :=
  rampToward (s.cfg.rampLimit s.classInForce) (if s.breakInForce then 0 else s.trim.shiftTarget) s.trim.shift

/-! ### The split (R138) -/

/-- How many READY channels other than `d` come before channel `n`. -/
def readyBefore (ready : Channel → Bool) (d n : Channel) : Nat :=
  (channels.filter fun m => ready m && m != d && m.val < n.val).length

/-- The share trim that a shift `x` toward channel `d` gives channel `n`, over the READY channels (R138). -/
def splitShare (ready : Channel → Bool) (x : Int) (d n : Channel) : Int :=
  let others := (channels.filter fun m => ready m && m != d).length
  if x = 0 || !ready d || others = 0 || !ready n then 0
  else if n = d then x
  else
    let q := Int.tdiv (-x) others
    let r := -x - q * others
    if readyBefore ready d n < r.natAbs then q + Int.sign (-x) else q

/-- The high time of TRM in sixteenths of a µs (R143). -/
def trmHigh (trim : Int) : Nat := (8000 + 6 * trim).toNat

/-- The high time of a share-trim output in µs (R145). -/
def shtHigh (share : Int) : Nat := (500 + 2 * share).toNat

/-- The ramps and the split of a boundary, and the high times they leave waiting (R136 to R138, R146). -/
def State.rampTrims (s : State) : State :=
  let applied := s.rampedTrim
  let shift := s.rampedShift
  let shares := Quad.ofFn fun n => splitShare s.ready shift s.trim.drive n
  { s with
    trim := { s.trim with applied := applied, shift := shift, shares := shares }
    pwm := { s.pwm with
      trmNext := trmHigh applied
      shtNext := Quad.ofFn fun n => shtHigh (shares.get n) } }

/-! ### Pulse-width outputs (R142 to R146) -/

/-- The place of a dither position in the spread order (R144). -/
def ditherPlace (i : Fin 16) : Nat := [0, 8, 4, 12, 2, 10, 6, 14, 1, 9, 5, 13, 3, 11, 7, 15].getD i.val 0

/-- The high time of a TRM period, from sixteenths of a µs and the period's dither position (R143, R144). -/
def trmPeriod (H : Nat) (i : Fin 16) : Nat := if ditherPlace i < H % 16 then H / 16 + 1 else H / 16

/-- A period of the outputs has run its 1000 µs. -/
def State.pwmPeriodDue (s : State) : Bool := s.running && s.pwm.running && s.pwm.start + Config.pwmPeriod ≤ s.now

/-- The next period of all five outputs starts (R142 to R146). -/
def State.startPwmPeriod (s : State) : State :=
  let i := s.pwm.dither + 1
  { s with pwm := { s.pwm with
      start := s.pwm.start + Config.pwmPeriod, dither := i, trmNow := trmPeriod s.pwm.trmNext i,
      shtNow := s.pwm.shtNext, trm := true, sht := .all true } }

/-- The output is high and its high time has run out (R142). -/
def State.highTimeDue (s : State) (o : PwmOutput) : Bool :=
  s.running && s.pwm.running &&
    match o with
    | .trm => s.pwm.trm && s.pwm.start + s.pwm.trmNow ≤ s.now
    | .sht n => s.pwm.sht.get n && s.pwm.start + s.pwm.shtNow.get n ≤ s.now

/-- The output returns low (R142). -/
def State.endHighTime (s : State) (o : PwmOutput) : State :=
  match o with
  | .trm => { s with pwm := { s.pwm with trm := false } }
  | .sht n => { s with pwm := { s.pwm with sht := s.pwm.sht.set n false } }

/-- PWM_PERIOD_START (R142). -/
def execPwmPeriodStart (after : Wait) (s : State) : Host.Outcome State Fault Refusal :=
  command after (fun s => if s.pwmPeriodDue then s.startPwmPeriod else s) s

/-- PWM_HIGH_TIME_END (R142). -/
def execPwmHighTimeEnd (after : Wait) (o : PwmOutput) (s : State) : Host.Outcome State Fault Refusal :=
  command after (fun s => if s.highTimeDue o then s.endHighTime o else s) s

/-! ### MANUAL_TRIM (R132) -/

/-- MANUAL_TRIM's checks and effect. -/
def manualTrimWork (p : List Byte) (s : State) : State × Response :=
  let v := (word16 p 0).toInt
  if !s.trialIdle then (s, .refused .busy)
  else if s.brk.latch then (s, .refused .brk)
  else if s.cfg.trimLimit < v.natAbs then (s, .refused .invalid)
  else ((s.setManual v).setClass .normal, .ok [])

/-- MANUAL_TRIM (R132). -/
def execManualTrim (after : Wait) (s : State) : Host.Outcome State Fault Refusal :=
  command after (execution .manualTrim manualTrimWork) s

end Sys2Proof.Machine
end

