-- ==== Sys2Proof/Machine/TrialControl.lean ====
section
/-! DEFINITION. The Trial Controller: what it reads, what it decides at a boundary, what it reports, and its requests
(03). -/

namespace Sys2Proof.Machine

/-! ### Reading the reports of other stations (R48) -/

/-- The report heard from another station in the closing round, as the boundary leaves the roster (R48). -/
def State.heard (s : State) (t : Station) : Option Report :=
  let e := s.entry t
  if t != s.station && e.presence = .present && e.miss = 0 then some e.report else none

/-- The valid claim heard from a station, by its trial id and parameters (R48). -/
def State.heardClaim (s : State) (t : Station) : Option (TrialId × TrialParams) :=
  match s.heard t with
  | none => none
  | some r =>
    let p := TrialParams.ofBytes r.params
    if r.phase = .claim && p.valid && r.id.proposer = t then some (r.id, p) else none

/-- The valid claims heard, lowest proposer first. -/
def State.heardClaims (s : State) : List (TrialId × TrialParams) := stations.filterMap s.heardClaim

/-- A heard report says something about the tracked trial: it has this phase and the tracked id (R48). -/
def State.heardFor (s : State) (ph : TrialPhase) (t : Station) : Option Report :=
  (s.heard t).filter fun r => r.phase = ph && r.id = s.trial.id

/-- The GO heard for the tracked trial, from its proposer and with its first three parameter bytes (R48). -/
def State.heardGo (s : State) : Option Report :=
  (s.heardFor .go s.trial.id.proposer).filter fun r =>
    r.params.a = s.trial.params.byteA && r.params.b = s.trial.params.byteB && r.params.c = s.trial.params.byteC

/-- An ACCEPT for the tracked trial is heard from a station (R48). -/
def State.heardAccept (s : State) (t : Station) : Bool :=
  (s.heardFor .accept t).any fun r => r.params = s.trial.params.claimBytes

/-- A RUN for the tracked trial is heard from some station (R48, R59). -/
def State.heardRun (s : State) : Bool := stations.any fun t => (s.heardFor .run t).isSome

/-- The ABORT reports heard for the tracked trial, their causes defined, in station order (R48). -/
def State.heardAborts (s : State) : List ParamBytes :=
  stations.filterMap fun t => ((s.heardFor .abort t).filter fun r => definedCause r.params.a).map (·.params)

/-- An ABORT with cause WITHDRAWN is heard for the tracked trial (R57). -/
def State.heardWithdrawal (s : State) : Bool := s.heardAborts.any fun p => p.a = Reason.withdrawn.code

/-- The ABORT of another cause that is taken: that of the lowest origin, and of equal origins the lowest sender's
(R66; log 21). -/
def State.heardAbort (s : State) : Option ParamBytes :=
  (s.heardAborts.filter fun p => p.a != Reason.withdrawn.code).foldr
    (fun p best =>
      match best with
      | none => some p
      | some q => if lowerNibble q.b < lowerNibble p.b then some q else some p)
    none

/-- A PRESENT entry of another station reports GO or RUN; its miss count does not matter (R49; log 23). -/
def State.busyAt (s : State) (other : TrialId → Bool) (t : Station) : Bool :=
  let e := s.entry t
  t != s.station && e.presence = .present && (e.report.phase = .go || e.report.phase = .run) && other e.report.id

/-- The lowest other station whose PRESENT entry reports GO or RUN, for any trial (R49, R50). -/
def State.busyStation (s : State) : Option Station := stations.find? (s.busyAt fun _ => true)

/-- Some other station's PRESENT entry reports GO or RUN for a trial other than the tracked one (R52). -/
def State.otherTrial (s : State) : Bool := stations.any (s.busyAt fun i => i != s.trial.id)

/-! ### Eligibility (R52) -/

/-- The DRIVES condition fails. -/
def State.drivesUnfit (s : State) : Bool :=
  s.anyFaulted || s.readyCount = 0
    || (s.trial.params.kind = .shareStep && s.trial.params.target = s.station
        && (!s.ready s.trial.params.drive || s.readyCount < 2))

/-- The step lies outside the target's own limit (R52, item 7). -/
def State.stepUnfit (s : State) : Bool :=
  s.trial.params.target = s.station
    && ((s.trial.params.kind = .drawStep && s.cfg.trimLimit < s.trial.params.step.natAbs)
        || (s.trial.params.kind = .shareStep && s.cfg.shareTrimLimit < s.trial.params.step.natAbs))

/-- The first reason why a member is not eligible, given the applied section trim that it is judged on (R52). -/
def State.ineligible (s : State) (applied : Int) : Option Reason :=
  if s.breakInForce then some .brk
  else if s.otherTrial then some .busy
  else if s.drivesUnfit then some .drives
  else if s.trim.manual != 0 || applied != 0 then some .notNeutral
  else if s.freeRecords < 8 + s.trial.params.duration + 1 then some .logSpace
  else if s.draw.alarm then some .draw
  else if s.stepUnfit then some .invalid
  else none

/-- Why the proposer's own check fails: all of R52 for a member, its first two conditions outside the span (R56). -/
def State.proposerUnfit (s : State) : Option Reason :=
  if s.isMember then s.ineligible s.rampedTrim
  else if s.breakInForce then some .brk
  else if s.otherTrial then some .busy
  else none

/-! ### Ends of a trial (R57, R62, R65, R66) -/

/-- The record enters RECOVERING with reports owed, their cause and origin; the manual trim target goes to 0 (R131). A
refusal by request ends with it, which R64 leaves open (log 46). -/
def State.enterRecovering (s : State) (owed : Nat) (cause : Byte) (origin : Station) : State :=
  State.setManual
    { s with trial := { s.trial with
        phase := .recovering, abortsOwed := owed, abortCause := cause, abortOrigin := origin, request := .none,
        refusing := false } }
    0

/-- The proposal is withdrawn (R56, R57). -/
def State.withdraw (s : State) (code : Byte) (st : Station) : State :=
  (s.enterRecovering 3 Reason.withdrawn.code s.station).writeOutcome .withdrawn s.trial.id code st

/-- The record's phase is SCHEDULED or RUNNING. -/
def State.underWay (s : State) : Bool := s.trial.phase = .scheduled || s.trial.phase = .running

/-- The trial is aborted: RECOVERING with reports owed, targets to 0 under RECOVERY, outcome ABORTED, and a CLOSE record
at a member whose record was SCHEDULED or RUNNING (R65, R66). -/
def State.abortTrial (s : State) (owed : Nat) (cause : Byte) (origin : Station) : State :=
  let t := ((s.enterRecovering owed cause origin).present 0 0 none .recovery).writeOutcome .aborted s.trial.id cause origin
  if s.isMember && s.underWay then t.appendClose s.trial.id .aborted cause origin else t

/-- The node becomes the origin of an abort (R65). -/
def State.abortOwn (s : State) (cause : Reason) : State := s.abortTrial 3 cause.code s.station

/-- The node ends the trial on a heard ABORT (R66). -/
def State.abortHeard (s : State) (p : ParamBytes) : State := s.abortTrial 1 p.a (lowerNibble p.b)

/-- The claim is dropped: outcome DROPPED, the record empty (R55, R57, R59, R64). -/
def State.dropClaim (s : State) (code : Reason) : State :=
  State.writeOutcome { s with trial := .empty } .dropped s.trial.id code.code s.trial.id.proposer

/-- The trial is completed (R62). -/
def State.completeTrial (s : State) : State :=
  let t := if s.isMember then s.appendClose s.trial.id .completed 0 0 else s
  ((t.present 0 0 none .normal).enterRecovering 0 0 0).writeOutcome .completed s.trial.id 0 s.trial.id.proposer

/-! ### Adoption (R51, R54) -/

/-- A claim is adopted (R51). -/
def State.adopt (s : State) (c : TrialId × TrialParams) : State :=
  State.raise
    { s with trial := { TrialRecord.empty with
        phase := .accepting, role := if c.2.inSpan s.station then .member else .bystander, id := c.1, params := c.2 } }
    .claimSeen

/-- An IDLE record of an ACTIVE node adopts the lowest claim heard (R51). -/
def State.adoptHeard (s : State) : State :=
  match s.heardClaims with
  | c :: _ => if s.link.state = .active && s.trialIdle then s.adopt c else s
  | [] => s

/-- The claim that replaces the tracked one: from a lower proposer, or the same proposer's with another id; the lowest
proposer's (R54). -/
def State.replacement (s : State) : Option (TrialId × TrialParams) :=
  s.heardClaims.find? fun c =>
    c.1.proposer < s.trial.id.proposer || (c.1.proposer = s.trial.id.proposer && c.1 != s.trial.id)

/-! ### The claim boundary (R50) -/

/-- The record enters PROPOSING (R50, item 4). -/
def State.beginProposal (s : State) (id : TrialId) (p : TrialParams) : State :=
  { s with trial := { TrialRecord.empty with
      phase := .proposing, role := if p.inSpan s.station then .proposerMember else .proposer, id := id, params := p,
      required := stationSet fun t => p.inSpan t && (s.entry t).presence != .absent } }

/-- A pending proposal at its claim boundary (R50). -/
def State.claimBoundary (s : State) (id : TrialId) (p : TrialParams) : State :=
  let freed : State := { s with trial := .empty }
  match s.heardClaims.find? fun c => c.1.proposer < s.station with
  | some c => (freed.writeOutcome .lost id 0 c.1.proposer).adopt c
  | none =>
    match s.busyStation with
    | some t => freed.writeOutcome .withdrawn id Reason.busy.code t
    | none =>
      if (s.entry p.target).presence = .absent then
        freed.writeOutcome .withdrawn id Reason.targetAbsent.code p.target
      else s.beginProposal id p

/-! ### The proposer's decision (R56) -/

/-- A station of a set. -/
def member (m : StationSet) (t : Station) : Bool := m.getLsbD t.val

/-- The accepted set with the stations whose acceptance was heard, and the proposer's own in its span (R56, item 6). -/
def State.nowAccepted (s : State) : StationSet :=
  s.trial.accepted |||
    stationSet fun t => member s.trial.required t && (s.heardAccept t || (t = s.station && s.isMember))

/-- GO is set: SCHEDULED with the start round two on (R56, item 6). -/
def State.setGo (s : State) : State :=
  { s with trial := { s.trial with
      phase := .scheduled, startRound := s.round.number + 2, watched := s.trial.required,
      readySet := if s.isMember then s.readySet else 0 } }

/-- A required station's REFUSE for this trial: the lowest such station and its reason (R56, item 4). -/
def State.heardRefusal (s : State) : Option (Station × Byte) :=
  stations.findSome? fun t =>
    if member s.trial.required t then (s.heardFor .refuse t).map fun r => (t, r.params.a) else none

/-- The lowest required station whose entry is not PRESENT (R56, item 5). -/
def State.requiredLost (s : State) : Option Station :=
  stations.find? fun t => member s.trial.required t && (s.entry t).presence != .present

/-- The lowest required station not in the accepted set (R56, item 7). -/
def State.unaccepted (s : State) : Option Station :=
  stations.find? fun t => member s.trial.required t && !member s.trial.accepted t

/-- Items 6 and 7: acceptances, GO, or the end of the accept window (R56). -/
def State.gatherAcceptances (s : State) : State :=
  let s : State := { s with trial := { s.trial with accepted := s.nowAccepted } }
  match s.unaccepted with
  | none => if 2 ≤ s.trial.count then s.setGo else s
  | some t => if 5 ≤ s.trial.count then s.withdraw Reason.noQuorum.code t else s

/-- A PROPOSING record at a boundary: the items of R56 in order, with a heard ABORT after the request (R66; log 21). -/
def State.proposingStep (s : State) : State :=
  if s.trial.request = .abort then s.withdraw Reason.requested.code s.station
  else
    match s.heardAbort with
    | some p => s.abortHeard p
    | none =>
      match s.replacement with
      | some c => (s.writeOutcome .lost s.trial.id 0 c.1.proposer).adopt c
      | none =>
        match s.proposerUnfit with
        | some r => s.withdraw r.code s.station
        | none =>
          match s.heardRefusal with
          | some (t, code) => s.withdraw code t
          | none =>
            match s.requiredLost with
            | some t => s.withdraw Reason.peerLost.code t
            | none => s.gatherAcceptances

/-! ### Abort conditions (R63) -/

/-- The number of the round that this boundary closes. -/
def State.closingRound (s : State) : BitVec 8 := s.log.last.round

/-- The start is passed (R59). -/
def State.startPassed (s : State) : Bool :=
  let toStart := (s.trial.startRound - s.closingRound).toNat
  let toHere := (s.round.number - s.closingRound).toNat
  0 < toStart && toStart < toHere

/-- A channel of the READY set is not READY any more (R63). -/
def State.readyShrunk (s : State) : Bool := channels.any fun n => s.trial.readySet.getLsbD n.val && !s.ready n

/-- A station of the watched set has an entry that is not PRESENT (R63). -/
def State.watchedLost (s : State) : Bool :=
  stations.any fun t => member s.trial.watched t && (s.entry t).presence != .present

/-- The first abort condition that holds (R63). -/
def State.abortCondition (s : State) : Option Reason :=
  if s.trial.request = .abort then some .requested
  else if s.breakInForce then some .brk
  else if s.isMember && (s.anyFaulted || s.readyShrunk) then some .driveFault
  else if s.isMember && s.draw.hard then some .drawLimit
  else if s.watchedLost then some .peerLost
  else if s.trial.phase = .scheduled && s.startPassed then some .missedGo
  else none

/-- A member's READY set becomes the channels READY as the boundary leaves them (R63). -/
def State.refreshReady (s : State) : State :=
  { s with trial := { s.trial with readySet := if s.isMember then s.readySet else s.trial.readySet } }

/-- A SCHEDULED or RUNNING record at a boundary: an own abort condition; else, with its READY set taken afresh, a heard
ABORT, or what it goes on to do (R63, R65, R66). -/
def State.guarded (s : State) (go : State → State) : State :=
  match s.abortCondition with
  | some r => s.abortOwn r
  | none =>
    match s.heardAbort with
    | some p => s.refreshReady.abortHeard p
    | none => go s.refreshReady

/-! ### Start, run, completion (R60 to R62) -/

/-- The trial starts at this node (R60). -/
def State.startTrial (s : State) : State :=
  let t : State :=
    State.raise { s with trial := { s.trial with phase := .running, remaining := s.trial.params.duration } } .trialStart
  let t := if s.isMember then t.moveRing s.trial.id else t
  if s.trial.params.target = s.station then
    match s.trial.params.kind with
    | .drawStep => t.present s.trial.params.step 0 none .trial
    | .shareStep => t.present 0 s.trial.params.step (some s.trial.params.drive) .trial
    | .watch => t
    | .none => t
  else t

/-- A SCHEDULED record starts at the boundary numbered s and waits at every other (R60). -/
def State.awaitStart (s : State) : State := if s.round.number = s.trial.startRound then s.startTrial else s

/-- A RUNNING record counts down: a member's RUN record, and completion at 0 (R61, R62). -/
def State.countDown (s : State) : State :=
  let t := if s.isMember then s.appendRun s.trial.id else s
  let t : State := { t with trial := { t.trial with remaining := s.trial.remaining - 1 } }
  if s.trial.remaining ≤ 1 then t.completeTrial else t

/-! ### An ACCEPTING record (R55, R57 to R59) -/

/-- The forward distance from this boundary's number to a start round (R58). -/
def State.startDistance (s : State) (start : BitVec 8) : Nat := (start - s.round.number).toNat

/-- A GO is taken (R58). The own REFUSE of the closing round is the report that the boundary before built. The conditions
of R63 are checked at this boundary when the start round is the one that it opens, and at no other distance (log 22). -/
def State.takeGo (s : State) (start : BitVec 8) : State :=
  let d := s.startDistance start
  let sched : State :=
    { s with trial := { s.trial with
        phase := .scheduled, startRound := start
        watched := stationSet fun t => s.trial.params.inSpan t && (s.entry t).presence = .present
        readySet := if s.isMember then s.readySet else 0 } }
  let judgedTrim := if d = 0 then s.trim.applied else s.rampedTrim
  let unready := (s.ineligible judgedTrim).isSome || s.trial.refusing || s.ownReport.phase = .refuse
  if 3 ≤ d then sched.abortOwn .missedGo
  else if s.isMember && unready then sched.abortOwn .notReady
  else if d = 0 then
    match sched.abortCondition with
    | some r => sched.abortOwn r
    | none => sched.startTrial
  else sched

/-- What an ACCEPTING record does that has taken no ABORT: GO, RUN, a replacing claim, the lapse (R54, R55, R58, R59). -/
def State.acceptingGoes (s : State) : State :=
  match s.heardGo with
  | some r => s.takeGo r.params.d
  | none =>
    if s.heardRun then (if s.isMember then s.abortOwn .missedGo else s.dropClaim .missedGo)
    else
      match s.replacement with
      | some c => s.adopt c
      | none => if 6 ≤ s.trial.count then s.dropClaim .lapsed else s

/-- An ACCEPTING record at a boundary, in the order of R55. Of an ABORT of R66 and a withdrawal heard together, the ABORT is
taken (log 21). -/
def State.acceptingStep (s : State) : State :=
  if s.trial.request = .abort then s.dropClaim .requested
  else
    match s.heardAbort with
    | some p => s.abortHeard p
    | none => if s.heardWithdrawal then s.dropClaim .withdrawn else s.acceptingGoes

/-! ### The controller at a boundary -/

/-- An IDLE record: its claim boundary when a proposal is pending, adoption otherwise (R50, R51). -/
def State.idleStep (s : State) : State :=
  match s.trial.request with
  | .propose id p => s.claimBoundary id p
  | .none => s.adoptHeard
  | .abort => s.adoptHeard

/-- The CLOSE record that an own-slot conflict left owed is appended (R67, R162). -/
def State.closeLink (s : State) : State :=
  if s.trial.linkCloseOwed then
    let t : State := { s with trial := { s.trial with linkCloseOwed := false } }
    t.appendClose s.trial.id .aborted Reason.link.code s.station
  else s

/-- The boundary count is one more, for a record that tracks a trial. -/
def State.countBoundaries (s : State) : State :=
  if s.trial.phase = .idle then s else { s with trial := { s.trial with count := s.trial.count + 1 } }

/-- The state on which the controller decides: an owed CLOSE record appended, the boundary counted. -/
def State.atDecision (s : State) : State := s.closeLink.countBoundaries

/-- What the record does at a boundary, by its local phase. -/
def State.decidePhase (s : State) : State :=
  match s.trial.phase with
  | .idle => s.idleStep
  | .proposing => s.proposingStep
  | .accepting => s.acceptingStep
  | .scheduled => s.guarded State.awaitStart
  | .running => s.guarded State.countDown
  | .recovering => s

/-- The controller's decisions of a boundary, before the ramp (R141). -/
def State.decide (s : State) : State := s.atDecision.decidePhase

/-- The recovery is done: no report owed and both applied values 0 (R68). -/
def State.recovered (s : State) : Bool :=
  s.trial.phase = .recovering && s.trial.abortsOwed = 0 && s.trim.applied = 0 && s.trim.shift = 0

/-- The test for IDLE after the ramp, for a record that the boundary found RECOVERING, and the adoption that follows
(R68). -/
def State.testIdle (s : State) (wasRecovering : Bool) : State :=
  if wasRecovering && s.recovered then State.adoptHeard { s with trial := .empty } else s

/-! ### What the report says (R47, R53) -/

/-- The claim that a RECOVERING node refuses as busy (R53). -/
def State.busyRefusal (s : State) : Option TrialId :=
  if s.link.state = .active then (s.heardClaims.find? fun c => c.2.inSpan s.station).map (·.1) else none

/-- Phase, trial id and parameters that say nothing. -/
def noTrialFields : TrialPhase × TrialId × ParamBytes := (.none, .zero, ⟨0, 0, 0, 0⟩)

/-- What a member in ACCEPTING reports (R47, R52). -/
def State.memberAnswer (s : State) : TrialPhase × TrialId × ParamBytes :=
  match s.ineligible s.trim.applied with
  | some r => (.refuse, s.trial.id, ⟨r.code, 0, 0, 0⟩)
  | none =>
    if s.trial.refusing then (.refuse, s.trial.id, ⟨Reason.requested.code, 0, 0, 0⟩)
    else (.accept, s.trial.id, s.trial.params.claimBytes)

/-- The trial fields of the own report, from the record as the boundary leaves it (R47). -/
def State.trialFields (s : State) : TrialPhase × TrialId × ParamBytes :=
  let p := s.trial.params
  match s.trial.phase with
  | .idle => noTrialFields
  | .proposing => (.claim, s.trial.id, p.claimBytes)
  | .accepting => if s.trial.role = .bystander then noTrialFields else s.memberAnswer
  | .scheduled =>
    match s.trial.role with
    | .proposer => (.go, s.trial.id, ⟨p.byteA, p.byteB, p.byteC, s.trial.startRound⟩)
    | .proposerMember => (.go, s.trial.id, ⟨p.byteA, p.byteB, p.byteC, s.trial.startRound⟩)
    | .member => (.accept, s.trial.id, p.claimBytes)
    | .bystander => noTrialFields
    | .none => noTrialFields
  | .running => (.run, s.trial.id, ⟨p.byteA, p.byteB, p.byteC, byteOf s.trial.remaining⟩)
  | .recovering =>
    if s.trial.abortsOwed = 0 then
      match s.busyRefusal with
      | some i => (.refuse, i, ⟨Reason.busy.code, 0, 0, 0⟩)
      | none => noTrialFields
    else (.abort, s.trial.id, ⟨s.trial.abortCause, BitVec.ofNat 8 s.trial.abortOrigin.val, 0, 0⟩)

/-- The own report that a boundary builds (R31, R47). Its station and LEAVING flag are completed at the slot's opening
(R32). -/
def State.buildReport (s : State) : State :=
  let f := s.trialFields
  { s with ownReport :=
      { station := s.station, leaving := false, brk := s.breakInForce, fault := s.anyFaulted,
        alarm := s.draw.alarm || s.meas.alarm, readyCount := s.readyCount, phase := f.1, speed := speedWord s.meas.speed,
        load := loadWord s.meas.load, trim := BitVec.ofInt 16 s.trim.applied, id := f.2.1, params := f.2.2 } }

/-! ### Requests (R49, R64, R71) -/

/-- PROPOSE_TRIAL's checks and effect (R49). -/
def proposeTrialWork (b : List Byte) (s : State) : State × Response :=
  let p := TrialParams.ofRequest b
  let id : TrialId := ⟨s.station, s.seqCounter + 1⟩
  if !s.trialIdle || s.busyStation.isSome then (s, .refused .busy)
  else if !p.valid then (s, .refused .invalid)
  else if (s.entry p.target).presence = .absent then (s, .refused .targetAbsent)
  else
    ({ s with seqCounter := s.seqCounter + 1, trial := { s.trial with request := .propose id p } }, .ok [id.byte])

/-- PROPOSE_TRIAL (R49). -/
def execProposeTrial (after : Wait) (s : State) : Host.Outcome State Fault Refusal :=
  command after (execution .proposeTrial proposeTrialWork) s

/-- A pending ABORT (R64). -/
def State.requestAbort (s : State) : State := { s with trial := { s.trial with request := .abort } }

/-- ABORT_TRIAL's effect, by local phase (R64). -/
def abortTrialWork (_ : List Byte) (s : State) : State × Response :=
  match s.trial.phase with
  | .idle =>
    match s.trial.request with
    | .propose id _ =>
      (State.writeOutcome { s with trial := { s.trial with request := .none } } .withdrawn id Reason.requested.code s.station,
        .ok [])
    | .none => (s, .refused .noTrial)
    | .abort => (s, .refused .noTrial)
  | .proposing => (s.requestAbort, .ok [])
  | .accepting =>
    if s.isMember then ({ s with trial := { s.trial with refusing := true } }, .ok []) else (s.requestAbort, .ok [])
  | .scheduled => (s.requestAbort, .ok [])
  | .running => (s.requestAbort, .ok [])
  | .recovering => (s, .refused .noTrial)

/-- ABORT_TRIAL (R64). -/
def execAbortTrial (after : Wait) (s : State) : Host.Outcome State Fault Refusal :=
  command after (execution .abortTrial abortTrialWork) s

/-- The byte of a boundary count; above 255 a free value (log 25). -/
def countByte (k : Nat) : Byte := if k ≤ 255 then byteOf k else Config.countByte k

/-- The 27 bytes of READ_TRIAL (R71, R195). While a proposal is pending they show the record of the local phase IDLE, whose
id and parameters are zero, and the proposal as the pending request alone (log 44). -/
def State.trialBytes (s : State) : List Byte :=
  let r := s.trial
  let p := r.params
  [r.phase.code, r.role.code, r.id.byte, p.kind.code.setWidth 8, byteOf p.drive.val, byteOf p.target.val,
    byteOf p.spanFirst.val, byteOf p.spanLast.val, BitVec.ofInt 8 p.step, byteOf p.duration, r.startRound,
    byteOf r.remaining]
  ++ bytes16 r.required ++ bytes16 r.accepted ++ bytes16 r.watched
  ++ [setByte r.readySet, countByte r.count, byteOf r.abortsOwed, r.request.code, flagByte r.refusing,
    s.lastOutcome.outcome.code, s.lastOutcome.id.byte, s.lastOutcome.code, byteOf s.lastOutcome.station.val]

/-- READ_TRIAL (R71). -/
def execReadTrial (after : Wait) (s : State) : Host.Outcome State Fault Refusal :=
  command after (execution .readTrial fun _ s => (s, .ok s.trialBytes)) s

end Sys2Proof.Machine
end

