-- ==== Sys2Proof/Machine/Boundary.lean ====
section
/-! DEFINITION. A round boundary: what the Round Timer announces and what every block does, in the order of log 17. -/

namespace Sys2Proof.Machine

/-- The frame attempt that a boundary finds open is discarded, with SHORT in a round whose frames are flagged
(R17, R18; log 13). -/
def State.dropAttempt (s : State) : State :=
  match s.line.attempt with
  | none => s
  | some _ =>
    ({ s with line := { s.line with attempt := none } } : State).linkErrorIf (s.round.synced && !s.round.lost) .short

/-- The round that a boundary opens has frames assembled in it: ACTIVE and LEAVING, or LISTENING after an adopted mark
(R9, R16, R17). -/
def LinkState.syncs (l : LinkState) (k : BoundaryKind) : Bool := l.onLink || (l = .listening && k = .adopted)

/-- The Round Timer at a boundary, for the link state that the round opens in, given the round that the boundary closes
(R6, R16, R20). The lost-round flag is R16's, whatever the link state after the boundary (log 38). -/
def State.openRound (s : State) (closing : RoundFrame) (k : BoundaryKind) (number : BitVec 8) : State :=
  let synced := s.link.state.syncs k
  { s with
    round :=
      { start := s.now, number := number, windowOpen := false, lost := k = .lost, synced := synced,
        startInWindow := false, ownSlot := if synced then .silent else .unobserved, slotsClosed := 0, ownSlotDone := false,
        before := closing }
    line := { s.line with overrun := none } }

/-- The own entry on entry to ACTIVE (R26). -/
def State.enterOwnEntry (s : State) (was : LinkState) : State :=
  if was = .listening && s.link.state = .active then s.writeOwnEntry s.ownReport else s

/-- A leave whose flagged report was sent before this boundary is complete (R28). -/
def State.endLeave (s : State) : State :=
  if s.link.state = .leaving && s.link.leave = .sent then s.completeLeave else s

/-- The break mark is cleared after every user has taken the break, and the trim target chosen afresh (R150). -/
def State.clearBreakMark (s : State) : State :=
  State.reselect { s with brk := { s.brk with mark := false } }

/-- The link state machine and the roster at a boundary (R25, R26, R38). -/
def State.linkStep (s : State) (k : BoundaryKind) : State :=
  let t := if s.link.state = .listening then s.countBoundary k s.round.ownSlot else s
  if s.link.state.receives then t.ageRoster else t

/-- The trials, trims and report of a boundary, after the sample (R47, R68, R136, R141, R31). A record that a conflict put
into RECOVERING between boundaries is one that this boundary finds RECOVERING (log 42). -/
def State.trialAndTrims (s : State) : State :=
  let was := s.trial.phase = .recovering
  ((s.decide.rampTrims).testIdle was).buildReport

/-- The closing round is measured (R81, R89). -/
def State.measured (s : State) : State := s.dropAttempt.measure (s.now - s.round.start)

/-- The link and the roster have taken the boundary, and the new round is open (R5, R6, R25, R38). -/
def State.linked (s : State) (k : BoundaryKind) (number : BitVec 8) : State :=
  (s.measured.linkStep k).openRound s.roundFrame k number

/-- The draw is measured and the sample of the closing round taken (R118, R157). -/
def State.sampled (s : State) (k : BoundaryKind) (number : BitVec 8) : State :=
  (s.linked k number).measureDraw.takeSample s.round.number s.round.lost

/-- A round boundary of a kind, with the new round number (R5, R6; log 17). -/
def State.takeBoundary (s : State) (k : BoundaryKind) (number : BitVec 8) : State :=
  ((((s.sampled k number).trialAndTrims).enterOwnEntry s.link.state).endLeave).clearBreakMark

end Sys2Proof.Machine
end

