-- ==== Sys2Proof/Machine/Line.lean ====
section
/-! DEFINITION. The Line Interface and the Round Timer: characters, transmissions, conflicts and timed round events
(01). -/

namespace Sys2Proof.Machine

/-! ### Own-slot conflict (R30, R67, R140) -/

/-- A record in any phase but IDLE and RECOVERING. -/
def State.tracking (s : State) : Bool := s.trial.phase != .idle && s.trial.phase != .recovering

/-- What a conflict does to the trial record (R67). The record that ends a pending proposal shows the proposal's id and
parameters and no role, and counts its boundaries from the conflict on (log 41). -/
def State.conflictTrial (s : State) : State :=
  match s.trial.phase, s.trial.request with
  | .idle, .propose id p =>
    let t : State := { s with trial := { TrialRecord.empty with id := id, params := p } }
    (t.enterRecovering 0 Reason.link.code s.station).writeOutcome .aborted id Reason.link.code s.station
  | _, _ =>
    if s.tracking then
      let t : State := { s with trial := { s.trial with linkCloseOwed := s.isMember && s.underWay } }
      (t.enterRecovering 0 Reason.link.code s.station).writeOutcome .aborted s.trial.id Reason.link.code s.station
    else { s with trial := { s.trial with abortsOwed := 0 } }

/-- An own-slot conflict: the trial ends, the trims are told, and the node goes to STANDBY with DUPLICATE
(R30, R67, R140). -/
def State.conflict (s : State) : State :=
  (((s.conflictTrial.setManual 0).present 0 0 none .recovery).enterStandby).raise .duplicate

/-! ### Characters detected and sent -/

/-- A character start is noted in the round that it falls in, while that is under way: inside the mark window, inside the
own slot (R13, R20). -/
def State.noteStart (s : State) (edge : Nat) : State :=
  if s.inThisRound edge then
    { s with round := { s.round with
        startInWindow := s.round.startInWindow || s.inWindow edge
        ownSlot := if s.round.synced && s.slotOf edge = some s.station then .heard else s.round.ownSlot } }
  else s

/-- The character that the node itself is sending, as read back without mismatch (R2, R4). -/
def Tx.character : Tx → Option CharBits
  | .released => none
  | .mark n => some { data := n, mark := true, stop := true }
  | .frame r sent => some { data := nth r.frame sent, mark := false, stop := true }

/-- The levels that the transmitter sends for the character under way; none while it is released, when the line is left
recessive (R1, R2). -/
def State.levelsSent (s : State) : Option (List Bool) := s.line.tx.character.map charLevels

/-- The receiver takes a start edge: as the character under way, or, from the stop-bit sample of the one under way on,
as the next (R3). -/
def State.detectStart (s : State) (edge : Nat) : State :=
  match s.line.rx with
  | none => State.noteStart { s with line := { s.line with rx := some edge } } edge
  | some st =>
    if st + Config.stopSample ≤ edge && s.line.rxNext = none then
      State.noteStart { s with line := { s.line with rxNext := some edge } } edge
    else s

/-- The transmitter begins to send, and the receiver sees its start bit. A character whose stop bit has been sampled is
still to complete; one that has not been sampled so far is dropped (R3, R4, R13, R19; log 11). -/
def State.beginSending (s : State) (t : Tx) : State :=
  State.noteStart
    { s with line := { s.line with
        tx := t, rx := some s.now, rxNext := none
        rxSampled := s.line.rx.filter fun st => st + Config.stopSample ≤ s.now } }
    s.now

/-- The origination time is reached with no character start inside the window (R13). -/
def State.originationDue (s : State) : Bool :=
  s.running && s.link.state.onLink && s.round.windowOpen && !s.round.startInWindow && s.line.tx = .released
    && s.period + Config.holdoff * s.station.val ≤ s.roundTime

/-- ORIGINATION: the node sends a mark carrying its number plus one (R13). -/
def execOrigination (after : Wait) (s : State) : Host.Outcome State Fault Refusal :=
  command after (fun s => if s.originationDue then s.beginSending (.mark (s.round.number + 1)) else s) s

/-- The report as it stands at the opening of the own slot, completed (R32). -/
def State.slotReport (s : State) : Report :=
  { s.ownReport with station := s.station, leaving := s.link.state = .leaving && s.link.leave = .owed }

/-- The own slot opens in a round in which the node transmits (R19). -/
def State.ownSlotDue (s : State) : Bool :=
  s.running && s.link.state.onLink && !s.round.lost && !s.round.ownSlotDone && s.line.tx = .released
    && s.roundTime = slotOpens s.station.val

/-- CHARACTER_START: the sample 1 µs after a recessive-to-dominant change (R3). The one start edge that the closing of a
window may have waited for is settled by it (R17; log 14). -/
def execCharacterStart (after : Wait) (stillDominant : Bool) (s : State) : Host.Outcome State Fault Refusal :=
  command after
    (fun s =>
      if s.running && s.link.state.receives && stillDominant then (s.detectStart (s.now - 1)).settleAttempt else s) s

/-- OWN_SLOT_OPEN: the report frame begins (R19, R32). -/
def execOwnSlotOpen (after : Wait) (s : State) : Host.Outcome State Fault Refusal :=
  command after
    (fun s =>
      if s.ownSlotDue then
        State.settleAttempt
          (State.beginSending { s with round := { s.round with ownSlotDone := true } } (.frame s.slotReport 0))
      else s) s

/-- READBACK_MISMATCH: a collision on the own mark, a conflict in the own slot (R4, R14, R20). -/
def execReadbackMismatch (after : Wait) (s : State) : Host.Outcome State Fault Refusal :=
  command after
    (fun s =>
      if s.running then
        match s.line.tx with
        | .released => s
        | .mark _ => State.linkError { s with line := { s.line with tx := .released } } .collision
        | .frame _ _ => s.conflict
      else s) s

/-! ### Frame attempts (R17, R18) -/

/-- A completed attempt is a valid frame (R18). -/
def Attempt.isValid (a : Attempt) : Bool :=
  !a.framing && !a.markInside && sumBytes a.bytes = 0 && lowerNibble (nth a.bytes 0) = a.slot

/-- A completed attempt: its flags, and its delivery, conflict or discarding (R16, R18, R20). -/
def State.finishAttempt (s : State) (a : Attempt) : State :=
  let flagged := !s.round.lost
  let s : State := { s with line := { s.line with attempt := none } }
  let s := s.linkErrorIf (flagged && a.markInside) .short
  let s := s.linkErrorIf (flagged && sumBytes a.bytes != 0) .check
  let s := s.linkErrorIf (flagged && lowerNibble (nth a.bytes 0) != a.slot) .slot
  if a.isValid then
    if a.slot = s.station then s.conflict else if s.round.lost then s else s.deliver a.slot a.bytes
  else s

/-- A character joins an attempt, which is complete at its fifteenth (R17). -/
def State.joinAttempt (s : State) (a : Attempt) (st : Nat) (c : CharBits) : State :=
  let a := { a with bytes := a.bytes ++ [c.data], framing := a.framing || !c.stop, lastEnd := st + Config.characterTime }
  if a.bytes.length = Config.frameLength then s.finishAttempt a
  else { s with line := { s.line with attempt := some a } }

/-- A frame character opens an attempt in a slot; a character with a framing fault opens none (R17; log 12). -/
def State.openAttempt (s : State) (k : Station) (st : Nat) (c : CharBits) : State :=
  if c.stop then s.joinAttempt { slot := k, bytes := [], framing := false, markInside := false, lastEnd := st } st c else s

/-- An open attempt is discarded, with SHORT where frames are flagged (R17). -/
def State.discardAttempt (s : State) (flagged : Bool) : State :=
  match s.line.attempt with
  | none => s
  | some _ => State.linkErrorIf { s with line := { s.line with attempt := none } } flagged .short

/-- The slot of the cut attempt that a start edge still belongs to (R17; log 14). -/
def State.trainAt (s : State) (st : Nat) : Option Station :=
  (s.line.overrun.filter fun o => st ≤ o.lastEnd).map (·.slot)

/-- The train of an attempt cut in slot j begins with, or goes on to, the character of this start edge. -/
def State.extendTrain (s : State) (j : Station) (st : Nat) : State :=
  { s with line := { s.line with overrun := some { slot := j, lastEnd := st + Config.characterTime } } }

/-- A frame character, or one with a framing fault, in the round under way, whose frames are assembled. A character whose
window has closed joins the attempt that has outlived it; where none is open, a frame character opens one that can hold no
second, and a framing fault opens none. A character of the train of a cut attempt sets SLOT, but for one that began inside
the very window whose closing cut it (R3, R16, R17; log 12, log 14). -/
def State.assemble (s : State) (st : Nat) (c : CharBits) : State :=
  let flagged := !s.round.lost
  match s.slotOf st with
  | none =>
    match s.trainAt st with
    | some j => (s.extendTrain j st).linkErrorIf (flagged && c.stop) .slot
    | none => s.linkErrorIf (flagged && c.stop) .slot
  | some k =>
    match s.line.attempt.filter (·.slot = k) with
    | some a => s.joinAttempt a st c
    | none =>
      match s.trainAt st with
      | some j => (s.extendTrain j st).linkErrorIf (flagged && c.stop && j != k) .slot
      | none =>
        if s.round.slotsClosed ≤ k.val then (s.discardAttempt flagged).openAttempt k st c
        else if c.stop then (s.extendTrain k st).linkErrorIf flagged .short
        else s

/-- A frame character, or one with a framing fault, of the round that the last boundary closed: outside its slot windows it
sets SLOT, inside one it opens an attempt that cannot be completed (R3, R9, R16, R17; log 39). -/
def State.assembleLate (s : State) (st : Nat) (c : CharBits) : State :=
  let flagged := (s.roundOf st).synced && !(s.roundOf st).lost && c.stop
  match s.slotOf st with
  | none => s.linkErrorIf flagged .slot
  | some _ => s.linkErrorIf flagged .short

/-! ### A character completes (R3, R11 to R15) -/

/-- A mark begins inside the open attempt (R12, R18). -/
def State.markInAttempt (s : State) : State :=
  { s with line := { s.line with attempt := s.line.attempt.map fun a => { a with markInside := true } } }

/-- A valid mark with this start edge is a boundary: it falls in a LISTENING round or inside the mark window
(R3, R9, R11; log 39). -/
def State.markTaken (s : State) (st : Nat) : Bool :=
  s.link.state = .listening || (s.roundOf st).state = .listening || s.inWindow st

/-- A valid mark: a boundary in LISTENING and inside the window, an early mark before it (R9, R11, R12). That an early mark
ends the train of a cut attempt, so that the frame character after it is of none, is the model's choice (log 47). -/
def State.takeMark (s : State) (st : Nat) (number : BitVec 8) : State :=
  if s.markTaken st then s.takeBoundary .adopted number
  else (s.markInAttempt.linkError .earlyMark).settleAttempt

/-- A character that is no valid mark: a lost round when it began inside the window, a frame's character otherwise
(R3, R9, R15, R17). -/
def State.takeOther (s : State) (st : Nat) (c : CharBits) : State :=
  if s.inWindow st then (s.linkError .lostMark).takeBoundary .lost (s.round.number + 1)
  else if !s.inThisRound st then s.assembleLate st c
  else if s.round.synced then s.assemble st c
  else s

/-- A received character (R3). -/
def State.received (s : State) (st : Nat) (c : CharBits) : State :=
  let s := s.linkErrorIf (!c.stop) .framing
  if c.mark && c.stop then s.takeMark st c.data else s.takeOther st c

/-- A character of the own frame has been read back (R4, R28, R39). -/
def State.ownCharacter (s : State) (r : Report) (sent : Nat) : State :=
  if sent + 1 = Config.frameLength then State.ownFrameDone { s with line := { s.line with tx := .released } } r
  else { s with line := { s.line with tx := .frame r (sent + 1), rx := some s.now, rxNext := none } }

/-- The character under way at the receiver has run its 22 µs (R3). -/
def State.characterDue (s : State) : Bool :=
  s.running && s.link.state.receives && s.line.rx.any fun st => st + Config.characterTime ≤ s.now

/-- The received character whose stop bit was sampled before the node began to send has run its 22 µs, and the node's own
has not (R3; log 11). -/
def State.sampledDue (s : State) : Bool :=
  s.running && s.link.state.receives && !s.characterDue
    && s.line.rxSampled.any fun st => st + Config.characterTime ≤ s.now

/-- The character under way leaves the receiver, and the next one takes its place. -/
def LineInterface.shift (l : LineInterface) : LineInterface :=
  { l with rx := l.rxNext, rxNext := none, rxSampled := none }

/-- A character completes: the own mark, a character of the own frame, or a received one (R3, R4, R13). -/
def State.completeCharacter (s : State) (c : CharBits) : State :=
  if s.characterDue then
    let t : State := { s with line := s.line.shift }
    match s.line.tx with
    | .mark n => State.takeBoundary { t with line := { t.line with tx := .released } } .originated n
    | .frame r sent => t.ownCharacter r sent
    | .released => t.received (s.line.rx.getD 0) c
  else if s.sampledDue then
    State.received { s with line := { s.line with rxSampled := none } } (s.line.rxSampled.getD 0) c
  else s

/-- CHARACTER_COMPLETE (R3). -/
def execCharacterComplete (after : Wait) (c : CharBits) (s : State) : Host.Outcome State Fault Refusal :=
  command after (fun s => s.completeCharacter c) s

/-! ### Timed events of the round (R7 to R9, R17) -/

/-- The round timer has reached P − 1000 µs in ACTIVE or LEAVING, and the window is closed (R7). -/
def State.windowDue (s : State) : Bool :=
  s.running && s.link.state.onLink && !s.round.windowOpen && s.period ≤ s.roundTime + Config.windowLead

/-- MARK_WINDOW_OPEN (R7). -/
def execMarkWindowOpen (after : Wait) (s : State) : Host.Outcome State Fault Refusal :=
  command after (fun s => if s.windowDue then { s with round := { s.round with windowOpen := true } } else s) s

/-- The round timer has reached P in STANDBY (R8, R10). -/
def State.standbyDue (s : State) : Bool := s.running && s.link.state = .standby && s.period ≤ s.roundTime

/-- The STANDBY local boundary (R8). -/
def State.standbyLocal (s : State) : State :=
  if s.standbyDue then s.takeBoundary .localTimed (s.round.number + 1) else s

/-- STANDBY_LOCAL_BOUNDARY (R8). -/
def execStandbyLocalBoundary (after : Wait) (s : State) : Host.Outcome State Fault Refusal :=
  command after State.standbyLocal s

/-- A character completes at this very instant (R9). -/
def State.completingNow (s : State) : Bool := s.line.rx.any fun st => s.now = st + Config.characterTime

/-- The round timer has reached P + 800 µs in LISTENING, and no character that could be a mark completes now
(R9; log 16). -/
def State.listeningDue (s : State) : Bool :=
  s.running && s.link.state = .listening && s.period + Config.listeningMargin ≤ s.roundTime && !s.completingNow

/-- The LISTENING local boundary (R9). -/
def State.listeningLocal (s : State) : State :=
  if s.listeningDue then s.takeBoundary .localTimed (s.round.number + 1) else s

/-- LISTENING_LOCAL_BOUNDARY (R9). -/
def execListeningLocalBoundary (after : Wait) (s : State) : Host.Outcome State Fault Refusal :=
  command after State.listeningLocal s

/-- The next slot window has run out at an enabled receiver (R17). -/
def State.slotCloseDue (s : State) : Bool :=
  s.running && s.link.state.receives && s.round.slotsClosed < 16 && slotOpens (s.round.slotsClosed + 1) ≤ s.roundTime

/-- The next slot window closes: an attempt in it with fewer than fifteen characters is discarded and sets SHORT, but one
whose missing characters have begun waits for them (R3, R16, R17; log 14). -/
def State.closeSlot (s : State) : State :=
  State.settleAttempt { s with round := { s.round with slotsClosed := s.round.slotsClosed + 1 } }

/-- SLOT_WINDOW_CLOSE (R17). -/
def execSlotWindowClose (after : Wait) (s : State) : Host.Outcome State Fault Refusal :=
  command after (fun s => if s.slotCloseDue then s.closeSlot else s) s

end Sys2Proof.Machine
end

