-- ==== Sys2Proof/Machine/BoundaryRows.lean ====
section
/-! DEFINITION. The commands for what comes about at a round boundary: each takes the whole boundary that it names, and
takes effect when the row comes about in it (log 6). -/

namespace Sys2Proof.Machine

/-- The event that takes a boundary. -/
def State.boundaryEvent (s : State) (b : BoundaryEvent) : State :=
  match b with
  | .standbyLocal => s.standbyLocal
  | .listeningLocal => s.listeningLocal
  | .character c => s.completeCharacter c

/-- A boundary was taken at this instant. -/
def State.justTaken (s : State) : Bool := s.round.start = s.now

/-- The boundary event is taken when its row comes about in it, judged on the state before and after; otherwise only
time passes (log 5, log 6). -/
def State.whenComesAbout (s : State) (b : BoundaryEvent) (row : State → State → Bool) : State :=
  if (s.boundaryEvent b).justTaken && row s (s.boundaryEvent b) then s.boundaryEvent b else s

/-- Channel `n` is latched with cause SLIP (R95). -/
def slipRow (n : Channel) (s t : State) : Bool := !s.isFaulted n && t.chans.get n = .faulted .slip

/-- SLIP (R95). -/
def execSlip (after : Wait) (b : BoundaryEvent) (n : Channel) (s : State) : Host.Outcome State Fault Refusal :=
  command after (fun s => s.whenComesAbout b (slipRow n)) s

/-- SHARE_ALARM: the share alarm is set (R100, R101). -/
def execShareAlarm (after : Wait) (b : BoundaryEvent) (s : State) : Host.Outcome State Fault Refusal :=
  command after (fun s => s.whenComesAbout b fun s t => !s.meas.alarm && t.meas.alarm) s

/-- SHARE_ALARM_CLEAR: the share alarm is cleared (R100). -/
def execShareAlarmClear (after : Wait) (b : BoundaryEvent) (s : State) : Host.Outcome State Fault Refusal :=
  command after (fun s => s.whenComesAbout b fun s t => s.meas.alarm && !t.meas.alarm) s

/-- A PRESENT entry of another station has missed its third boundary (R38). -/
def silentRow (st : Station) (s _t : State) : Bool :=
  s.link.state.receives && st != s.station && (s.entry st).presence = .present && (s.entry st).aged.presence = .silent

/-- ENTRY_SILENT (R38). -/
def execEntrySilent (after : Wait) (b : BoundaryEvent) (st : Station) (s : State) : Host.Outcome State Fault Refusal :=
  command after (fun s => s.whenComesAbout b (silentRow st)) s

/-- A SILENT entry of another station has missed its sixteenth boundary (R38). -/
def agedOutRow (st : Station) (s _t : State) : Bool :=
  s.link.state.receives && st != s.station && (s.entry st).presence = .silent && (s.entry st).aged.presence = .absent

/-- ENTRY_AGED_OUT (R38). -/
def execEntryAgedOut (after : Wait) (b : BoundaryEvent) (st : Station) (s : State) : Host.Outcome State Fault Refusal :=
  command after (fun s => s.whenComesAbout b (agedOutRow st)) s

/-- LISTEN_TIMEOUT: the listen count reaches 3 (R26). -/
def execListenTimeout (after : Wait) (b : BoundaryEvent) (s : State) : Host.Outcome State Fault Refusal :=
  command after
    (fun s => s.whenComesAbout b fun s t =>
      s.link.state = .listening && s.link.listenCount = 2 && t.link.state = .active) s

/-- JOIN_QUALIFIED: the join count reaches 3 (R26). -/
def execJoinQualified (after : Wait) (b : BoundaryEvent) (s : State) : Host.Outcome State Fault Refusal :=
  command after
    (fun s => s.whenComesAbout b fun s t =>
      s.link.state = .listening && s.link.joinCount = 2 && t.link.state = .active) s

/-- LEAVE_COMPLETE: the boundary after the flagged report (R28). -/
def execLeaveComplete (after : Wait) (b : BoundaryEvent) (s : State) : Host.Outcome State Fault Refusal :=
  command after
    (fun s => s.whenComesAbout b fun s t =>
      s.link.state = .leaving && s.link.leave = .sent && t.link.state = .standby) s

/-- DRAW_ALARM: the draw alarm is set (R123, R124). -/
def execDrawAlarm (after : Wait) (b : BoundaryEvent) (s : State) : Host.Outcome State Fault Refusal :=
  command after (fun s => s.whenComesAbout b fun s t => !s.draw.alarm && t.draw.alarm) s

/-- DRAW_ALARM_CLEAR: the draw alarm is cleared (R123). -/
def execDrawAlarmClear (after : Wait) (b : BoundaryEvent) (s : State) : Host.Outcome State Fault Refusal :=
  command after (fun s => s.whenComesAbout b fun s t => s.draw.alarm && !t.draw.alarm) s

/-- A proposal is pending. -/
def PendingRequest.isPropose : PendingRequest → Bool
  | .propose _ _ => true
  | .none => false
  | .abort => false

/-- CLAIM_BOUNDARY: the first boundary after a PROPOSE_TRIAL was taken (R50). -/
def execClaimBoundary (after : Wait) (b : BoundaryEvent) (s : State) : Host.Outcome State Fault Refusal :=
  command after
    (fun s => s.whenComesAbout b fun s _ => s.trial.phase = .idle && s.trial.request.isPropose) s

/-- CLAIM_LAPSED: a claim is dropped at a + 6 (R55). -/
def execClaimLapsed (after : Wait) (b : BoundaryEvent) (s : State) : Host.Outcome State Fault Refusal :=
  command after
    (fun s => s.whenComesAbout b fun s t =>
      s.trial.phase = .accepting && t.trial.phase = .idle && t.lastOutcome.code = Reason.lapsed.code) s

/-- NO_QUORUM: the accept window ends at c + 5 without the required acceptances (R56, item 7). A refusal whose reason
byte is that of NO_QUORUM is item 4's. -/
def execNoQuorum (after : Wait) (b : BoundaryEvent) (s : State) : Host.Outcome State Fault Refusal :=
  command after
    (fun s => s.whenComesAbout b fun s t =>
      s.trial.phase = .proposing && t.trial.phase = .recovering && t.lastOutcome.outcome = .withdrawn
        && t.lastOutcome.code = Reason.noQuorum.code && t.heardRefusal.isNone) s

/-- TRIAL_START: the record enters RUNNING (R60). -/
def execTrialStart (after : Wait) (b : BoundaryEvent) (s : State) : Host.Outcome State Fault Refusal :=
  command after
    (fun s => s.whenComesAbout b fun s t => s.trial.phase != .running && t.trial.phase = .running) s

/-- TRIAL_COMPLETED: rounds remaining reaches 0 (R62). -/
def execTrialCompleted (after : Wait) (b : BoundaryEvent) (s : State) : Host.Outcome State Fault Refusal :=
  command after
    (fun s => s.whenComesAbout b fun s t =>
      s.trial.phase = .running && t.trial.phase = .recovering && t.lastOutcome.outcome = .completed) s

/-- RECOVERY_DONE: the record returns to IDLE, where it may adopt a claim at once (R68). -/
def execRecoveryDone (after : Wait) (b : BoundaryEvent) (s : State) : Host.Outcome State Fault Refusal :=
  command after
    (fun s => s.whenComesAbout b fun s t => s.trial.phase = .recovering && t.trial.phase != .recovering) s

end Sys2Proof.Machine
end

