-- ==== Sys2Proof/Machine/RevolutionCheck.lean ====
section
/-! DEFINITION. The Revolution Check Unit: its edges, its timer and its requests (06). -/

namespace Sys2Proof.Machine

/-- The verdict of a count against the expected pulses (R111). -/
def verdictOf (expected : Nat) (count : Int) : Verdict :=
  if count < 0 then .reversed
  else if 0 < count && (count - expected).natAbs ≤ 1 then .isMatch
  else .mismatch

/-- A speed edge at the Revolution Check Unit: counted in COUNTING on the channel under check, or the end with
OVERRANGE (R109, R110). -/
def State.checkSpeedEdge (s : State) (n : Channel) (forward : Bool) : State :=
  if s.check.state = .counting && s.check.channel = n then
    let c := s.check.count + (if forward then 1 else -1)
    if 65535 < c.natAbs then s.endCheck (.incomplete .overrange)
    else { s with check := { s.check with count := c } }
  else s

/-- An index edge at the Revolution Check Unit (R109, R111). -/
def State.checkIndexEdge (s : State) (n : Channel) : State :=
  if s.check.channel = n then
    match s.check.state with
    | .armed =>
      { s with check := { s.check with
          state := .counting, count := 0, firstIndex := s.now, timer := .running s.now } }
    | .counting =>
      State.endCheck { s with check := { s.check with revTime := s.now - s.check.firstIndex } }
        (verdictOf (s.cfg.chan.get n).expected s.check.count)
    | .idle => s
    | .done => s
  else s

/-- The index timer has reached 60 s (R113). -/
def State.indexTimeoutDue (s : State) : Bool :=
  s.running && s.checkUnderWay && Config.indexLimit ≤ s.indexReading

/-- INDEX_TIMEOUT (R113). -/
def execIndexTimeout (after : Wait) (s : State) : Host.Outcome State Fault Refusal :=
  command after (fun s => if s.indexTimeoutDue then s.endCheck (.incomplete .noIndex) else s) s

/-- The check is armed on a channel (R108). -/
def State.armCheck (s : State) (n : Channel) : State :=
  { s with check :=
      { state := .armed, channel := n, count := 0, verdict := .none, timer := .running s.now, firstIndex := 0,
        revTime := 0 } }

/-- REV_CHECK's checks and effect (R108). -/
def revCheckWork (p : List Byte) (s : State) : State × Response :=
  let n : Channel := ((nth p 0).extractLsb' 0 2).toFin
  if 3 < (nth p 0).toNat then (s, .refused .invalid)
  else if s.checkUnderWay then (s, .refused .busy)
  else if !s.ready n then (s, .refused .drives)
  else (s.armCheck n, .ok [])

/-- REV_CHECK (R108). -/
def execRevCheck (after : Wait) (s : State) : Host.Outcome State Fault Refusal :=
  command after (execution .revCheck revCheckWork) s

/-- CANCEL_CHECK's effect (R114). -/
def cancelCheckWork (_ : List Byte) (s : State) : State × Response :=
  if s.checkUnderWay then (s.endCheck (.incomplete .cancelled), .ok []) else (s, .refused .noCheck)

/-- CANCEL_CHECK (R114). -/
def execCancelCheck (after : Wait) (s : State) : Host.Outcome State Fault Refusal :=
  command after (execution .cancelCheck cancelCheckWork) s

/-- The 15 bytes of READ_CHECK (R116, R195). -/
def State.checkBytes (s : State) : List Byte :=
  [s.check.state.code, byteOf s.check.channel.val]
  ++ unsigned16 (s.cfg.chan.get s.check.channel).expected
  ++ bytes24 (BitVec.ofInt 24 s.check.count)
  ++ [s.check.verdict.code, s.check.verdict.causeCode]
  ++ unsigned16 (s.indexReading / 1000)
  ++ bytes32 (BitVec.ofNat 32 s.check.revTime)

/-- READ_CHECK (R116). -/
def execReadCheck (after : Wait) (s : State) : Host.Outcome State Fault Refusal :=
  command after (execution .readCheck fun _ s => (s, .ok s.checkBytes)) s

end Sys2Proof.Machine
end

