-- ==== Sys2Proof/Machine/DriveInputs.lean ====
section
/-! DEFINITION. The Input Conditioner, the Channel Counters, the channel states and the break line (04, 09). -/

namespace Sys2Proof.Machine

/-! ### Channel counters (R78 to R80) -/

/-- The net count with one more edge, held at its limits (R78). -/
def Counters.countEdge (c : Counters) (forward : Bool) : Int :=
  clamp (-32767) 32767 (c.net + (if forward then 1 else -1))

/-- The edge history with one more edge (R79). -/
def History.push (h : History) (at_ : Nat) (forward : Bool) : History :=
  match h with
  | .empty => .one at_ forward
  | .one newer _ => .two newer at_ forward
  | .two _ newer _ => .two newer at_ forward

/-- A speed edge at a channel's counters (R78 to R80). -/
def Counters.speedEdge (c : Counters) (at_ : Nat) (forward : Bool) : Counters :=
  { c with net := c.countEdge forward, history := c.history.push at_ forward, stallFrom := at_, stalled := false }

/-- A load edge at a channel's counters (R78). -/
def Counters.loadEdge (c : Counters) : Counters := { c with loads := min (c.loads + 1) 65535 }

/-- A channel's counters are replaced. -/
def State.setCounters (s : State) (n : Channel) (c : Counters) : State :=
  { s with counters := s.counters.set n c }

/-- A sensed channel's stall timer reaches the stall time (R80). -/
def State.stallDue (s : State) (n : Channel) : Bool :=
  let c := s.counters.get n
  s.running && s.sensed n && !c.stalled && c.stallFrom + 1000 * s.cfg.stallTime ≤ s.now

/-- The channel stalls (R80). -/
def State.stallChannel (s : State) (n : Channel) : State :=
  s.setCounters n { s.counters.get n with history := .empty, stalled := true }

/-- STALL (R80). -/
def execStall (after : Wait) (n : Channel) (s : State) : Host.Outcome State Fault Refusal :=
  command after (fun s => if s.stallDue n then s.stallChannel n else s) s

/-! ### Fast filters (R73 to R75) -/

/-- The fast filter of a line is replaced. -/
def State.setFast (s : State) (l : FastLine) (n : Channel) (f : FastFilter) : State :=
  match l with
  | .spd => { s with inputs := { s.inputs with spd := s.inputs.spd.set n f } }
  | .ldf => { s with inputs := { s.inputs with ldf := s.inputs.ldf.set n f } }
  | .idx => { s with inputs := { s.inputs with idx := s.inputs.idx.set n f } }

/-- A set with one channel's bit at a level. -/
def withLevel (m : ChannelSet) (n : Channel) (level : Bool) : ChannelSet :=
  if level then m ||| BitVec.twoPow 4 n.val else m &&& ~~~(BitVec.twoPow 4 n.val)

/-- The raw level of a DIR line is seen (R75; log 32). -/
def State.seeDir (s : State) (n : Channel) (level : Bool) : State :=
  { s with pins := { s.pins with dir := withLevel s.pins.dir n level } }

/-- An edge of a pulse line to this level is taken: the channel is sensed, the filtered level is the other one, and the
raw line has differed from it for long enough (R72, R73). -/
def State.edgeDue (s : State) (l : FastLine) (n : Channel) (level : Bool) : Bool :=
  s.running && s.sensed n && (s.fastFilter l n).level != level && (s.fastFilter l n).taken s.cfg.fastWidth

/-- The filtered level changes, and its time returns to 0 (R73). -/
def State.takeEdge (s : State) (l : FastLine) (n : Channel) (level : Bool) : State :=
  s.setFast l n { level := level, differs := 0, held := false }

/-- A speed edge is delivered: to the counters and to the Revolution Check Unit (R74, R75, R78). -/
def State.speedEdge (s : State) (n : Channel) (dir : Bool) : State :=
  let t := (s.takeEdge .spd n true).seeDir n dir
  (t.setCounters n ((t.counters.get n).speedEdge t.now dir)).checkSpeedEdge n dir

/-- SPEED_EDGE (R75, R78). -/
def execSpeedEdge (after : Wait) (n : Channel) (dir : Bool) (s : State) : Host.Outcome State Fault Refusal :=
  command after (fun s => if s.edgeDue .spd n true then s.speedEdge n dir else s) s

/-- LOAD_EDGE (R74, R78). -/
def execLoadEdge (after : Wait) (n : Channel) (s : State) : Host.Outcome State Fault Refusal :=
  command after
    (fun s =>
      if s.edgeDue .ldf n true then
        let t := s.takeEdge .ldf n true
        t.setCounters n (t.counters.get n).loadEdge
      else s) s

/-- INDEX_EDGE (R74, R109, R111). -/
def execIndexEdge (after : Wait) (n : Channel) (s : State) : Host.Outcome State Fault Refusal :=
  command after (fun s => if s.edgeDue .idx n true then (s.takeEdge .idx n true).checkIndexEdge n else s) s

/-- FAST_FILTER_FALLING_EDGE: the filtered level returns low and nothing is delivered (R74). -/
def execFastFilterFallingEdge (after : Wait) (line : FastLine) (n : Channel) (s : State) :
    Host.Outcome State Fault Refusal :=
  command after (fun s => if s.edgeDue line n false then s.takeEdge line n false else s) s

/-! ### Slow filters (R76, R77) -/

/-- A slow filter at a sample, given whether the sampled level is the active one; the run count is held at q until the
change it brings is taken (R76). -/
def SlowFilter.sample (f : SlowFilter) (q : Nat) (raw : Bool) : SlowFilter :=
  { f with run := if raw = f.active then 0 else min (f.run + 1) q }

/-- A slow filter takes the new level (R76). -/
def SlowFilter.flip (f : SlowFilter) : SlowFilter := { active := !f.active, run := 0 }

/-- A slow filter's run count has reached q (R76). -/
def State.flipDue (s : State) (f : SlowFilter) : Bool := s.running && s.config.isSome && f.run = s.cfg.slowTime

/-- A slow filter sample falls due: one for each millisecond since CONFIGURE was accepted (R76). -/
def State.sampleDue (s : State) : Bool :=
  s.running && s.config.isSome && s.inputs.sensedFrom + Config.samplePeriod * (s.inputs.samples + 1) ≤ s.now

/-- A slow filter sample of every sensed line (R76). -/
def State.sampleSlow (s : State) (v : SlowLevels) : State :=
  let q := s.cfg.slowTime
  { s with
    pins := { s.pins with rdy := v.rdy, flt := v.flt, brk := v.brk }
    inputs := { s.inputs with
      samples := s.inputs.samples + 1
      rdy := Quad.ofFn fun n =>
        let f := s.inputs.rdy.get n
        if s.sensed n then f.sample q (v.rdy.getLsbD n.val) else f
      flt := Quad.ofFn fun n =>
        let f := s.inputs.flt.get n
        if s.sensed n then f.sample q (!v.flt.getLsbD n.val) else f
      brk := s.inputs.brk.sample q (!v.brk) } }

/-- SLOW_FILTER_SAMPLE (R76). -/
def execSlowFilterSample (after : Wait) (levels : SlowLevels) (s : State) : Host.Outcome State Fault Refusal :=
  command after (fun s => if s.sampleDue then s.sampleSlow levels else s) s

/-! ### Channel states (R84 to R87) -/

/-- The filtered RDY level of a channel is active. -/
def State.rdyActive (s : State) (n : Channel) : Bool := (s.inputs.rdy.get n).active

/-- The filtered FLT level of a channel is active. -/
def State.fltActive (s : State) (n : Channel) : Bool := (s.inputs.flt.get n).active

/-- A channel's filtered RDY level has become active (R84). The slip count stands as the last boundary left it (log 45). -/
def State.rdyRises (s : State) (n : Channel) : State :=
  if s.chans.get n = .offline && !s.fltActive n then s.setChannel n .ready else s

/-- A channel's filtered RDY level has become inactive (R84). -/
def State.rdyFalls (s : State) (n : Channel) : State :=
  if s.ready n then (s.setChannel n .offline).leaveReady n else s

/-- The RDY filter takes its new level, and the channel state follows (R84). -/
def State.changeRdy (s : State) (n : Channel) : State :=
  let t : State := { s with inputs := { s.inputs with rdy := s.inputs.rdy.set n (s.inputs.rdy.get n).flip } }
  if t.rdyActive n then t.rdyRises n else t.rdyFalls n

/-- RDY_CHANGE (R84). -/
def execRdyChange (after : Wait) (n : Channel) (s : State) : Host.Outcome State Fault Refusal :=
  command after (fun s => if s.sensed n && s.flipDue (s.inputs.rdy.get n) then s.changeRdy n else s) s

/-- The FLT filter takes its new level; active, it latches a channel that is OFFLINE or READY (R84, R85). -/
def State.changeFlt (s : State) (n : Channel) : State :=
  let t : State := { s with inputs := { s.inputs with flt := s.inputs.flt.set n (s.inputs.flt.get n).flip } }
  if t.fltActive n && (t.chans.get n = .offline || t.ready n) then t.latchFault n .faultInput else t

/-- FLT_CHANGE (R84, R85, R86). -/
def execFltChange (after : Wait) (n : Channel) (s : State) : Host.Outcome State Fault Refusal :=
  command after (fun s => if s.sensed n && s.flipDue (s.inputs.flt.get n) then s.changeFlt n else s) s

/-- One channel's release by CLEAR_FAULTS (R87, R96). -/
def State.releaseChannel (s : State) (n : Channel) : State :=
  if s.isFaulted n && !s.fltActive n then
    { s with
      chans := s.chans.set n (if s.rdyActive n then .ready else .offline)
      meas := { s.meas with chan := s.meas.chan.set n { s.meas.chan.get n with slip := 0 } } }
  else s

/-- CLEAR_FAULTS's effect (R87). -/
def clearFaultsWork (_ : List Byte) (s : State) : State × Response :=
  let t := channels.foldl State.releaseChannel s
  (t, .ok (channels.map fun n => (t.chans.get n).byte))

/-- CLEAR_FAULTS (R87). -/
def execClearFaults (after : Wait) (s : State) : Host.Outcome State Fault Refusal :=
  command after (execution .clearFaults clearFaultsWork) s

/-! ### The break line (R149, R151, R153) -/

/-- The filtered BRK level has become active: the latch and the mark are set, and at a latching from clear the trims
are forced and BREAK is raised (R149, R151). -/
def State.latchBreak (s : State) : State :=
  if s.brk.latch then State.reselect { s with brk := { s.brk with mark := true } }
  else
    State.raise ((State.setManual { s with brk := { latch := true, mark := true } } 0).setClass .recovery) .brk

/-- The BRK filter takes its new level (R149). -/
def State.changeBrk (s : State) : State :=
  let t : State := { s with inputs := { s.inputs with brk := s.inputs.brk.flip } }
  if t.inputs.brk.active then t.latchBreak else t

/-- BRK_CHANGE (R149, R151). -/
def execBrkChange (after : Wait) (s : State) : Host.Outcome State Fault Refusal :=
  command after (fun s => if s.flipDue s.inputs.brk then s.changeBrk else s) s

/-- The latch and the filtered BRK level, one byte each (R195). -/
def State.breakBytes (s : State) : List Byte := [flagByte s.brk.latch, flagByte s.inputs.brk.active]

/-- CLEAR_BREAK's check and effect (R153). -/
def clearBreakWork (_ : List Byte) (s : State) : State × Response :=
  if s.inputs.brk.active then
    (s, { status := .refused, body := Reason.inputActive.code :: s.breakBytes, readLog := false })
  else
    let t := State.reselect { s with brk := { s.brk with latch := false } }
    (t, .ok t.breakBytes)

/-- CLEAR_BREAK (R153, R154). -/
def execClearBreak (after : Wait) (s : State) : Host.Outcome State Fault Refusal :=
  command after (execution .clearBreak clearBreakWork) s

end Sys2Proof.Machine
end

