-- ==== Sys2Proof/Machine/Membership.lean ====
section
/-! DEFINITION. CONFIGURE, JOIN and LEAVE (02, 11). -/

namespace Sys2Proof.Machine

/-- Where a channel stands when CONFIGURE is accepted (R83). -/
def ConfigRecord.firstState (c : ConfigRecord) (n : Channel) : ChannelState :=
  if n.val < c.driveCount then .offline else .disabled

/-- The fast filters of one kind of line when CONFIGURE is accepted: low, a line already high held until it is seen low
(R74). -/
def filtersAtConfig (raw : ChannelSet) : Quad FastFilter :=
  Quad.ofFn fun n => { level := false, differs := 0, held := raw.getLsbD n.val }

/-- An accepted CONFIGURE (R186): the record is held, STANDBY, the round timer starts, the filters, counters and
channel states start (R8, R72, R74, R77, R80, R82, R83). -/
def State.acceptConfig (s : State) (c : ConfigRecord) : State :=
  { s with
    config := some c
    link := { s.link with state := .standby }
    round := { RoundTimer.reset with start := s.now }
    inputs := { Inputs.reset with
      spd := filtersAtConfig s.pins.spd, ldf := filtersAtConfig s.pins.ldf, idx := filtersAtConfig s.pins.idx
      sensedFrom := s.now }
    counters := Quad.all { Counters.reset with stallFrom := s.now }
    chans := Quad.ofFn c.firstState }

/-- CONFIGURE's checks and effect (R184, R186). -/
def configureWork (p : List Byte) (s : State) : State × Response :=
  match configFailure s.station p with
  | some i => (s, { status := .invalid, body := [byteOf i], readLog := false })
  | none => (s.acceptConfig (ConfigRecord.ofBytes p), .ok [byteOf s.station.val])

/-- CONFIGURE (R184). -/
def execConfigure (after : Wait) (s : State) : Host.Outcome State Fault Refusal :=
  command after (execution .configure configureWork) s

/-- JOIN's effect: LISTENING with both counts 0, in an unsynchronised round (R24, R9, R10). The lost-round flag of the round
under way stands until the next boundary (log 38). -/
def joinWork (_ : List Byte) (s : State) : State × Response :=
  ({ s with
      link := { s.link with state := .listening, listenCount := 0, joinCount := 0 }
      line := s.line.off
      round := { s.round with synced := false, ownSlot := .unobserved } }, .ok [])

/-- JOIN (R24). -/
def execJoin (after : Wait) (s : State) : Host.Outcome State Fault Refusal :=
  command after (execution .join joinWork) s

/-- LEAVE's check and effect, by link state (R27). -/
def leaveWork (_ : List Byte) (s : State) : State × Response :=
  if s.link.state = .listening then (s.enterStandby.raise .left, .ok [])
  else if s.trialIdle then ({ s with link := { s.link with state := .leaving, leave := .owed } }, .ok [])
  else (s, .refused .busy)

/-- LEAVE (R27). -/
def execLeave (after : Wait) (s : State) : Host.Outcome State Fault Refusal :=
  command after (execution .leave leaveWork) s

end Sys2Proof.Machine
end

