-- ==== Sys2Proof/Machine/Port.lean ====
section
/-! DEFINITION. The Service Port's wires: transactions, what they shift out, the read-out of a log record; and the
port's own short requests (11). -/

namespace Sys2Proof.Machine

/-! ### What a transaction shifts out (R172, R174, R196) -/

/-- Byte `k` that an ordinary transaction shifts out (R172). -/
def State.pendingByte (s : State) (k : Nat) : Byte :=
  match s.port.response with
  | none => 0
  | some r => nth r.bytes k

/-- Byte `k` that the transaction under way shifts out; none while SDO is released (R171, R172, R174). -/
def State.shiftedOut (s : State) (k : Nat) : Option Byte :=
  match s.port.txn with
  | .none => none
  | .ordinary => some (s.pendingByte k)
  | .busy => some 0xFF

/-- Bit `k` that the transaction under way shifts out, the most significant bit of each byte first (R171, R196). -/
def State.shiftedBit (s : State) (k : Nat) : Option Bool := (s.shiftedOut (k / 8)).map (·.getLsbD (7 - k % 8))

/-- The level on SDO, or none while SDO is released: bit 0 from the fall of SSEL, and the next bit at each falling edge of
SCK (R171, R196). -/
def State.sdo (s : State) : Option Bool := s.shiftedBit s.pins.sckFalls

/-! ### Transactions (R171 to R174) -/

/-- `n` falling edges of SCK have passed since SSEL fell. -/
def State.setFalls (s : State) (n : Nat) : State := { s with pins := { s.pins with sckFalls := n } }

/-- A transaction begins with its first bit on SDO: an ordinary one while SRDY is high, a busy one while it is low
(R171, R172, R174, R196). -/
def State.beginTransaction (s : State) : State :=
  let t := s.setFalls 0
  if s.port.srdy then { t with port := { t.port with txn := .ordinary } }
  else State.raise { t with port := { t.port with txn := .busy } } .portOverrun

/-- SSEL falls: a transaction begins unless a reset is held (R171, R188). -/
def State.selFalls (s : State) : State :=
  if s.port.sselLow then s
  else
    let t : State := { s with port := { s.port with sselLow := true } }
    t.live State.beginTransaction

/-- TRANSACTION_START (R171). -/
def execTransactionStart (after : Wait) (s : State) : Host.Outcome State Fault Refusal :=
  command after State.selFalls s

/-- A READ_LOG response is being shifted out and its removal mark is still set (R167). -/
def State.readoutOpen (s : State) : Bool :=
  s.running && s.port.txn = .ordinary && s.port.response.any (·.readLog) && s.log.removal

/-- The head record is removed and the mark cleared (R167). -/
def State.removeHead (s : State) : State :=
  { s with log := { s.log with records := s.log.records.drop 1, removal := false } }

/-- READ_LOG_READOUT_COMPLETE: the 200th rising edge, before which SCK has fallen 199 times, so that SDO carries the last
record bit (R167, R196). -/
def execReadLogReadoutComplete (after : Wait) (s : State) : Host.Outcome State Fault Refusal :=
  command after (fun s => if s.readoutOpen then s.removeHead.setFalls (Config.readoutEdges - 1) else s) s

/-- The end of a transaction settles a removal mark that is still set: with the head's removal when the bits shifted
reach the 200th edge, and without it when they do not (R167, R196). -/
def State.settleReadout (s : State) (edges : Nat) : State :=
  if s.readoutOpen then
    if Config.readoutEdges ≤ edges then s.removeHead else { s with log := { s.log with removal := false } }
  else s

/-- SSEL rises on an ordinary transaction: its whole bytes are a request, and the response is consumed; with no whole
byte, neither (R171 to R173). -/
def State.takeRequest (s : State) (bytes : List Byte) : State :=
  match bytes with
  | [] => s
  | _ :: _ =>
    { s with port := { s.port with
        srdy := false, request := storedRequest bytes, requestAt := s.now, response := none } }

/-- SSEL rises, and the transaction under way ends (R171 to R174). -/
def State.selRises (s : State) (bits : List Bool) : State :=
  if s.port.sselLow then
    let settled := s.settleReadout bits.length
    let t : State := { settled with port := { settled.port with sselLow := false, txn := .none } }
    match s.port.txn with
    | .none => t
    | .busy => t
    | .ordinary => t.takeRequest (wholeBytes bits)
  else s

/-- TRANSACTION_END, with the SDI bit of each rising SCK edge (R171). -/
def execTransactionEnd (after : Wait) (bits : List Bool) (s : State) : Host.Outcome State Fault Refusal :=
  command after (fun s => s.selRises bits) s

/-! ### Requests of this chapter (R175, R177, R180 to R182, R22) -/

/-- A request with an undefined code is in execution. -/
def State.unknownExecuting (s : State) : Bool :=
  s.running && !s.port.srdy && s.port.request.head?.any fun c => (Request.ofCode c).isNone

/-- UNKNOWN_REQUEST (R175). -/
def execUnknownRequest (after : Wait) (s : State) : Host.Outcome State Fault Refusal :=
  command after
    (fun s => if s.unknownExecuting then s.answer { status := .unknown, body := [], readLog := false } else s) s

/-- NOP (R177). -/
def execNop (after : Wait) (s : State) : Host.Outcome State Fault Refusal :=
  command after (execution .nop fun _ s => (s, .ok [])) s

/-- READ_EVENTS's effect: the flags shown are cleared (R181). -/
def readEventsWork (_ : List Byte) (s : State) : State × Response :=
  ({ s with port := { s.port with events := 0 } }, .ok (bytes16 s.port.events ++ bytes16 s.port.mask))

/-- READ_EVENTS (R181). -/
def execReadEvents (after : Wait) (s : State) : Host.Outcome State Fault Refusal :=
  command after (execution .readEvents readEventsWork) s

/-- SET_EVENT_MASK's effect (R182). -/
def setEventMaskWork (p : List Byte) (s : State) : State × Response :=
  let m := word16 p 0 &&& eventPositions
  ({ s with port := { s.port with mask := m } }, .ok (bytes16 m ++ bytes16 s.port.events))

/-- SET_EVENT_MASK (R182). -/
def execSetEventMask (after : Wait) (s : State) : Host.Outcome State Fault Refusal :=
  command after (execution .setEventMask setEventMaskWork) s

/-- READ_LINK_ERRORS (R22). -/
def execReadLinkErrors (after : Wait) (s : State) : Host.Outcome State Fault Refusal :=
  command after (execution .readLinkErrors fun _ s => (s, .ok [s.line.errors])) s

/-- CLEAR_LINK_ERRORS's effect (R22). -/
def clearLinkErrorsWork (_ : List Byte) (s : State) : State × Response :=
  ({ s with line := { s.line with errors := 0 } }, .ok [])

/-- CLEAR_LINK_ERRORS (R22). -/
def execClearLinkErrors (after : Wait) (s : State) : Host.Outcome State Fault Refusal :=
  command after (execution .clearLinkErrors clearLinkErrorsWork) s

end Sys2Proof.Machine
end

