-- ==== Sys2Proof/Machine/Readback.lean ====
section
/-! DEFINITION. The snapshots the host reads: READ_STATUS and READ_ROSTER (R178, R179, R195). -/

namespace Sys2Proof.Machine

/-- A share or deviation, or its not-computed mark (R195). -/
def shareBytes (x : Option Int) : List Byte := bytes16 (loadWord x)

/-- The eleven bytes of a channel's measurement. A DISABLED channel shows the invalid codes; a speed or load that no
boundary has given yet reads 0 (log 27). -/
def State.measureBytes (s : State) (n : Channel) : List Byte :=
  let v := s.meas.chan.get n
  let speed := if s.sensed n then BitVec.ofInt 24 (v.speed.getD 0) else invalidSpeed
  let load := if s.sensed n then BitVec.ofInt 16 (v.load.getD 0) else invalidLoad
  [v.method.code] ++ bytes24 speed ++ bytes16 load ++ shareBytes v.share ++ shareBytes v.deviation ++ [byteOf v.slip]

/-- The configured upstream station; 0 without a configuration record (R178; log 27). -/
def State.upstreamByte (s : State) : Byte :=
  match s.config with
  | none => 0
  | some c =>
    match c.upstream with
    | some u => byteOf u.val
    | none => 0xFF

/-- Bytes 0 to 32 of the status: node, link, roster, channels (R195). -/
def State.statusNode (s : State) : List Byte :=
  [byteOf s.station.val, s.pins.straps.setWidth 8, byteOf s.cfg.periodCode, byteOf s.cfg.driveCount,
    s.link.state.code, byteOf s.link.listenCount, byteOf s.link.joinCount, s.link.leave.code, s.round.number,
    flagByte s.round.lost]
  ++ stations.map (fun t => (s.entry t).presence.code)
  ++ channels.map (fun n => (s.chans.get n).byte)
  ++ [setByte (channelSet fun n => (s.inputs.rdy.get n).active),
    setByte (channelSet fun n => (s.inputs.flt.get n).active), flagByte s.inputs.brk.active]

/-- Bytes 33 to 85 of the status: measurement (R195). -/
def State.statusMeasure (s : State) : List Byte :=
  s.measureBytes 0 ++ s.measureBytes 1 ++ s.measureBytes 2 ++ s.measureBytes 3
  ++ bytes24 (speedWord s.meas.speed) ++ bytes16 (loadWord s.meas.load)
  ++ [flagByte s.meas.sharesComputed, flagByte s.meas.alarm, byteOf s.meas.outRun, byteOf s.meas.inRun]

/-- Bytes 86 to 99 of the status: draw (R195). -/
def State.statusDraw (s : State) : List Byte :=
  [s.upstreamByte] ++ signed16 s.draw.value ++ s.draw.state.codes
  ++ [s.draw.position.code, flagByte s.draw.hard, flagByte s.draw.alarm, byteOf s.draw.outRun, byteOf s.draw.inRun]
  ++ bytes24 s.draw.upSpeed ++ [byteOf s.draw.upMiss]

/-- Bytes 100 to 125 of the status: trims (R147, R195). -/
def State.statusTrims (s : State) : List Byte :=
  let H := trmHigh s.trim.applied
  signed16 s.trim.manual ++ bytes16 (loadWord s.trim.trialTarget) ++ signed16 s.trim.target ++ signed16 s.trim.applied
  ++ unsigned16 (H / 16) ++ [byteOf (H % 16)]
  ++ signed16 s.trim.shiftTarget ++ signed16 s.trim.shift ++ [byteOf s.trim.drive.val]
  ++ signed16 s.trim.shares.c0 ++ signed16 s.trim.shares.c1 ++ signed16 s.trim.shares.c2 ++ signed16 s.trim.shares.c3
  ++ [s.trim.cls.code, flagByte s.cfg.separateRamps]

/-- The sequence number of the head record, or 0 (R195). -/
def State.headSeq (s : State) : BitVec 16 :=
  match s.log.records with
  | [] => 0
  | r :: _ => r.seq

/-- Bytes 126 to 159 of the status: break, log, port, and the unused rest (R195). -/
def State.statusRest (s : State) : List Byte :=
  [flagByte s.brk.latch, flagByte s.brk.mark, flagByte s.inputs.brk.active]
  ++ unsigned16 s.log.records.length ++ unsigned16 s.freeRecords ++ bytes16 s.headSeq ++ bytes16 s.log.counter
  ++ [byteOf s.log.ring.length, flagByte s.log.removal]
  ++ bytes16 s.port.events ++ bytes16 s.port.mask ++ List.replicate 17 0

/-- The 160 bytes of READ_STATUS (R178, R195). -/
def State.statusBytes (s : State) : List Byte :=
  s.statusNode ++ s.statusMeasure ++ s.statusDraw ++ s.statusTrims ++ s.statusRest

/-- READ_STATUS's effect: the strap levels are those at this instant (R178, R187). -/
def readStatusWork (straps : BitVec 4) (_ : List Byte) (s : State) : State × Response :=
  let t : State := { s with pins := { s.pins with straps := straps } }
  (t, .ok t.statusBytes)

/-- READ_STATUS (R178). -/
def execReadStatus (after : Wait) (straps : BitVec 4) (s : State) : Host.Outcome State Fault Refusal :=
  command after (execution .readStatus (readStatusWork straps)) s

/-- A roster entry's seventeen bytes (R195). -/
def Entry.bytes (e : Entry) : List Byte :=
  [e.presence.code ||| (if e.heard then 0x80#8 else 0), byteOf e.miss, e.lastRound] ++ e.report.bytes

/-- The 272 bytes of READ_ROSTER (R179, R195). -/
def State.rosterBytes (s : State) : List Byte := stations.flatMap fun t => (s.entry t).bytes

/-- READ_ROSTER (R43, R179). -/
def execReadRoster (after : Wait) (s : State) : Host.Outcome State Fault Refusal :=
  command after (execution .readRoster fun _ s => (s, .ok s.rosterBytes)) s

end Sys2Proof.Machine
end

