-- ==== Sys2Proof/Machine/Resets.lean ====
section
/-! DEFINITION. The supply, the RESET pin and SOFT_RESET (R187 to R191). -/

namespace Sys2Proof.Machine

/-- What every reset does to the blocks (R5, R21, R23, R34, R46, R74, R77, R82, R83, R104, R107, R117, R129, R155, R156,
R180, R182, R190): all but the station, the trial sequence counter, the log's records and counter, and the outputs. -/
def State.resetBlocks (s : State) : State :=
  { s with
    config := none
    line := .reset
    round := .reset
    link := .reset
    roster := List.replicate 16 Entry.cleared
    ownReport := .empty
    trial := .empty
    lastOutcome := .empty
    inputs := .reset
    counters := .all .reset
    chans := .all .disabled
    meas := .reset
    check := .reset
    draw := .reset
    trim := .reset
    brk := { latch := false, mark := false }
    log := { s.log with ring := [], last := .empty, latch := none, removal := false }
    port := { s.port with events := 0, mask := 0 } }

/-- The outputs while a hardware reset is held: low, no period running (R142, R188). -/
def Pwm.heldLow : Pwm :=
  { Pwm.started 0 with running := false, trm := false, sht := .all false }

/-- The node held in reset: every block at its reset value, the outputs low, SRDY low, no transaction (R188, R189).
The level of SSEL is a pin's and stays (R171). -/
def State.holdReset (s : State) : State :=
  { s.resetBlocks with
    seqCounter := 0
    log := .reset
    pwm := .heldLow
    port := { Port.reset with srdy := false, sselLow := s.port.sselLow } }

/-- A hardware reset ends: every block holds its reset value, the straps are sampled, the first period starts, SRDY goes
high (R187 to R189). -/
def State.endReset (s : State) (straps : BitVec 4) : State :=
  let h := s.holdReset
  { h with
    pins := { h.pins with straps := straps }
    station := straps.toFin
    pwm := .started h.now
    port := { h.port with srdy := true } }

/-- The reset ends when neither the supply nor the RESET pin holds the node (log 9). -/
def State.maybeEndReset (s : State) (straps : BitVec 4) : State := if s.running then s.endReset straps else s

/-- POWER_ON_RESET: the supply rises, and the node is held in reset (R188). -/
def execPowerOnReset (after : Wait) (s : State) : Host.Outcome State Fault Refusal :=
  command after
    (fun s => State.holdReset { s with power := { s.power with supplied := true, por := true } }) s

/-- POWER_ON_RESET_END: supply and clock are valid (R188). -/
def execPowerOnResetEnd (after : Wait) (straps : BitVec 4) (s : State) : Host.Outcome State Fault Refusal :=
  command after
    (fun s =>
      if s.power.supplied && s.power.por then
        State.maybeEndReset { s with power := { s.power with por := false } } straps
      else s) s

/-- RESET_PIN_ASSERT: the pin goes low, and the node is held in reset (R189). -/
def execResetPinAssert (after : Wait) (s : State) : Host.Outcome State Fault Refusal :=
  command after
    (fun s =>
      if s.power.resetPin then s else State.holdReset { s with power := { s.power with resetPin := true } }) s

/-- RESET_PIN_RELEASE (R189). -/
def execResetPinRelease (after : Wait) (straps : BitVec 4) (s : State) : Host.Outcome State Fault Refusal :=
  command after
    (fun s =>
      if s.power.resetPin then
        State.maybeEndReset { s with power := { s.power with resetPin := false } } straps
      else s) s

/-- POWER_LOSS: the supply falls; nothing of the state outlasts it and every output is released or low
(R188; log 8). -/
def execPowerLoss (after : Wait) (s : State) : Host.Outcome State Fault Refusal :=
  command after
    (fun s => State.holdReset { s with power := { s.power with supplied := false, por := false } }) s

/-- SOFT_RESET's effect: every block reset but for the four things kept; the outputs take neutral from the next period
start (R190, R129). -/
def softResetWork (_ : List Byte) (s : State) : State × Response :=
  ({ s.resetBlocks with pwm := { s.pwm with trmNext := 8000, shtNext := .all 500 } }, .ok [])

/-- SOFT_RESET (R190). -/
def execSoftReset (after : Wait) (s : State) : Host.Outcome State Fault Refusal :=
  command after (execution .softReset softResetWork) s

end Sys2Proof.Machine
end

