-- ==== Sys2Proof/Machine/Dispatch.lean ====
section
/-! DEFINITION. What each command does: one arm for each, a direct call of its meaning. -/

namespace Sys2Proof.Machine

/-- The effect of a command on everything but the queue. -/
def exec (i : Instr) (s : State) : Host.Outcome State Fault Refusal :=
  match i with
  | .powerOnReset after => Sys2Proof.Machine.execPowerOnReset after s
  | .powerOnResetEnd after straps => Sys2Proof.Machine.execPowerOnResetEnd after straps s
  | .resetPinAssert after => Sys2Proof.Machine.execResetPinAssert after s
  | .resetPinRelease after straps => Sys2Proof.Machine.execResetPinRelease after straps s
  | .transactionStart after => Sys2Proof.Machine.execTransactionStart after s
  | .transactionEnd after bits => Sys2Proof.Machine.execTransactionEnd after bits s
  | .readLogReadoutComplete after => Sys2Proof.Machine.execReadLogReadoutComplete after s
  | .unknownRequest after => Sys2Proof.Machine.execUnknownRequest after s
  | .nop after => Sys2Proof.Machine.execNop after s
  | .readStatus after straps => Sys2Proof.Machine.execReadStatus after straps s
  | .readEvents after => Sys2Proof.Machine.execReadEvents after s
  | .setEventMask after => Sys2Proof.Machine.execSetEventMask after s
  | .readLinkErrors after => Sys2Proof.Machine.execReadLinkErrors after s
  | .clearLinkErrors after => Sys2Proof.Machine.execClearLinkErrors after s
  | .readLog after => Sys2Proof.Machine.execReadLog after s
  | .readTrial after => Sys2Proof.Machine.execReadTrial after s
  | .readRoster after => Sys2Proof.Machine.execReadRoster after s
  | .configure after => Sys2Proof.Machine.execConfigure after s
  | .join after => Sys2Proof.Machine.execJoin after s
  | .leave after => Sys2Proof.Machine.execLeave after s
  | .proposeTrial after => Sys2Proof.Machine.execProposeTrial after s
  | .abortTrial after => Sys2Proof.Machine.execAbortTrial after s
  | .manualTrim after => Sys2Proof.Machine.execManualTrim after s
  | .snap after => Sys2Proof.Machine.execSnap after s
  | .flushLog after => Sys2Proof.Machine.execFlushLog after s
  | .revCheck after => Sys2Proof.Machine.execRevCheck after s
  | .cancelCheck after => Sys2Proof.Machine.execCancelCheck after s
  | .readCheck after => Sys2Proof.Machine.execReadCheck after s
  | .clearFaults after => Sys2Proof.Machine.execClearFaults after s
  | .clearBreak after => Sys2Proof.Machine.execClearBreak after s
  | .softReset after => Sys2Proof.Machine.execSoftReset after s
  | .characterStart after stillDominant => Sys2Proof.Machine.execCharacterStart after stillDominant s
  | .characterComplete after c => Sys2Proof.Machine.execCharacterComplete after c s
  | .readbackMismatch after => Sys2Proof.Machine.execReadbackMismatch after s
  | .markWindowOpen after => Sys2Proof.Machine.execMarkWindowOpen after s
  | .origination after => Sys2Proof.Machine.execOrigination after s
  | .standbyLocalBoundary after => Sys2Proof.Machine.execStandbyLocalBoundary after s
  | .listeningLocalBoundary after => Sys2Proof.Machine.execListeningLocalBoundary after s
  | .ownSlotOpen after => Sys2Proof.Machine.execOwnSlotOpen after s
  | .slotWindowClose after => Sys2Proof.Machine.execSlotWindowClose after s
  | .speedEdge after n dir => Sys2Proof.Machine.execSpeedEdge after n dir s
  | .loadEdge after n => Sys2Proof.Machine.execLoadEdge after n s
  | .indexEdge after n => Sys2Proof.Machine.execIndexEdge after n s
  | .rdyChange after n => Sys2Proof.Machine.execRdyChange after n s
  | .fltChange after n => Sys2Proof.Machine.execFltChange after n s
  | .brkChange after => Sys2Proof.Machine.execBrkChange after s
  | .stall after n => Sys2Proof.Machine.execStall after n s
  | .indexTimeout after => Sys2Proof.Machine.execIndexTimeout after s
  | .pwmPeriodStart after => Sys2Proof.Machine.execPwmPeriodStart after s
  | .pwmHighTimeEnd after o => Sys2Proof.Machine.execPwmHighTimeEnd after o s
  | .slip after b n => Sys2Proof.Machine.execSlip after b n s
  | .shareAlarm after b => Sys2Proof.Machine.execShareAlarm after b s
  | .shareAlarmClear after b => Sys2Proof.Machine.execShareAlarmClear after b s
  | .entrySilent after b st => Sys2Proof.Machine.execEntrySilent after b st s
  | .entryAgedOut after b st => Sys2Proof.Machine.execEntryAgedOut after b st s
  | .listenTimeout after b => Sys2Proof.Machine.execListenTimeout after b s
  | .joinQualified after b => Sys2Proof.Machine.execJoinQualified after b s
  | .leaveComplete after b => Sys2Proof.Machine.execLeaveComplete after b s
  | .drawAlarm after b => Sys2Proof.Machine.execDrawAlarm after b s
  | .drawAlarmClear after b => Sys2Proof.Machine.execDrawAlarmClear after b s
  | .claimBoundary after b => Sys2Proof.Machine.execClaimBoundary after b s
  | .claimLapsed after b => Sys2Proof.Machine.execClaimLapsed after b s
  | .noQuorum after b => Sys2Proof.Machine.execNoQuorum after b s
  | .trialStart after b => Sys2Proof.Machine.execTrialStart after b s
  | .trialCompleted after b => Sys2Proof.Machine.execTrialCompleted after b s
  | .recoveryDone after b => Sys2Proof.Machine.execRecoveryDone after b s
  | .fastFilterFallingEdge after line n => Sys2Proof.Machine.execFastFilterFallingEdge after line n s
  | .slowFilterSample after levels => Sys2Proof.Machine.execSlowFilterSample after levels s
  | .powerLoss after => Sys2Proof.Machine.execPowerLoss after s

end Sys2Proof.Machine
end

