-- ==== Sys2Proof/Machine/Idle.lean ====
section
/-! DEFINITION. The node's own time base when no command waits: what falls due at this instant is put into the queue,
and a microsecond passes when nothing does (log 2, log 3, log 33). -/

namespace Sys2Proof.Machine

/-! ### What falls due -/

/-- The command that executes a request (R173). READ_STATUS carries the strap levels of that instant (R178). -/
def Request.command (q : Request) (after : Wait) (straps : BitVec 4) : Instr :=
  match q with
  | .nop => .nop after
  | .readStatus => .readStatus after straps
  | .readEvents => .readEvents after
  | .setEventMask => .setEventMask after
  | .readLinkErrors => .readLinkErrors after
  | .clearLinkErrors => .clearLinkErrors after
  | .readLog => .readLog after
  | .readTrial => .readTrial after
  | .readRoster => .readRoster after
  | .configure => .configure after
  | .join => .join after
  | .leave => .leave after
  | .proposeTrial => .proposeTrial after
  | .abortTrial => .abortTrial after
  | .manualTrim => .manualTrim after
  | .snap => .snap after
  | .flushLog => .flushLog after
  | .revCheck => .revCheck after
  | .cancelCheck => .cancelCheck after
  | .readCheck => .readCheck after
  | .clearFaults => .clearFaults after
  | .clearBreak => .clearBreak after
  | .softReset => .softReset after

/-- The command that executes what the request buffer holds; an undefined code is the unknown request (R175). -/
def executionOf (after : Wait) (straps : BitVec 4) (c : Byte) : Instr :=
  match Request.ofCode c with
  | none => .unknownRequest after
  | some q => q.command after straps

/-- The instant at which the request in execution executes: at most 20 µs after SSEL rose (R173; log 4). -/
def State.executionAt (s : State) : Nat := s.port.requestAt + Config.executionDelay s.port.requestAt % 21

/-- A request in execution executes now. -/
def State.executionDue (s : State) : Bool := s.running && !s.port.srdy && s.executionAt ≤ s.now

/-- The raw levels that a slow filter sample sees (log 32). -/
def State.slowLevels (s : State) : SlowLevels := { rdy := s.pins.rdy, flt := s.pins.flt, brk := s.pins.brk }

/-- A command that may fall due, and whether it does. -/
abbrev Candidate := Bool × Instr

/-- The edge of a fast line that its looks have qualified (R73, R74). -/
def State.edgeCommand (s : State) (l : FastLine) (n : Channel) : Instr :=
  if (s.fastFilter l n).level then .fastFilterFallingEdge [] l n
  else
    match l with
    | .spd => .speedEdge [] n (s.pins.dir.getLsbD n.val)
    | .ldf => .loadEdge [] n
    | .idx => .indexEdge [] n

/-- A fast line's candidate. -/
def State.fastDue (s : State) (l : FastLine) (n : Channel) : Candidate :=
  (s.running && s.sensed n && (s.fastFilter l n).taken s.cfg.fastWidth, s.edgeCommand l n)

/-- A channel's candidates. RDY_CHANGE and FLT_CHANGE fall due once the sample that brings them has been taken (log 3). -/
def State.channelDue (s : State) (n : Channel) : List Candidate :=
  [ s.fastDue .spd n, s.fastDue .ldf n, s.fastDue .idx n,
    (s.sensed n && s.flipDue (s.inputs.rdy.get n), .rdyChange [] n),
    (s.sensed n && s.flipDue (s.inputs.flt.get n), .fltChange [] n),
    (s.stallDue n, .stall [] n),
    (s.highTimeDue (.sht n), .pwmHighTimeEnd [] (.sht n)) ]

/-- Every command of the time base, and whether it falls due. BRK_CHANGE falls due once the sample that brings it has been
taken (log 3). -/
def State.candidates (s : State) : List Candidate :=
  [ (s.executionDue, executionOf [] s.pins.straps (s.port.request.headD 0)),
    (s.characterDue && s.line.tx.character.isSome, .characterComplete [] (s.line.tx.character.getD ⟨0, false, false⟩)),
    (s.windowDue, .markWindowOpen []), (s.originationDue, .origination []),
    (s.standbyDue, .standbyLocalBoundary []), (s.listeningDue, .listeningLocalBoundary []),
    (s.ownSlotDue, .ownSlotOpen []), (s.slotCloseDue, .slotWindowClose []),
    (s.sampleDue, .slowFilterSample [] s.slowLevels), (s.flipDue s.inputs.brk, .brkChange []),
    (s.indexTimeoutDue, .indexTimeout []),
    (s.pwmPeriodDue, .pwmPeriodStart []), (s.highTimeDue .trm, .pwmHighTimeEnd [] .trm) ]
  ++ channels.flatMap s.channelDue

/-! ### Their order (log 3) -/

/-- A command set into a queue by its rank. -/
def insertRanked (x : Nat × Instr) : List (Nat × Instr) → List (Nat × Instr)
  | [] => [x]
  | y :: rest => if x.1 ≤ y.1 then x :: y :: rest else y :: insertRanked x rest

/-- The commands that fall due at this instant, in the order of their ranks, which the spec leaves open (log 3). What a
sample brings about comes after all that fell due together with the sample (log 3). -/
def State.dueCommands (s : State) : List Instr :=
  ((s.candidates.zipIdx.filter fun k => k.1.1).map fun k => (Config.tieRank s.now k.2, k.1.2)).foldr insertRanked []
    |>.map (·.2)

/-! ### A microsecond passes -/

/-- One microsecond in which the raw lines and SCK stand as they were last seen (log 2, log 32). -/
def State.stillMicrosecond (s : State) : Wait :=
  [{ micros := 1, raw := { spd := s.pins.spd, ldf := s.pins.ldf, idx := s.pins.idx }, falls := 0 }]

/-- The step of an empty queue: what falls due is queued; when nothing does, a microsecond passes (log 2). -/
def State.idle (s : State) : State :=
  match s.dueCommands with
  | [] => s.advance s.stillMicrosecond
  | c :: rest => { s with pending := c :: rest }

end Sys2Proof.Machine
end

