-- ==== Sys2Proof/Safety.lean ====
section
/-! DEFINITION. What the obligations are stated with: when a request is taken, which boundary an event takes, what a held
node still takes; and the invariants that every step keeps. -/

namespace Sys2Proof.Machine

/-! ### Conditions on a state -/

/-- A request is in execution whose parameters suffice and which the link state makes available: it passes the first
three checks of R175, with these parameter bytes. -/
abbrev State.takes (s : State) (q : Request) (p : List Byte) : Prop :=
  s.running = true ∧ s.port.srdy = false ∧ s.port.request = q.code :: p ∧ q.paramLength ≤ p.length
    ∧ q.availableIn s.link.state = true

/-- The received character with this start edge completes: the one under way while nothing is sent, or the one whose stop
bit was sampled before the node began to send, while its own has not run its 22 µs (R3; log 11). -/
abbrev State.completes (s : State) (st : Nat) : Prop :=
  s.running = true ∧ s.link.state.receives = true ∧ st + 22 ≤ s.now
    ∧ ((s.line.tx = .released ∧ s.line.rx = some st)
      ∨ (s.line.rxSampled = some st ∧ ∀ own : Nat, s.line.rx = some own → s.now < own + 22))

/-- The kind and the new number of the boundary that a received character takes, if it takes one (R9, R11, R15). -/
def State.receivedBoundary (s : State) (st : Nat) (c : CharBits) : Option (BoundaryKind × BitVec 8) :=
  if c.mark && c.stop then
    if s.markTaken st then some (.adopted, c.data) else none
  else if s.inWindow st then some (.lost, s.round.number + 1)
  else none

/-- The kind and the new number of the boundary that a character takes on completing (R9 to R15). -/
def State.characterBoundary (s : State) (c : CharBits) : Option (BoundaryKind × BitVec 8) :=
  if s.characterDue then
    match s.line.tx with
    | .mark n => some (.originated, n)
    | .frame _ _ => none
    | .released => s.receivedBoundary (s.line.rx.getD 0) c
  else if s.sampledDue then s.receivedBoundary (s.line.rxSampled.getD 0) c
  else none

/-- The kind and the new number of the boundary that an event takes, if it takes one (R5, R6). -/
def State.boundaryOf (s : State) (b : BoundaryEvent) : Option (BoundaryKind × BitVec 8) :=
  match b with
  | .standbyLocal => if s.standbyDue then some (.localTimed, s.round.number + 1) else none
  | .listeningLocal => if s.listeningDue then some (.localTimed, s.round.number + 1) else none
  | .character c => s.characterBoundary c

/-- The command of the event that takes a boundary. -/
def boundaryCommand (after : Wait) : BoundaryEvent → Instr
  | .standbyLocal => .standbyLocalBoundary after
  | .listeningLocal => .listeningLocalBoundary after
  | .character c => .characterComplete after c

/-- The link errors of a received character that takes a boundary (R3, R15). -/
def State.windowErrors (s : State) (c : CharBits) : State :=
  let t := s.linkErrorIf (!c.stop) .framing
  if c.mark && c.stop then t else t.linkError .lostMark

/-- The state that a boundary finds: a character that takes it has left the receiver, with the link errors it sets. -/
def State.boundaryBase (s : State) (b : BoundaryEvent) : State :=
  match b with
  | .standbyLocal => s
  | .listeningLocal => s
  | .character c =>
    if s.characterDue then
      match s.line.tx with
      | .mark _ => { s with line := { s.line.shift with tx := .released } }
      | .frame _ _ => s
      | .released => State.windowErrors { s with line := s.line.shift } c
    else State.windowErrors { s with line := { s.line with rxSampled := none } } c

/-- The state on which the Trial Controller decides at the boundary that an event takes. -/
def State.decisionAt (s : State) (b : BoundaryEvent) (k : BoundaryKind) (n : BitVec 8) : State :=
  ((s.boundaryBase b).sampled k n).atDecision

/-- What a node held in reset still takes: the supply, the RESET pin and the level of SSEL (R171, R188, R189). -/
def takenInReset : Instr → Bool
  | .powerOnReset _ => true
  | .powerOnResetEnd _ _ => true
  | .resetPinAssert _ => true
  | .resetPinRelease _ _ => true
  | .powerLoss _ => true
  | .transactionStart _ => true
  | .transactionEnd _ _ => true
  | _ => false

/-! ### The log (R158, R159) -/

/-- From the head on, each record's sequence number is one more than that of the record before it, and the counter is
one more than the tail's (R159). -/
def numbered : List LogRecord → BitVec 16 → Bool
  | [], _ => true
  | r :: rest, counter => r.seq + BitVec.ofNat 16 (rest.length + 1) = counter && numbered rest counter

/-- The log holds at most 256 records, numbered in order up to the counter, and the ring at most 8 samples (R158, R159). -/
def State.logInOrder (s : State) : Prop :=
  s.log.records.length ≤ Config.logCapacity ∧ numbered s.log.records s.log.counter = true
    ∧ s.log.ring.length ≤ Config.ringCapacity

/-! ### The link (R1, R3, R7, R23, R39, R40, R46) -/

/-- The transmitter and the receiver follow the link state: nothing is sent outside ACTIVE and LEAVING, no window is open
there, and a disabled receiver has nothing under way (R1, R3, R7). -/
def State.lineFollowsLink (s : State) : Prop :=
  (s.link.state.onLink = false → s.line.tx = .released ∧ s.round.windowOpen = false)
    ∧ (s.link.state.receives = false →
        s.line.rx = none ∧ s.line.rxNext = none ∧ s.line.rxSampled = none ∧ s.line.attempt = none
          ∧ s.round.synced = false)

/-- The roster has its sixteen entries; the own one is PRESENT with miss count 0 in ACTIVE and LEAVING and ABSENT
elsewhere, and every entry is cleared while nothing is received (R39, R40). -/
def State.rosterFollowsLink (s : State) : Prop :=
  s.roster.length = 16
    ∧ (s.link.state.onLink = true → (s.entry s.station).presence = .present ∧ (s.entry s.station).miss = 0)
    ∧ (s.link.state.onLink = false → (s.entry s.station).presence = .absent)
    ∧ (s.link.state.receives = false → ∀ t : Station, s.entry t = Entry.cleared)

/-- A trial is proposed, accepted, scheduled or run only in ACTIVE; elsewhere the record is IDLE with nothing pending or
RECOVERING, in LEAVING it is IDLE, and an IDLE record has no ABORT pending (R29, R46, R64). -/
def State.trialFollowsLink (s : State) : Prop :=
  (s.link.state ≠ .active → (s.trial.phase = .idle ∧ s.trial.request = .none) ∨ s.trial.phase = .recovering)
    ∧ (s.link.state = .leaving → s.trial.phase = .idle)
    ∧ (s.trial.phase = .idle → s.trial.request ≠ .abort)

/-- A configuration record is held exactly outside UNCONFIGURED, where every channel is DISABLED (R23, R83, R186). -/
def State.configFollowsLink (s : State) : Prop :=
  (s.link.state = .unconfigured ↔ s.config = none)
    ∧ (s.config = none → s.chans = .all .disabled ∧ s.brk = { latch := false, mark := false })

/-- The listen and join counts stay below 3, and outside LISTENING both are 0 (R23 to R27). -/
def State.countsInRange (s : State) : Prop :=
  s.link.listenCount < 3 ∧ s.link.joinCount < 3
    ∧ (s.link.state ≠ .listening → s.link.listenCount = 0 ∧ s.link.joinCount = 0)

/-- The blocks of the link follow the link state. -/
def State.followsLink (s : State) : Prop :=
  s.lineFollowsLink ∧ s.rosterFollowsLink ∧ s.trialFollowsLink ∧ s.configFollowsLink ∧ s.countsInRange

/-! ### The trims (R130, R136, R137) -/

/-- Parameters that keep R44 and, at the target, ask for no more than its limits allow. -/
def State.stepWithinLimits (s : State) : Prop :=
  s.trial.params.target = s.station →
    (s.trial.params.kind = .drawStep → s.trial.params.step.natAbs ≤ s.cfg.trimLimit)
      ∧ (s.trial.params.kind = .shareStep → s.trial.params.step.natAbs ≤ s.cfg.shareTrimLimit)

/-- The section trim target is the one that its sources give: 0 while the break is in force, else the trial section
target, else the manual trim target (R130, R150). -/
def State.targetIsChosen (s : State) : Prop :=
  s.trim.target = if s.breakInForce then 0 else s.trim.trialTarget.getD s.trim.manual

/-- The target is chosen from its sources; every source of a trim target, every target, every applied value and every
share trim lies within the configured limit; a SCHEDULED record asks for no more at its target (R130, R132, R136 to
R138). -/
def State.trimsWithinLimits (s : State) : Prop :=
  s.targetIsChosen ∧ s.trim.manual.natAbs ≤ s.cfg.trimLimit
    ∧ (∀ v : Int, s.trim.trialTarget = some v → v.natAbs ≤ s.cfg.trimLimit)
    ∧ s.trim.target.natAbs ≤ s.cfg.trimLimit
    ∧ s.trim.applied.natAbs ≤ s.cfg.trimLimit
    ∧ s.trim.shiftTarget.natAbs ≤ s.cfg.shareTrimLimit
    ∧ s.trim.shift.natAbs ≤ s.cfg.shareTrimLimit
    ∧ (∀ n : Channel, (s.trim.shares.get n).natAbs ≤ s.cfg.shareTrimLimit)
    ∧ (s.trial.phase = .scheduled → s.stepWithinLimits)
    ∧ (s.trial.phase = .proposing ∨ s.trial.phase = .accepting → s.isMember = false →
        s.trial.params.target ≠ s.station)
    ∧ (∀ i p, s.trial.request = .propose i p → p.valid = true)

end Sys2Proof.Machine
end

