-- ==== Sys2Proof/Certificates/Slice0/Obligations.lean ====
section
/-! DEFINITION. The statements for the provers. Where a statement rests on a choice of the model its docstring names the
log entry. `a` is the state at the arrival of a command: the state before it, its wait `after` later, as
`Obligations.EmptyQueueRunsTheTimeBase` says what a wait does to a frame attempt. -/

section

open Sys2Proof Sys2Proof.Machine

/-! ### Steps and the queue -/

/-- A step takes the command at the front of the queue and runs it on the state with the queue's rest. -/
def Obligations.StepRunsTheFrontCommand : Prop :=
  ∀ (c : Instr) (rest : List Instr) (s : State), s.pending = c :: rest → step s = exec c { s with pending := rest }

/-- The model's choice (log 2): on an empty queue the time base queues what falls due, or lets a microsecond pass in
which the raw lines and SCK stand as they were last seen (log 32). With the time that passes, here and before every command, a frame
attempt whose window has closed is discarded with SHORT unless the characters that began in the window and are under way
can complete it; at the very instant of the closing one that may still be detected there counts with them (log 14). -/
def Obligations.EmptyQueueRunsTheTimeBase : Prop :=
  (∀ s : State, s.pending = [] →
    (s.dueCommands = [] → step s = .next (s.advance [⟨1, ⟨s.pins.spd, s.pins.ldf, s.pins.idx⟩, 0⟩]))
      ∧ (∀ (c : Instr) (rest : List Instr), s.dueCommands = c :: rest → step s = .next { s with pending := c :: rest }))
  ∧ ∀ (d : Wait) (s : State),
    let a := s.elapse d
    let t := s.advance d
    ((∀ f : Attempt, s.line.attempt = some f → s.round.slotsClosed ≤ f.slot.val) → t = a)
      ∧ (∀ f : Attempt, s.line.attempt = some f → f.slot.val < s.round.slotsClosed →
          let received := s.line.rxSampled.toList ++
            if s.line.tx = .released then s.line.rx.toList ++ s.line.rxNext.toList else []
          let begun := received.filter fun st =>
            decide (s.round.start ≤ st ∧ 40 + 360 * f.slot.val ≤ st - s.round.start
              ∧ st - s.round.start < 40 + 360 * (f.slot.val + 1))
          let detectable : Prop :=
            s.line.tx = .released ∧ a.now - s.round.start = 40 + 360 * (f.slot.val + 1)
              ∧ ∀ st : Nat, s.line.rx = some st → s.line.rxNext = none ∧ st + 21 < a.now
          let waits : Prop :=
            15 ≤ f.bytes.length + begun.length ∨ (f.bytes.length + begun.length = 14 ∧ detectable)
          (waits → t = a)
            ∧ (¬waits → t = { a with line := t.line, port := t.port }
                ∧ t.line = { s.line with attempt := none, overrun := t.line.overrun, errors := t.line.errors }
                ∧ (s.round.lost = false → t.hasLinkError .short = true
                    ∧ (s.hasLinkError .short = false → t.hasEvent .linkError = true))
                ∧ (s.round.lost = true → t.line.errors = s.line.errors ∧ t.port = a.port)))

/-- Every command answers a next state, lets its time pass and leaves the queue alone (log 1, log 35). -/
def Obligations.EveryCommandAnswersNext : Prop :=
  ∀ (c : Instr) (s : State), ∃ t, exec c s = .next t ∧ t.now = s.now + c.after.micros ∧ t.pending = s.pending

/-! ### Resets (R187 to R191) -/

/-- A hardware reset or a missing supply holds the node at its reset values: the line is released, the outputs are low,
SRDY is low, ALERT is high and no transaction is under way; and a held node takes nothing but its supply, the RESET pin
and the level of SSEL. That POWER_LOSS holds the node as in reset (log 8), and that a held node's other commands are no
events (log 5), is the model's reading. -/
def Obligations.HardwareResetHoldsTheNode : Prop :=
  (∀ (after : Wait) (s : State), ∃ t, exec (.powerOnReset after) s = .next t ∧ t.power.supplied = true ∧ t.power.por = true
      ∧ t = t.holdReset ∧ t.running = false)
    ∧ (∀ (after : Wait) (s : State), s.power.resetPin = false →
        ∃ t, exec (.resetPinAssert after) s = .next t ∧ t.power = { s.power with resetPin := true } ∧ t = t.holdReset
          ∧ t.running = false)
    ∧ (∀ (after : Wait) (s : State), ∃ t, exec (.powerLoss after) s = .next t ∧ t.power.supplied = false
        ∧ t = t.holdReset ∧ t.running = false)
    ∧ (∀ s : State, s.holdReset.line.tx = .released ∧ s.holdReset.line.rx = none ∧ s.holdReset.pwm.trm = false
        ∧ s.holdReset.pwm.sht = .all false ∧ s.holdReset.port.srdy = false ∧ s.holdReset.port.txn = .none
        ∧ s.holdReset.sdo = none ∧ (s.running = false → s.holdReset.alertLow = false))
    ∧ (∀ (c : Instr) (s : State), s.running = false → takenInReset c = false → exec c s = .next (s.advance c.after))

/-- At the end of a hardware reset the straps become the station, every block holds its reset value, the first period
starts, no response is pending and SRDY is high. The first period's dither position is the model's reading (log 10). -/
def Obligations.HardwareResetEnds : Prop :=
  ∀ (after : Wait) (straps : BitVec 4) (c : Instr) (s : State),
    (s.power = { supplied := true, por := true, resetPin := false } ∧ c = .powerOnResetEnd after straps)
      ∨ (s.power = { supplied := true, por := false, resetPin := true } ∧ c = .resetPinRelease after straps) →
    ∃ t, exec c s = .next t ∧ t.running = true ∧ t.station = straps.toFin ∧ t.pins = { (s.advance c.after).pins with straps := straps }
      ∧ t.config = none ∧ t.link = Link.reset ∧ t.line = LineInterface.reset ∧ t.round = RoundTimer.reset
      ∧ t.roster = List.replicate 16 Entry.cleared ∧ t.ownReport = Report.empty ∧ t.trial = TrialRecord.empty
      ∧ t.lastOutcome = LastOutcome.empty ∧ t.seqCounter = 0 ∧ t.inputs = Inputs.reset
      ∧ t.counters = .all Counters.reset ∧ t.chans = .all .disabled ∧ t.meas = Measurement.reset
      ∧ t.check = RevCheck.reset ∧ t.draw = Draw.reset ∧ t.trim = Trim.reset ∧ t.brk = { latch := false, mark := false }
      ∧ t.log = Log.reset ∧ t.pwm = Pwm.started t.now ∧ t.port = { Port.reset with sselLow := s.port.sselLow }

/-- SOFT_RESET keeps the station, the trial sequence counter, the log with its counter, and the PWM timing and dither
position; every other block takes its reset value, and the OK answer is pending. -/
def Obligations.SoftResetKeepsFourThings : Prop :=
  ∀ (after : Wait) (p : List Byte) (s : State), s.takes .softReset p →
    ∃ t, exec (.softReset after) s = .next t
      ∧ t.station = s.station ∧ t.seqCounter = s.seqCounter ∧ t.log = { Log.reset with records := s.log.records, counter := s.log.counter }
      ∧ t.pwm = { s.pwm with trmNext := 8000, shtNext := .all 500 }
      ∧ t.config = none ∧ t.link = Link.reset ∧ t.line = LineInterface.reset ∧ t.round = RoundTimer.reset
      ∧ t.roster = List.replicate 16 Entry.cleared ∧ t.ownReport = Report.empty ∧ t.trial = TrialRecord.empty
      ∧ t.lastOutcome = LastOutcome.empty ∧ t.inputs = Inputs.reset ∧ t.counters = .all Counters.reset
      ∧ t.chans = .all .disabled ∧ t.meas = Measurement.reset ∧ t.check = RevCheck.reset ∧ t.draw = Draw.reset
      ∧ t.trim = Trim.reset ∧ t.brk = { latch := false, mark := false } ∧ t.power = s.power ∧ t.pins = (s.advance after).pins
      ∧ t.port.events = 0 ∧ t.port.mask = 0 ∧ t.alertLow = false ∧ t.port.srdy = true
      ∧ t.port.response = some (.ok []) ∧ t.port.txn = s.port.txn

/-- What the machine holds right after power-on reset, for the values that the spec gives. -/
def Obligations.StateAfterPowerOnReset : Prop :=
  State.reset.link.state = .unconfigured ∧ State.reset.link.listenCount = 0 ∧ State.reset.link.joinCount = 0
    ∧ State.reset.link.leave = .idle ∧ State.reset.round.number = 0 ∧ State.reset.round.lost = false
    ∧ State.reset.line.errors = 0 ∧ State.reset.line.tx = .released ∧ State.reset.config = none
    ∧ (∀ t : Station, State.reset.entry t = Entry.cleared) ∧ State.reset.trial = TrialRecord.empty
    ∧ State.reset.lastOutcome = LastOutcome.empty ∧ State.reset.seqCounter = 0
    ∧ (∀ n : Channel, State.reset.chans.get n = .disabled ∧ State.reset.counters.get n = Counters.reset)
    ∧ State.reset.meas = Measurement.reset ∧ State.reset.check = RevCheck.reset ∧ State.reset.draw = Draw.reset
    ∧ State.reset.trim = Trim.reset ∧ State.reset.pwm.dither = 0 ∧ State.reset.brk = { latch := false, mark := false }
    ∧ State.reset.log = Log.reset ∧ State.reset.port.events = 0 ∧ State.reset.port.mask = 0
    ∧ State.reset.port.srdy = true ∧ State.reset.port.response = none ∧ State.reset.alertLow = false
    ∧ State.reset.pending = []

/-! ### The service port (R171 to R176) -/

/-- SSEL falls: an ordinary transaction puts the response's first bit on SDO; a busy one, begun while SRDY is low, puts a
1 there and sets PORT_OVERRUN. The falling edges of SCK are counted from here. Nothing else changes. -/
def Obligations.TransactionStarts : Prop :=
  ∀ (after : Wait) (s : State), s.running = true → s.port.sselLow = false →
    let a := s.advance after
    let begun : Port → State := fun p => { a with pins := { a.pins with sckFalls := 0 }, port := p }
    (s.port.srdy = true →
        let t := begun { a.port with sselLow := true, txn := .ordinary }
        exec (.transactionStart after) s = .next t ∧ t.sdo = some ((s.pendingByte 0).getLsbD 7))
      ∧ (s.port.srdy = false →
        let t := begun { a.port with
          sselLow := true, txn := .busy, events := a.port.events ||| Event.portOverrun.flag }
        exec (.transactionStart after) s = .next t ∧ t.sdo = some true)

/-- SSEL rises: the whole bytes of an ordinary transaction become the request, SRDY falls and the response is consumed;
a busy transaction, and one without a whole byte, change nothing of the port but the pins. A READ_LOG read-out that is
still open is settled: the head is removed when the transaction had 200 edges, the removal mark is cleared in any case.
SDO is released. Every eight bits make a byte, the most significant first, and an unfinished last byte is discarded; the
buffer keeps the code and the fixed parameter bytes of its request. What it keeps of an unknown code, the code alone, is the
model's reading (log 30). -/
def Obligations.TransactionEnds : Prop :=
  (∀ octet rest : List Bool, octet.length = 8 →
      ∃ b : Byte, wholeBytes (octet ++ rest) = b :: wholeBytes rest
        ∧ ∀ i : Fin 8, octet[7 - i.val]? = some (b.getLsbD i.val))
  ∧ (∀ bits : List Bool, bits.length < 8 → wholeBytes bits = [])
  ∧ (∀ (q : Request) (rest : List Byte), storedRequest (q.code :: rest) = q.code :: rest.take q.paramLength)
  ∧ (∀ (c : Byte) (rest : List Byte), (∀ q : Request, q.code ≠ c) → storedRequest (c :: rest) = [c])
  ∧ ∀ (after : Wait) (bits : List Bool) (s : State), s.port.sselLow = true →
    let a := s.advance after
    let released : Port := { a.port with sselLow := false, txn := .none }
    let settled : Log :=
      if s.readoutOpen = true then
        { a.log with records := if 200 ≤ bits.length then a.log.records.drop 1 else a.log.records, removal := false }
      else a.log
    (∀ (b : Byte) (rest : List Byte), s.port.txn = .ordinary → wholeBytes bits = b :: rest →
        exec (.transactionEnd after bits) s = .next { a with log := settled, port := { released with
          srdy := false, request := storedRequest (b :: rest), requestAt := a.now, response := none } })
      ∧ (s.port.txn ≠ .ordinary ∨ wholeBytes bits = [] →
        exec (.transactionEnd after bits) s = .next { a with log := settled, port := released })
      ∧ (∃ t, exec (.transactionEnd after bits) s = .next t ∧ t.sdo = none)

/-- What a transaction shifts out: the status, the body, then zeros; zeros without a response; 0xFF when it is busy. SDO
carries the bits of these bytes, the most significant first: the first from the fall of SSEL, and the next at each falling
edge of SCK that a wait holds. Outside a transaction SDO is released, and SCK is ignored. That SCK rises before it first
falls is the model's reading (log 1). -/
def Obligations.TransactionShiftsOutTheResponse : Prop :=
  ∀ (s : State) (k : Nat),
    (∀ (i : Nat) (b : Byte), i < 8 → s.shiftedOut k = some b → s.pins.sckFalls = 8 * k + i → s.sdo = some (b.getLsbD (7 - i)))
      ∧ (s.port.txn = .none → s.shiftedOut k = none ∧ s.sdo = none)
      ∧ (∀ d : Wait,
          (s.advance d).shiftedOut k = s.shiftedOut k
            ∧ (s.port.txn ≠ .none → (s.advance d).pins.sckFalls = s.pins.sckFalls + (d.map fun p => p.falls).sum)
            ∧ (s.port.txn = .none → (s.advance d).pins.sckFalls = s.pins.sckFalls))
      ∧ (s.port.txn = .busy → s.shiftedOut k = some 0xFF)
      ∧ (s.port.txn = .ordinary → s.port.response = none → s.shiftedOut k = some 0)
      ∧ (∀ r : Response, s.port.txn = .ordinary → s.port.response = some r →
          s.shiftedOut 0 = some r.status.code
            ∧ (∀ h : k < r.body.length, s.shiftedOut (k + 1) = some r.body[k])
            ∧ (r.body.length ≤ k → s.shiftedOut (k + 1) = some 0))

/-- The checks of every request in their order: an undefined code, too few parameters, a link state in which it is not
available. Each answers and changes nothing else. Then the availability table, and the values of the tables: the codes of
the requests and their fixed parameter lengths, of the statuses, of the link states, and of the reasons. -/
def Obligations.RequestChecksComeInOrder : Prop :=
  (∀ (after : Wait) (s : State), s.running = true → s.port.srdy = false →
    (∀ (c : Byte) (p : List Byte), s.port.request = c :: p → Request.ofCode c = none →
        exec (.unknownRequest after) s
          = .next ((s.advance after).answer { status := .unknown, body := [], readLog := false }))
      ∧ (∀ (q : Request) (straps : BitVec 4) (p : List Byte), s.port.request = q.code :: p → p.length < q.paramLength →
        exec (q.command after straps) s
          = .next ((s.advance after).answer { status := .badLength, body := [], readLog := false }))
      ∧ (∀ (q : Request) (straps : BitVec 4) (p : List Byte), s.port.request = q.code :: p → q.paramLength ≤ p.length →
          q.availableIn s.link.state = false →
        exec (q.command after straps) s
          = .next ((s.advance after).answer { status := .notAvailable, body := [s.link.state.code], readLog := false })))
  ∧ (∀ (q : Request) (l : LinkState), q.availableIn l = true ↔
      q ∈ [Request.nop, .readStatus, .readEvents, .setEventMask, .readLinkErrors, .clearLinkErrors, .readLog, .readTrial,
            .softReset]
        ∨ (q = .configure ∧ l = .unconfigured) ∨ (q = .join ∧ l = .standby)
        ∨ (q = .leave ∧ (l = .listening ∨ l = .active)) ∨ (q = .proposeTrial ∧ l = .active)
        ∨ (q = .abortTrial ∧ (l = .active ∨ l = .leaving))
        ∨ (q = .manualTrim ∧ (l = .standby ∨ l = .listening ∨ l = .active))
        ∨ (q ∈ [Request.readRoster, .snap, .flushLog, .revCheck, .cancelCheck, .readCheck, .clearFaults, .clearBreak]
            ∧ l ≠ .unconfigured))
  ∧ (∀ (c : Byte) (q : Request), Request.ofCode c = some q ↔ q.code = c)
  ∧ [Request.nop, .readStatus, .readEvents, .setEventMask, .readLinkErrors, .clearLinkErrors, .readLog, .readTrial,
      .readRoster].map (fun q => q.code.toNat) = [0x00, 0x01, 0x02, 0x03, 0x04, 0x05, 0x06, 0x07, 0x08]
  ∧ [Request.configure, .join, .leave, .proposeTrial, .abortTrial, .manualTrim, .snap, .flushLog].map
      (fun q => q.code.toNat) = [0x10, 0x11, 0x12, 0x20, 0x21, 0x30, 0x40, 0x41]
  ∧ [Request.revCheck, .cancelCheck, .readCheck, .clearFaults, .clearBreak, .softReset].map (fun q => q.code.toNat)
      = [0x50, 0x51, 0x52, 0x60, 0x61, 0x7F]
  ∧ (∀ q : Request, q.paramLength =
      if q = .configure then 78 else if q = .proposeTrial then 7 else if q = .setEventMask ∨ q = .manualTrim then 2
      else if q = .revCheck then 1 else 0)
  ∧ [Status.ok, .refused, .notAvailable, .unknown, .badLength, .invalid].map (fun x => x.code.toNat) = [1, 2, 3, 4, 5, 6]
  ∧ [LinkState.unconfigured, .standby, .listening, .active, .leaving].map (fun x => x.code.toNat) = [0, 1, 2, 3, 4]
  ∧ [Reason.none, .brk, .busy, .drives, .notNeutral, .logSpace, .draw, .invalid, .requested, .targetAbsent, .noTrial].map
      (fun x => x.code.toNat) = [0, 1, 2, 3, 4, 5, 6, 7, 8, 9, 10]
  ∧ [Reason.noCheck, .inputActive, .driveFault, .drawLimit, .peerLost, .missedGo, .notReady, .link, .withdrawn, .noQuorum,
      .lapsed].map (fun x => x.code.toNat) = [11, 12, 13, 14, 15, 16, 17, 18, 19, 20, 21]

/-- NOP, in every link state, is answered OK with an empty body and changes no state. -/
def Obligations.NopAnswersOk : Prop :=
  ∀ (after : Wait) (p : List Byte) (s : State), s.running = true → s.port.srdy = false →
    s.port.request = Request.nop.code :: p → exec (.nop after) s = .next ((s.advance after).answer (.ok []))

/-- READ_EVENTS shows the flags and the mask and clears exactly the flags shown; SET_EVENT_MASK sets the enables that
stand for flags and touches no flag; the link error requests show or clear the seven flags and change no event. ALERT is
low exactly while the node runs with a flag and its enable both set. Each flag stands at its own bit, in the order of its
table. -/
def Obligations.EventAndLinkErrorRequests : Prop :=
  [Event.joined, .left, .duplicate, .peerChange, .claimSeen, .trialStart, .trialEnd, .brk, .drawAlarm, .shareAlarm,
      .channelFault, .revCheckDone, .logClosed, .linkError, .portOverrun].map Event.bit
      = [0, 1, 2, 3, 4, 5, 6, 7, 8, 9, 10, 11, 12, 13, 14]
  ∧ (∀ e : Event, e.flag.toNat = 2 ^ e.bit)
  ∧ [LinkError.framing, .check, .slot, .short, .earlyMark, .lostMark, .collision].map LinkError.bit = [0, 1, 2, 3, 4, 5, 6]
  ∧ (∀ e : LinkError, e.flag.toNat = 2 ^ e.bit)
  ∧ ∀ (after : Wait) (p : List Byte) (s : State),
    let a := s.advance after
    (s.takes .readEvents p →
        exec (.readEvents after) s
          = .next (State.answer { a with port := { a.port with events := 0 } } (.ok (bytes16 a.port.events ++ bytes16 a.port.mask))))
      ∧ (s.takes .setEventMask p →
        exec (.setEventMask after) s
          = .next (State.answer { a with port := { a.port with mask := word16 p 0 &&& 0x7FFF } }
              (.ok (bytes16 (word16 p 0 &&& 0x7FFF) ++ bytes16 a.port.events))))
      ∧ (s.takes .readLinkErrors p → exec (.readLinkErrors after) s = .next (a.answer (.ok [a.line.errors])))
      ∧ (s.takes .clearLinkErrors p →
        exec (.clearLinkErrors after) s = .next (State.answer { a with line := { a.line with errors := 0 } } (.ok [])))
      ∧ (s.alertLow = true ↔
          s.running = true ∧ ∃ e : Event, s.hasEvent e = true ∧ s.port.mask.getLsbD e.bit = true)

/-- The four snapshots change nothing but the answer, and have the lengths of the request table. READ_STATUS sees the
straps of its instant, and its 160 bytes lie as the table of READ_STATUS has them, each group from its first byte on. What
a speed or load that no boundary has given yet reads is the model's reading (log 27). The bytes of READ_TRIAL, of each of the
sixteen entries of READ_ROSTER and of READ_CHECK lie in the order in which the formats list them. What READ_TRIAL shows while
a proposal is pending is the model's choice (log 44), and the byte of a boundary count above 255 is a free value (log 25). -/
def Obligations.SnapshotsChangeNothing : Prop :=
  (∀ (after : Wait) (straps : BitVec 4) (p : List Byte) (s : State),
    let a := s.advance after
    let seen : State := { a with pins := { a.pins with straps := straps } }
    (s.takes .readStatus p →
        exec (.readStatus after straps) s = .next (seen.answer (.ok seen.statusBytes)) ∧ seen.statusBytes.length = 160)
      ∧ (s.takes .readTrial p → exec (.readTrial after) s = .next (a.answer (.ok a.trialBytes)) ∧ a.trialBytes.length = 27)
      ∧ (s.takes .readRoster p →
        exec (.readRoster after) s = .next (a.answer (.ok a.rosterBytes)) ∧ a.rosterBytes.length = 272)
      ∧ (s.takes .readCheck p → exec (.readCheck after) s = .next (a.answer (.ok a.checkBytes)) ∧ a.checkBytes.length = 15))
  ∧ ∀ s : State,
    let piece := fun first count : Nat => (s.statusBytes.drop first).take count
    piece 0 10 = [byteOf s.station.val, s.pins.straps.setWidth 8, byteOf s.cfg.periodCode, byteOf s.cfg.driveCount,
        s.link.state.code, byteOf s.link.listenCount, byteOf s.link.joinCount, s.link.leave.code, s.round.number,
        if s.round.lost then 1 else 0]
      ∧ piece 10 16 = stations.map (fun u => (s.entry u).presence.code)
      ∧ piece 26 4 = channels.map (fun n => (s.chans.get n).byte)
      ∧ (∀ n : Channel, (nth s.statusBytes 30).getLsbD n.val = (s.inputs.rdy.get n).active
          ∧ (nth s.statusBytes 31).getLsbD n.val = (s.inputs.flt.get n).active)
      ∧ nth s.statusBytes 32 = (if s.inputs.brk.active then 1 else 0)
      ∧ (∀ n : Channel,
          let v := s.meas.chan.get n
          piece (33 + 11 * n.val) 11 =
            [v.method.code]
              ++ bytes24 (if s.chans.get n = .disabled then 0x800000 else BitVec.ofInt 24 (v.speed.getD 0))
              ++ bytes16 (if s.chans.get n = .disabled then 0x8000 else BitVec.ofInt 16 (v.load.getD 0))
              ++ bytes16 ((v.share.map (BitVec.ofInt 16)).getD 0x8000)
              ++ bytes16 ((v.deviation.map (BitVec.ofInt 16)).getD 0x8000) ++ [byteOf v.slip])
      ∧ piece 77 5 = bytes24 ((s.meas.speed.map (BitVec.ofInt 24)).getD 0x800000)
          ++ bytes16 ((s.meas.load.map (BitVec.ofInt 16)).getD 0x8000)
      ∧ piece 82 4 = [if s.meas.sharesComputed then 1 else 0, if s.meas.alarm then 1 else 0, byteOf s.meas.outRun,
          byteOf s.meas.inRun]
      ∧ piece 86 5 = [s.upstreamByte] ++ signed16 s.draw.value ++ s.draw.state.codes
      ∧ piece 91 5 = [s.draw.position.code, if s.draw.hard then 1 else 0, if s.draw.alarm then 1 else 0,
          byteOf s.draw.outRun, byteOf s.draw.inRun]
      ∧ piece 96 4 = bytes24 s.draw.upSpeed ++ [byteOf s.draw.upMiss]
      ∧ piece 100 8 = signed16 s.trim.manual ++ bytes16 ((s.trim.trialTarget.map (BitVec.ofInt 16)).getD 0x8000)
          ++ signed16 s.trim.target ++ signed16 s.trim.applied
      ∧ piece 108 3 = unsigned16 ((8000 + 6 * s.trim.applied).toNat / 16) ++ [byteOf ((8000 + 6 * s.trim.applied).toNat % 16)]
      ∧ piece 111 5 = signed16 s.trim.shiftTarget ++ signed16 s.trim.shift ++ [byteOf s.trim.drive.val]
      ∧ (∀ n : Channel, piece (116 + 2 * n.val) 2 = signed16 (s.trim.shares.get n))
      ∧ piece 124 2 = [s.trim.cls.code, if s.cfg.separateRamps then 1 else 0]
      ∧ piece 126 3 = [if s.brk.latch then 1 else 0, if s.brk.mark then 1 else 0, if s.inputs.brk.active then 1 else 0]
      ∧ piece 129 8 = unsigned16 s.log.records.length ++ unsigned16 (256 - s.log.records.length)
          ++ bytes16 ((s.log.records.head?.map (·.seq)).getD 0) ++ bytes16 s.log.counter
      ∧ piece 137 2 = [byteOf s.log.ring.length, if s.log.removal then 1 else 0]
      ∧ piece 139 4 = bytes16 s.port.events ++ bytes16 s.port.mask ∧ piece 143 17 = List.replicate 17 0
      ∧ (let r := s.trial
         let trial := fun first count : Nat => (s.trialBytes.drop first).take count
         trial 0 2 = [r.phase.code, r.role.code]
           ∧ upperNibble (nth s.trialBytes 2) = r.id.proposer ∧ lowerNibble (nth s.trialBytes 2) = r.id.seq
           ∧ trial 3 7 = [r.params.kind.code.setWidth 8, byteOf r.params.drive.val, byteOf r.params.target.val,
               byteOf r.params.spanFirst.val, byteOf r.params.spanLast.val, BitVec.ofInt 8 r.params.step,
               byteOf r.params.duration]
           ∧ trial 10 2 = [r.startRound, byteOf r.remaining]
           ∧ trial 12 6 = bytes16 r.required ++ bytes16 r.accepted ++ bytes16 r.watched
           ∧ nth s.trialBytes 18 = r.readySet.setWidth 8 ∧ (r.count ≤ 255 → nth s.trialBytes 19 = byteOf r.count)
           ∧ trial 20 3 = [byteOf r.abortsOwed,
               (match r.request with
                | .none => 0
                | .propose _ _ => 1
                | .abort => 2), if r.refusing then 1 else 0]
           ∧ nth s.trialBytes 23 = s.lastOutcome.outcome.code
           ∧ upperNibble (nth s.trialBytes 24) = s.lastOutcome.id.proposer
           ∧ lowerNibble (nth s.trialBytes 24) = s.lastOutcome.id.seq
           ∧ trial 25 2 = [s.lastOutcome.code, byteOf s.lastOutcome.station.val])
      ∧ (∀ u : Station,
          let e := s.entry u
          let first := (s.rosterBytes.drop (17 * u.val)).take 17
          first.take 3 = [e.presence.code ||| (if e.heard then 0x80 else 0), byteOf e.miss, e.lastRound]
            ∧ first.drop 3 = e.report.frame.take 14)
      ∧ s.checkBytes =
          [s.check.state.code, byteOf s.check.channel.val] ++ unsigned16 (s.cfg.chan.get s.check.channel).expected
            ++ bytes24 (BitVec.ofInt 24 s.check.count) ++ [s.check.verdict.code, s.check.verdict.causeCode]
            ++ unsigned16 (s.indexReading / 1000) ++ bytes32 (BitVec.ofNat 32 s.check.revTime)

/-- READ_LOG latches the head and sets the removal mark, or on an empty log answers a record of type NONE with the
counter and clears the mark; the records stay. The response's read-out removes the head and clears the mark at the 200th
edge, at which SDO carries the last bit of the record, and a transaction that ends clears the mark too, removing the head
only when it had 200 edges. That an empty log empties the read latch is the model's choice (log 43). Last, where the fields
lie in the 24 bytes of a record. -/
def Obligations.ReadLogAndItsReadout : Prop :=
  (∀ (after : Wait) (s : State),
    let a := s.advance after
    (∀ (p : List Byte) (r : LogRecord) (rest : List LogRecord), s.takes .readLog p → s.log.records = r :: rest →
        exec (.readLog after) s
            = .next (State.answer { a with log := { a.log with latch := some r, removal := true } }
                { status := .ok, body := r.bytes, readLog := true }) ∧ r.bytes.length = 24)
      ∧ (∀ p : List Byte, s.takes .readLog p → s.log.records = [] →
        exec (.readLog after) s
          = .next (State.answer { a with log := { a.log with latch := none, removal := false } }
              { status := .ok, body := bytes16 a.log.counter ++ List.replicate 22 0, readLog := true }))
      ∧ (s.readoutOpen = true →
        let t : State := { a with
          log := { a.log with records := a.log.records.drop 1, removal := false }
          pins := { a.pins with sckFalls := 199 } }
        exec (.readLogReadoutComplete after) s = .next t
          ∧ ∀ r : Response, s.port.response = some r → t.sdo = some ((nth r.body 23).getLsbD 0))
      ∧ (∀ bits : List Bool, s.readoutOpen = true → s.port.sselLow = true →
        ∃ t, exec (.transactionEnd after bits) s = .next t
          ∧ t.log = { a.log with
              records := if bits.length < 200 then a.log.records else a.log.records.drop 1, removal := false }))
  ∧ ∀ r : LogRecord,
    let m := r.sample
    let piece := fun first count : Nat => (r.bytes.drop first).take count
    let bit := fun i : Nat => (nth r.bytes 2).getLsbD i
    piece 0 2 = bytes16 r.seq ∧ (nth r.bytes 2).extractLsb' 0 4 = r.type.code
      ∧ bit 4 = m.drawUndefined ∧ bit 5 = m.brk ∧ bit 6 = m.alarm ∧ bit 7 = m.lost
      ∧ upperNibble (nth r.bytes 3) = r.id.proposer ∧ lowerNibble (nth r.bytes 3) = r.id.seq ∧ nth r.bytes 4 = m.round
      ∧ piece 5 3 = bytes24 ((m.speed.map (BitVec.ofInt 24)).getD 0x800000)
      ∧ piece 8 2 = bytes16 ((m.load.map (BitVec.ofInt 16)).getD 0x8000)
      ∧ piece 10 2 = signed16 m.draw ∧ piece 12 2 = signed16 m.trim
      ∧ (∀ n : Channel, piece (14 + 2 * n.val) 2 = bytes16 (((m.loads.get n).map (BitVec.ofInt 16)).getD 0x8000))
      ∧ (nth r.bytes 22).extractLsb' 0 4 = m.ready ∧ upperNibble (nth r.bytes 22) = r.origin
      ∧ (nth r.bytes 23).extractLsb' 6 2 = r.outcome.code.extractLsb' 0 2
      ∧ (nth r.bytes 23).extractLsb' 0 6 = r.cause.extractLsb' 0 6

/-- CONFIGURE answers INVALID with the first failing field and changes nothing, or holds the record, goes to STANDBY and
starts the round timer, the filters, the counters and the channel states. Each field passes under the condition that the
field table gives for its index, those of a channel at or above the drive count always. The record's fields are read from
the bytes at which its table has them, most significant byte first. The filters start inactive, and a fast line that is
high at that instant is held. -/
def Obligations.ConfigureChecksAndAccepts : Prop :=
  (∀ p : List Byte,
    let c := ConfigRecord.ofBytes p
    let u1 := fun i : Nat => (nth p i).toNat
    let u2 := fun i : Nat => 256 * u1 i + u1 (i + 1)
    let u3 := fun i : Nat => 65536 * u1 i + u2 (i + 1)
    let s2 := fun i : Nat => if u2 i < 32768 then (u2 i : Int) else (u2 i : Int) - 65536
    c.periodCode = u1 0 ∧ (∀ v : Station, c.upstream = some v ↔ u1 1 = v.val) ∧ c.driveCount = u1 2
      ∧ (∀ n : Channel, c.chan.get n =
          { pulse := u3 (3 + 11 * n.val), share := u2 (6 + 11 * n.val), expected := u2 (8 + 11 * n.val)
            f0 := u2 (10 + 11 * n.val), f100 := u2 (12 + 11 * n.val) })
      ∧ c.fastWidth = u1 47 ∧ c.slowTime = u1 48 ∧ c.stallTime = u2 49 ∧ c.minSpeed = u3 51 ∧ c.minLoad = u2 54
      ∧ c.slipTolerance = u2 56 ∧ c.shareTolerance = u2 58 ∧ c.softLow = s2 60 ∧ c.softHigh = s2 62 ∧ c.hardLow = s2 64
      ∧ c.hardHigh = s2 66 ∧ c.trimLimit = u2 68 ∧ c.shareTrimLimit = u1 70 ∧ c.rampNormal = u2 71 ∧ c.rampTrial = u2 73
      ∧ c.rampRecovery = u2 75 ∧ (c.separateRamps = true ↔ u1 77 = 1))
  ∧ (∀ (own : Station) (p : List Byte),
    let c := ConfigRecord.ofBytes p
    let shares := (channels.map fun n => if n.val < c.driveCount then (c.chan.get n).share else 0).sum
    let passes : Nat → Prop := fun i =>
      (i = 1 → (nth p 0).toNat ≤ 3) ∧ (i = 2 → nth p 1 = 0xFF ∨ (nth p 1).toNat < own.val)
        ∧ (i = 3 → 1 ≤ c.driveCount ∧ c.driveCount ≤ 4)
        ∧ (∀ n : Channel, n.val < c.driveCount →
            let h := c.chan.get n
            (i = 4 + 5 * n.val → 1 ≤ h.pulse ∧ h.pulse ≤ 16777215)
              ∧ (i = 5 + 5 * n.val → 50 ≤ h.share ∧ h.share ≤ 1000 ∧ (n.val + 1 = c.driveCount → shares = 1000))
              ∧ (i = 6 + 5 * n.val → 1 ≤ h.expected ∧ h.expected ≤ 65535)
              ∧ (i = 7 + 5 * n.val → 100 ≤ h.f0 ∧ h.f0 ≤ 50000)
              ∧ (i = 8 + 5 * n.val → h.f0 + 100 ≤ h.f100 ∧ h.f100 ≤ 65535))
        ∧ (i = 24 → c.fastWidth ≤ 15) ∧ (i = 25 → 1 ≤ c.slowTime ∧ c.slowTime ≤ 255)
        ∧ (i = 26 → 100 ≤ c.stallTime ∧ c.stallTime ≤ 5000) ∧ (i = 27 → 1 ≤ c.minSpeed ∧ c.minSpeed ≤ 300000)
        ∧ (i = 28 → c.minLoad ≤ 4000) ∧ (i = 29 → 1 ≤ c.slipTolerance ∧ c.slipTolerance ≤ 1000)
        ∧ (i = 30 → 1 ≤ c.shareTolerance ∧ c.shareTolerance ≤ 1000)
        ∧ (i = 31 → -3000 ≤ c.softLow ∧ c.softLow ≤ 3000)
        ∧ (i = 32 → -3000 ≤ c.softHigh ∧ c.softHigh ≤ 3000 ∧ c.softLow < c.softHigh)
        ∧ (i = 33 → -3000 ≤ c.hardLow ∧ c.hardLow ≤ 3000 ∧ c.hardLow ≤ c.softLow)
        ∧ (i = 34 → -3000 ≤ c.hardHigh ∧ c.hardHigh ≤ 3000 ∧ c.softHigh ≤ c.hardHigh)
        ∧ (i = 35 → 1 ≤ c.trimLimit ∧ c.trimLimit ≤ 1000) ∧ (i = 36 → 1 ≤ c.shareTrimLimit ∧ c.shareTrimLimit ≤ 200)
        ∧ (i = 37 → 1 ≤ c.rampNormal ∧ c.rampNormal ≤ 1000) ∧ (i = 38 → 1 ≤ c.rampTrial ∧ c.rampTrial ≤ 1000)
        ∧ (i = 39 → 1 ≤ c.rampRecovery ∧ c.rampRecovery ≤ 1000) ∧ (i = 40 → (nth p 77).toNat ≤ 1)
    (configFailure own p = none ↔ ∀ i : Nat, 1 ≤ i → i ≤ 40 → passes i)
      ∧ (∀ i : Nat, configFailure own p = some i ↔
          1 ≤ i ∧ i ≤ 40 ∧ ¬passes i ∧ ∀ j : Nat, 1 ≤ j → j < i → passes j))
  ∧ ∀ (after : Wait) (p : List Byte) (s : State), s.takes .configure p →
    let a := s.advance after
    (∀ i : Nat, configFailure s.station p = some i →
        exec (.configure after) s = .next (a.answer { status := .invalid, body := [byteOf i], readLog := false }))
      ∧ (configFailure s.station p = none →
        ∃ t, exec (.configure after) s = .next t ∧ t.config = some (ConfigRecord.ofBytes p) ∧ t.link.state = .standby
          ∧ t.round = { RoundTimer.reset with start := a.now }
          ∧ t.inputs.sensedFrom = a.now ∧ t.inputs.samples = 0 ∧ t.inputs.rdy = Inputs.reset.rdy
          ∧ t.inputs.flt = Inputs.reset.flt ∧ t.inputs.brk = Inputs.reset.brk
          ∧ (∀ n : Channel, t.inputs.spd.get n = { level := false, differs := 0, held := a.pins.spd.getLsbD n.val }
              ∧ t.inputs.ldf.get n = { level := false, differs := 0, held := a.pins.ldf.getLsbD n.val }
              ∧ t.inputs.idx.get n = { level := false, differs := 0, held := a.pins.idx.getLsbD n.val }
              ∧ t.counters.get n = { Counters.reset with stallFrom := a.now }
              ∧ t.chans.get n = if n.val < (ConfigRecord.ofBytes p).driveCount then .offline else .disabled)
          ∧ t.port.response = some (.ok [byteOf s.station.val])
          ∧ t.line = a.line ∧ t.roster = s.roster ∧ t.trial = s.trial ∧ t.trim = s.trim ∧ t.log = s.log ∧ t.brk = s.brk
          ∧ t.meas = s.meas ∧ t.draw = s.draw ∧ t.check = s.check ∧ t.pwm = s.pwm)

/-- JOIN in STANDBY enters LISTENING with both counts 0, in an unsynchronised round; LEAVE in LISTENING enters STANDBY at
once with LEFT and a cleared roster, in ACTIVE it makes the leave OWED while the trial record is IDLE and is refused BUSY
otherwise. That the lost-round flag stands through the LISTENING round that JOIN enters is the model's choice (log 38). -/
def Obligations.JoinAndLeave : Prop :=
  ∀ (after : Wait) (p : List Byte) (s : State),
    let a := s.advance after
    (s.takes .join p →
        exec (.join after) s = .next (State.answer { a with
            link := { a.link with state := .listening, listenCount := 0, joinCount := 0 }
            line := a.line.off
            round := { a.round with synced := false, ownSlot := .unobserved } } (.ok [])))
      ∧ (s.takes .leave p → s.link.state = .listening →
        ∃ t, exec (.leave after) s = .next t ∧ t.link = { state := .standby, listenCount := 0, joinCount := 0, leave := .idle }
          ∧ t.hasEvent .left = true ∧ (∀ st : Station, t.entry st = Entry.cleared) ∧ t.line = a.line.off
          ∧ t.round.number = s.round.number ∧ t.round.start = s.round.start ∧ t.port.response = some (.ok []))
      ∧ (s.takes .leave p → s.link.state = .active → s.trialIdle = true →
        exec (.leave after) s = .next (State.answer { a with link := { a.link with state := .leaving, leave := .owed } } (.ok [])))
      ∧ (s.takes .leave p → s.link.state = .active → s.trialIdle = false →
        exec (.leave after) s = .next (a.answer (.refused .busy)))

/-- PROPOSE_TRIAL: BUSY, then INVALID, then TARGET_ABSENT, else the trial sequence counter advances and the proposal is
pending under the new id. The seven parameter bytes are the kind, the drive index, the target, the span's first and last
station, the step, 8-bit signed, and the duration; they are INVALID unless each lies in its range, the target lies in the
span, and a WATCH has step 0 and the span's first station as its target. -/
def Obligations.ProposeTrialChecks : Prop :=
  ∀ (after : Wait) (b : List Byte) (s : State), s.takes .proposeTrial b →
    let a := s.advance after
    let p := TrialParams.ofRequest b
    let byte := fun i : Nat => (nth b i).toNat
    let busy := s.trialIdle = false ∨ ∃ t : Station, t ≠ s.station ∧ (s.entry t).presence = .present
      ∧ ((s.entry t).report.phase = .go ∨ (s.entry t).report.phase = .run)
    (p.valid = true ↔ 1 ≤ byte 0 ∧ byte 0 ≤ 3 ∧ byte 1 ≤ 3 ∧ byte 3 ≤ byte 2 ∧ byte 2 ≤ byte 4 ∧ byte 4 ≤ 15
        ∧ byte 5 ≠ 0x80 ∧ 1 ≤ byte 6 ∧ byte 6 ≤ 200 ∧ (byte 0 = 1 → byte 5 = 0 ∧ byte 2 = byte 3))
      ∧ (p.valid = true → p.kind.code.toNat = byte 0 ∧ p.drive.val = byte 1 ∧ p.target.val = byte 2
          ∧ p.spanFirst.val = byte 3 ∧ p.spanLast.val = byte 4 ∧ p.step = (nth b 5).toInt ∧ p.duration = byte 6)
      ∧ (busy → exec (.proposeTrial after) s = .next (a.answer (.refused .busy)))
      ∧ (¬busy → p.valid = false → exec (.proposeTrial after) s = .next (a.answer (.refused .invalid)))
      ∧ (¬busy → p.valid = true → (s.entry p.target).presence = .absent →
          exec (.proposeTrial after) s = .next (a.answer (.refused .targetAbsent)))
      ∧ (¬busy → p.valid = true → (s.entry p.target).presence ≠ .absent →
          exec (.proposeTrial after) s = .next (State.answer
            { a with seqCounter := a.seqCounter + 1
                     trial := { a.trial with request := .propose ⟨s.station, a.seqCounter + 1⟩ p } }
            (.ok [TrialId.byte ⟨s.station, a.seqCounter + 1⟩])))

/-- ABORT_TRIAL by local phase. -/
def Obligations.AbortTrialByPhase : Prop :=
  ∀ (after : Wait) (b : List Byte) (s : State), s.takes .abortTrial b →
    let a := s.advance after
    (∀ (id : TrialId) (p : TrialParams), s.trial.phase = .idle → s.trial.request = .propose id p →
        ∃ t, exec (.abortTrial after) s = .next t ∧ t.trial = { s.trial with request := .none }
          ∧ t.lastOutcome = { outcome := .withdrawn, id := id, code := Reason.requested.code, station := s.station }
          ∧ t.hasEvent .trialEnd = true ∧ t.port.response = some (.ok []))
      ∧ ((s.trial.phase = .idle ∧ s.trial.request = .none) ∨ s.trial.phase = .recovering →
        exec (.abortTrial after) s = .next (a.answer (.refused .noTrial)))
      ∧ (s.trial.phase = .accepting → s.isMember = true →
        exec (.abortTrial after) s = .next (State.answer { a with trial := { a.trial with refusing := true } } (.ok [])))
      ∧ ((s.trial.phase = .accepting ∧ s.isMember = false) ∨ s.trial.phase = .proposing ∨ s.trial.phase = .scheduled
            ∨ s.trial.phase = .running →
        exec (.abortTrial after) s = .next (State.answer { a with trial := { a.trial with request := .abort } } (.ok [])))

/-- MANUAL_TRIM: BUSY, then BREAK, then INVALID, else the manual target and the class NORMAL, with the target chosen
again. The applied trim does not move. -/
def Obligations.ManualTrimChecks : Prop :=
  ∀ (after : Wait) (p : List Byte) (s : State), s.takes .manualTrim p →
    let a := s.advance after
    let v := (word16 p 0).toInt
    (s.trialIdle = false → exec (.manualTrim after) s = .next (a.answer (.refused .busy)))
      ∧ (s.trialIdle = true → s.brk.latch = true → exec (.manualTrim after) s = .next (a.answer (.refused .brk)))
      ∧ (s.trialIdle = true → s.brk.latch = false → s.cfg.trimLimit < v.natAbs →
          exec (.manualTrim after) s = .next (a.answer (.refused .invalid)))
      ∧ (s.trialIdle = true → s.brk.latch = false → v.natAbs ≤ s.cfg.trimLimit →
          exec (.manualTrim after) s = .next (State.answer
            { a with trim := { a.trim with
                manual := v, cls := .normal, target := if s.brk.mark then 0 else s.trim.trialTarget.getD v } } (.ok [])))

/-- SNAP appends the last sample under the counter's number and answers that number; FLUSH_LOG empties the log and keeps
the counter. Both are refused BUSY while the trial record is not IDLE, and SNAP LOG_SPACE when the log is full. -/
def Obligations.SnapAndFlushLog : Prop :=
  ∀ (after : Wait) (p : List Byte) (s : State),
    let a := s.advance after
    (s.takes .snap p → s.trialIdle = false → exec (.snap after) s = .next (a.answer (.refused .busy)))
      ∧ (s.takes .snap p → s.trialIdle = true → 256 ≤ s.log.records.length →
          exec (.snap after) s = .next (a.answer (.refused .logSpace)))
      ∧ (s.takes .snap p → s.trialIdle = true → s.log.records.length < 256 →
          exec (.snap after) s = .next (State.answer
            { a with log := { a.log with
                records := a.log.records ++ [{ seq := a.log.counter, type := .snap, id := .zero, sample := a.log.last,
                                               outcome := .none, cause := 0, origin := 0 }]
                counter := a.log.counter + 1 } } (.ok (bytes16 a.log.counter))))
      ∧ (s.takes .flushLog p → s.trialIdle = false → exec (.flushLog after) s = .next (a.answer (.refused .busy)))
      ∧ (s.takes .flushLog p → s.trialIdle = true →
          exec (.flushLog after) s = .next (State.answer { a with log := { a.log with records := [], removal := false } }
            (.ok (bytes16 (BitVec.ofNat 16 s.log.records.length)))))

/-- REV_CHECK: INVALID, BUSY, DRIVES, else ARMED with the timer from 0; CANCEL_CHECK ends a check under way with
CANCELLED and is refused NO_CHECK otherwise. The reading at which the timer stops is kept (log 29). -/
def Obligations.RevCheckAndCancel : Prop :=
  ∀ (after : Wait) (p : List Byte) (s : State),
    let a := s.advance after
    (s.takes .revCheck p → 3 < (nth p 0).toNat → exec (.revCheck after) s = .next (a.answer (.refused .invalid)))
      ∧ (s.takes .revCheck p → (nth p 0).toNat ≤ 3 → s.checkUnderWay = true →
          exec (.revCheck after) s = .next (a.answer (.refused .busy)))
      ∧ (∀ n : Channel, s.takes .revCheck p → (nth p 0).toNat = n.val → s.checkUnderWay = false → s.chans.get n ≠ .ready →
          exec (.revCheck after) s = .next (a.answer (.refused .drives)))
      ∧ (∀ n : Channel, s.takes .revCheck p → (nth p 0).toNat = n.val → s.checkUnderWay = false → s.chans.get n = .ready →
          exec (.revCheck after) s = .next (State.answer
            { a with check := { state := .armed, channel := n, count := 0, verdict := .none, timer := .running a.now,
                                firstIndex := 0, revTime := 0 } } (.ok [])))
      ∧ (s.takes .cancelCheck p → s.checkUnderWay = true →
          ∃ t, exec (.cancelCheck after) s = .next t
            ∧ t.check = { s.check with state := .done, verdict := .incomplete .cancelled, timer := .stopped a.indexReading }
            ∧ t.hasEvent .revCheckDone = true ∧ t.port.response = some (.ok []))
      ∧ (s.takes .cancelCheck p → s.checkUnderWay = false →
          exec (.cancelCheck after) s = .next (a.answer (.refused .noCheck)))

/-- CLEAR_FAULTS releases each FAULTED channel whose filtered FLT is inactive, to READY or OFFLINE by its filtered RDY,
with its slip count at 0, leaves every other channel, and answers the four states; CLEAR_BREAK clears the latch unless the
line is active, and leaves the mark and the events. -/
def Obligations.ClearFaultsAndBreak : Prop :=
  ∀ (after : Wait) (p : List Byte) (s : State),
    let a := s.advance after
    (s.takes .clearFaults p →
        ∃ t, exec (.clearFaults after) s = .next t
          ∧ (∀ n : Channel, t.chans.get n =
              if s.isFaulted n = true ∧ (s.inputs.flt.get n).active = false then
                (if (s.inputs.rdy.get n).active then .ready else .offline) else s.chans.get n)
          ∧ (∀ n : Channel, t.meas.chan.get n =
              if s.isFaulted n = true ∧ (s.inputs.flt.get n).active = false then { s.meas.chan.get n with slip := 0 }
              else s.meas.chan.get n)
          ∧ t.port = { a.port with srdy := true, request := [], response := some (.ok (channels.map fun n => (t.chans.get n).byte)) }
          ∧ t.check = s.check ∧ t.trial = s.trial ∧ t.trim = s.trim ∧ t.log = s.log)
      ∧ (s.takes .clearBreak p → s.inputs.brk.active = true →
        exec (.clearBreak after) s = .next (a.answer
          { status := .refused, body := [Reason.inputActive.code, flagByte s.brk.latch, 1], readLog := false }))
      ∧ (s.takes .clearBreak p → s.inputs.brk.active = false →
        exec (.clearBreak after) s = .next (State.answer
          { a with brk := { a.brk with latch := false }
                   trim := { a.trim with target := if s.brk.mark then 0 else s.trim.trialTarget.getD s.trim.manual } }
          (.ok [0, 0])))

/-! ### The Drawlink (R1 to R22) -/

/-- A character start is detected when the line is still dominant 1 µs after it fell: at an idle receiver it is the
character under way, and from the stop-bit sample of one under way on, 21 µs after its start edge, the next. It is noted
when it falls inside the mark window or the own slot of the round under way. A glitch changes nothing, and neither does a
change of level within a character. A frame attempt whose window has closed stays when the characters under way, the
detected one among them, can complete it, and is discarded with SHORT otherwise (the model's reading, log 14). -/
def Obligations.CharacterStartIsDetected : Prop :=
  ∀ (after : Wait) (s : State), s.running = true → s.link.state.receives = true →
    let a := s.advance after
    let noted : RoundTimer :=
      if s.round.start ≤ a.now - 1 then
        { a.round with
          startInWindow := a.round.startInWindow || a.inWindow (a.now - 1)
          ownSlot := if a.round.synced && a.slotOf (a.now - 1) = some a.station then .heard else a.round.ownSlot }
      else a.round
    let settled : Prop := ∀ f : Attempt, s.line.attempt = some f → s.round.slotsClosed ≤ f.slot.val
    exec (.characterStart after false) s = .next a
      ∧ (settled → s.line.rx = none →
          exec (.characterStart after true) s
            = .next { a with line := { a.line with rx := some (a.now - 1) }, round := noted })
      ∧ (∀ st : Nat, settled → s.line.rx = some st → s.line.rxNext = none → st + 21 ≤ a.now - 1 →
          exec (.characterStart after true) s
            = .next { a with line := { a.line with rxNext := some (a.now - 1) }, round := noted })
      ∧ (∀ st : Nat, settled → s.line.rx = some st → a.now - 1 < st + 21 → exec (.characterStart after true) s = .next a)
      ∧ (∀ f : Attempt, s.line.attempt = some f → f.slot.val < s.round.slotsClosed → s.line.tx = .released →
          40 + 360 * (f.slot.val + 1) ≤ a.now - s.round.start →
        ∃ t, exec (.characterStart after true) s = .next t
          ∧ (s.line.rx = none → t.line.rx = some (a.now - 1) ∧ t.line.rxNext = s.line.rxNext)
          ∧ (∀ st : Nat, s.line.rx = some st → t.line.rx = some st
              ∧ t.line.rxNext = if s.line.rxNext = none ∧ st + 21 ≤ a.now - 1 then some (a.now - 1) else s.line.rxNext)
          ∧ (let begun := (t.line.rxSampled.toList ++ t.line.rx.toList ++ t.line.rxNext.toList).filter fun st =>
              decide (s.round.start ≤ st ∧ 40 + 360 * f.slot.val ≤ st - s.round.start
                ∧ st - s.round.start < 40 + 360 * (f.slot.val + 1))
             (15 ≤ f.bytes.length + begun.length →
                t.line.attempt = some f ∧ t.line.errors = s.line.errors ∧ t.port = a.port)
              ∧ (f.bytes.length + begun.length < 15 → t.line.attempt = none
                  ∧ (s.round.lost = false → t.hasLinkError .short = true)
                  ∧ (s.round.lost = true → t.line.errors = s.line.errors ∧ t.port = a.port))))

/-- A valid mark is a boundary in LISTENING and inside the mark window, and its number is adopted; before the window it is
an early mark that makes none. A mark whose start edge fell before the last boundary is placed in the round that this
boundary closed: it is adopted when that was a LISTENING round, or when it fell in the mark window there (the model's
reading, log 39). A mark whose stop bit had been sampled when the node began to send is taken alike (the model's reading,
log 11). -/
def Obligations.MarksAreAdoptedOrEarly : Prop :=
  ∀ (after : Wait) (st : Nat) (n : BitVec 8) (s : State),
    let a := s.advance after
    let left : LineInterface :=
      if a.characterDue then { a.line with rx := a.line.rxNext, rxNext := none, rxSampled := none }
      else { a.line with rxSampled := none }
    a.completes st →
    (s.link.state = .listening
        ∨ (s.link.state.onLink = true ∧ s.round.start ≤ st ∧ s.period ≤ (st - s.round.start) + 1000)
        ∨ (s.link.state.onLink = true ∧ st < s.round.start ∧ s.round.before.state = .listening)
        ∨ (s.link.state.onLink = true ∧ st < s.round.start ∧ s.round.before.state.onLink = true
            ∧ s.period ≤ (st - s.round.before.start) + 1000) →
        ∃ t, exec (.characterComplete after ⟨n, true, true⟩) s = .next t ∧ t.round.number = n ∧ t.round.start = a.now
          ∧ t.round.windowOpen = false ∧ t.round.lost = false)
      ∧ (s.link.state.onLink = true → s.round.start ≤ st → (st - s.round.start) + 1000 < s.period →
        ∃ t, exec (.characterComplete after ⟨n, true, true⟩) s = .next t ∧ t.round = s.round
          ∧ t.hasLinkError .earlyMark = true ∧ t.line.rx = left.rx ∧ t.line.rxNext = left.rxNext
          ∧ t.line.rxSampled = none ∧ t.line.tx = s.line.tx ∧ t.link = s.link ∧ t.roster = s.roster)

/-- How the window's round ends without an adopted mark. A character that begins inside the window and completes as
anything but a valid mark closes the round as lost: LOST_MARK, the number one on, and FRAMING when its stop bit was
dominant. The own mark, read back without mismatch, is a boundary with the number that it carried, in a round that is
not lost. A character whose start edge fell in the window of the round that the last boundary closed is taken alike (the
model's reading, log 39), and so is one whose stop bit had been sampled when the node began to send (log 11). That the lost-round flag is set also when this boundary completes a leave into STANDBY is the
model's choice (log 38). -/
def Obligations.LostRoundsAndOwnMarks : Prop :=
  ∀ (after : Wait) (st : Nat) (c : CharBits) (s : State),
    let a := s.advance after
    let inWindow := (s.round.start ≤ st ∧ s.period ≤ (st - s.round.start) + 1000)
      ∨ (st < s.round.start ∧ s.round.before.state.onLink = true ∧ s.period ≤ (st - s.round.before.start) + 1000)
    s.link.state.onLink = true →
    (a.completes st → inWindow → (c.mark && c.stop) = false →
        ∃ t, exec (.characterComplete after c) s = .next t ∧ t.round.number = s.round.number + 1 ∧ t.round.start = a.now
          ∧ t.round.lost = true ∧ t.hasLinkError .lostMark = true
          ∧ (s.hasLinkError .lostMark = false → t.hasEvent .linkError = true)
          ∧ (c.stop = false → t.hasLinkError .framing = true))
      ∧ (∀ n : BitVec 8, s.running = true → s.line.tx = .mark n → s.line.rx = some st → st + 22 ≤ a.now →
        ∃ t, exec (.characterComplete after c) s = .next t ∧ t.round.number = n ∧ t.round.start = a.now
          ∧ t.round.lost = false ∧ t.line.tx = .released)

/-- A readback mismatch: on the own mark COLLISION, with the line released and the character going on at the receiver; in
the own slot STANDBY with DUPLICATE, the line released, the roster cleared and the round timer kept. -/
def Obligations.ReadbackMismatch : Prop :=
  ∀ (after : Wait) (s : State), s.running = true →
    let a := s.advance after
    (∀ n : BitVec 8, s.line.tx = .mark n →
        ∃ t, exec (.readbackMismatch after) s = .next t
          ∧ t.line = { a.line with tx := .released, errors := a.line.errors ||| LinkError.collision.flag }
          ∧ t.hasLinkError .collision = true ∧ t.round = s.round ∧ t.link = s.link ∧ t.trial = s.trial)
      ∧ (∀ (r : Report) (k : Nat), s.line.tx = .frame r k →
        ∃ t, exec (.readbackMismatch after) s = .next t
          ∧ t.link = { state := .standby, listenCount := 0, joinCount := 0, leave := .idle } ∧ t.line = a.line.off
          ∧ t.hasEvent .duplicate = true ∧ (∀ st : Station, t.entry st = Entry.cleared)
          ∧ t.round.number = s.round.number ∧ t.round.start = s.round.start
          ∧ t.trim.manual = 0 ∧ t.trim.trialTarget = none ∧ t.trim.target = 0 ∧ t.trim.shiftTarget = 0
          ∧ t.trim.cls = .recovery ∧ t.trim.applied = s.trim.applied ∧ t.trim.shift = s.trim.shift
          ∧ t.log = s.log ∧ t.line.errors = a.line.errors)

/-- What an own-slot conflict does to the trial record, whether the node finds it by a readback mismatch on its own frame or
by a valid frame that it receives in its own slot, in LISTENING or in a lost round: a tracked trial or a pending proposal
ends ABORTED with cause LINK and the own station, with no report owed, and a RECOVERING record owes none any more. A CLOSE
record is owed at a member's SCHEDULED or RUNNING record, and the next boundary, of whatever kind, appends it to a log with
room, on the sample of the closing round. That an owed record which finds 256 records in the log is dropped there, with the
log and its counter kept, is the model's choice (log 34): R159 says that an append to a full log does not occur, and the
CLOSE that R162 leaves out is only the one of an abort at the boundary that takes the GO. -/
def Obligations.ConflictEndsTheTrial : Prop :=
  (∀ (after : Wait) (r : Report) (j st : Nat) (f : Attempt) (c : CharBits) (cmd : Instr) (s : State),
    let a := s.advance after
    s.running = true →
    ((cmd = .readbackMismatch after ∧ s.line.tx = .frame r j)
      ∨ (cmd = .characterComplete after c ∧ a.completes st ∧ s.round.synced = true ∧ s.line.attempt = some f
          ∧ s.round.start ≤ st ∧ 40 + 360 * f.slot.val ≤ st - s.round.start ∧ st - s.round.start < 40 + 360 * (f.slot.val + 1)
          ∧ f.bytes.length = 14 ∧ f.framing = false ∧ f.markInside = false ∧ c.mark = false ∧ c.stop = true
          ∧ sumBytes (f.bytes ++ [c.data]) = 0 ∧ lowerNibble (nth (f.bytes ++ [c.data]) 0) = f.slot
          ∧ f.slot = s.station ∧ (s.link.state = .listening ∨ s.round.lost = true))) →
    (s.trial.phase ≠ .idle → s.trial.phase ≠ .recovering →
        ∃ t, exec cmd s = .next t ∧ t.trial.phase = .recovering ∧ t.trial.abortsOwed = 0
          ∧ t.trial.request = .none
          ∧ t.lastOutcome = { outcome := .aborted, id := s.trial.id, code := Reason.link.code, station := s.station }
          ∧ t.hasEvent .trialEnd = true
          ∧ (t.trial.linkCloseOwed = true ↔ s.isMember = true ∧ (s.trial.phase = .scheduled ∨ s.trial.phase = .running)))
      ∧ (∀ (id : TrialId) (p : TrialParams), s.trial.phase = .idle → s.trial.request = .propose id p →
        ∃ t, exec cmd s = .next t ∧ t.trial.phase = .recovering ∧ t.trial.abortsOwed = 0
          ∧ t.trial.request = .none
          ∧ t.lastOutcome = { outcome := .aborted, id := id, code := Reason.link.code, station := s.station }
          ∧ t.hasEvent .trialEnd = true)
      ∧ (s.trial.phase = .recovering →
        ∃ t, exec cmd s = .next t ∧ t.trial = { s.trial with abortsOwed := 0 } ∧ t.lastOutcome = s.lastOutcome))
  ∧ (∀ (after : Wait) (b : BoundaryEvent) (k : BoundaryKind) (n : BitVec 8) (s : State),
    (s.advance after).boundaryOf b = some (k, n) → s.trial.phase = .recovering → s.trial.linkCloseOwed = true →
    ∃ t, exec (boundaryCommand after b) s = .next t ∧ t.trial.linkCloseOwed = false
      ∧ (s.log.records.length < 256 →
          t.log.records = s.log.records
              ++ [{ seq := s.log.counter, type := .close, id := s.trial.id, sample := t.log.last, outcome := .aborted
                    cause := Reason.link.code, origin := s.station }]
            ∧ t.log.counter = s.log.counter + 1 ∧ t.hasEvent .logClosed = true)
      ∧ (256 ≤ s.log.records.length → t.log.records = s.log.records ∧ t.log.counter = s.log.counter))

/-- In ACTIVE and LEAVING the mark window opens at P − 1000 µs; at the origination time, with no character start in the
window, the node sends a mark carrying its number plus one. The receiver takes its own start edge, and
keeps a character whose stop bit it has sampled (log 11); an origination that is suppressed is no event (log 5). -/
def Obligations.WindowAndOrigination : Prop :=
  ∀ (after : Wait) (s : State), s.running = true → s.link.state.onLink = true →
    let a := s.advance after
    (s.round.windowOpen = false → s.period ≤ (a.now - s.round.start) + 1000 →
        exec (.markWindowOpen after) s = .next { a with round := { a.round with windowOpen := true } })
      ∧ (s.round.windowOpen = true → s.round.startInWindow = false → s.line.tx = .released →
          s.period + 50 * s.station.val ≤ a.now - s.round.start →
        exec (.origination after) s = .next { a with
            line := { a.line with
              tx := .mark (s.round.number + 1), rx := some a.now, rxNext := none
              rxSampled := s.line.rx.filter fun st => decide (st + 21 ≤ a.now) }
            round := { a.round with startInWindow := true } })
      ∧ (s.round.startInWindow = true → exec (.origination after) s = .next a)

/-- At the opening of its own slot, in a round that is not lost, an ACTIVE or LEAVING node begins its frame: the report
as it stands, with the station in use and the LEAVING flag of an owed leave. A lost round sends nothing. The receiver
takes its own start edge and keeps a character whose stop bit it has sampled (log 11), so an attempt whose window has closed
stays when that character can complete it, and is discarded with SHORT otherwise (log 14); a slot without a transmission is
no event (log 5). -/
def Obligations.OwnSlotSendsTheReport : Prop :=
  ∀ (after : Wait) (s : State), s.running = true → s.link.state.onLink = true →
    let a := s.advance after
    (s.round.lost = false → s.round.ownSlotDone = false → s.line.tx = .released →
        a.now - s.round.start = 40 + 360 * s.station.val →
        ∃ t, exec (.ownSlotOpen after) s = .next t
          ∧ t.line.tx = .frame { s.ownReport with
                station := s.station, leaving := decide (s.link.state = .leaving ∧ s.link.leave = .owed) } 0
          ∧ t.line.rx = some a.now ∧ t.line.rxNext = none
          ∧ t.line.rxSampled = s.line.rx.filter (fun st => decide (st + 21 ≤ a.now))
          ∧ ((∀ f : Attempt, s.line.attempt = some f → s.round.slotsClosed ≤ f.slot.val) →
              t.line = { s.line with tx := t.line.tx, rx := t.line.rx, rxNext := none, rxSampled := t.line.rxSampled })
          ∧ (∀ f : Attempt, s.line.attempt = some f → f.slot.val < s.round.slotsClosed →
              let begun := t.line.rxSampled.toList.filter fun st =>
                decide (s.round.start ≤ st ∧ 40 + 360 * f.slot.val ≤ st - s.round.start
                  ∧ st - s.round.start < 40 + 360 * (f.slot.val + 1))
              (15 ≤ f.bytes.length + begun.length → t.line.attempt = some f ∧ t.line.errors = s.line.errors)
                ∧ (f.bytes.length + begun.length < 15 → t.line.attempt = none ∧ t.hasLinkError .short = true))
          ∧ t.round.ownSlotDone = true ∧ (s.round.synced = true → t.round.ownSlot = .heard)
          ∧ t.link = s.link ∧ t.roster = s.roster ∧ t.ownReport = s.ownReport)
      ∧ (s.round.lost = true → exec (.ownSlotOpen after) s = .next a)

/-- A slot window closes 40 + 360·(s + 1) µs after the boundary. An attempt in it that has fewer than fifteen characters is
discarded and sets SHORT unless the round is lost. The characters that began inside the window and are still under way
count, and at the very instant of the closing so does one whose start edge the receiver may still detect there, so an
attempt that they can complete waits for them (the model's reading, log 14). An attempt left from an earlier window is
judged alike, and one in a later window stays. -/
def Obligations.SlotWindowCloses : Prop :=
  ∀ (after : Wait) (s : State), s.running = true → s.link.state.receives = true → s.round.slotsClosed < 16 →
    let a := s.advance after
    let k := s.round.slotsClosed
    let received := s.line.rxSampled.toList ++
      if s.line.tx = .released then s.line.rx.toList ++ s.line.rxNext.toList else []
    let begun : Nat → List Nat := fun j =>
      received.filter fun st =>
        decide (s.round.start ≤ st ∧ 40 + 360 * j ≤ st - s.round.start ∧ st - s.round.start < 40 + 360 * (j + 1))
    let detectable : Nat → Prop := fun j =>
      s.line.tx = .released ∧ a.now - s.round.start = 40 + 360 * (j + 1)
        ∧ ∀ st : Nat, s.line.rx = some st → s.line.rxNext = none ∧ st + 21 ≤ a.now - 1
    let waits : Attempt → Prop := fun f =>
      15 ≤ f.bytes.length + (begun f.slot.val).length
        ∨ (f.bytes.length + (begun f.slot.val).length = 14 ∧ detectable f.slot.val)
    40 + 360 * (k + 1) ≤ a.now - s.round.start →
    ∃ t, exec (.slotWindowClose after) s = .next t ∧ t.round = { s.round with slotsClosed := k + 1 }
      ∧ (∀ f : Attempt, s.line.attempt = some f → f.slot.val ≤ k → ¬waits f →
          t.line.attempt = none ∧ (s.round.lost = false → t.hasLinkError .short = true)
            ∧ (s.round.lost = true → t.line.errors = s.line.errors))
      ∧ (∀ f : Attempt, s.line.attempt = some f → f.slot.val ≤ k → waits f → t = { a with round := t.round })
      ∧ (∀ f : Attempt, s.line.attempt = some f → k < f.slot.val → t = { a with round := t.round })
      ∧ (s.line.attempt = none → t = { a with round := t.round })

/-- The fifteenth character of a frame attempt whose bytes sum to 0 and whose station field is its slot's: a valid frame. It
joins the attempt when its start edge fell in the slot's window, closed or not, also when the node has begun to send after
its stop bit was sampled (the model's reading, log 11). In another station's slot, in a round that is not lost, it delivers
a good report: stored PRESENT with miss count 0, or clearing the entry when it carries the LEAVING flag, with PEER_CHANGE
when the presence changes. With a ready count above 4 or an undefined phase code it stores nothing and sets no flag. In a
lost round it delivers nothing. In the own slot, in LISTENING or in a lost round, it is a conflict: STANDBY with DUPLICATE
and no link error flag. An attempt that fails sets its flags and delivers nothing. A frame character opens an attempt in the
slot window that it begins in, or joins the one open there, and nothing else changes; outside every window it sets SLOT. In
an unsynchronised round it does nothing; in a lost round it sets no flag; a framing fault sets FRAMING always. The model's
readings: a framing fault opens no attempt (log 12); a character whose window has closed sets SHORT where no attempt waits,
the train of an attempt cut at its closing goes on with SLOT, but for a character that began inside that window, and an
attempt of another slot gives way with SHORT (log 14). That an early mark between its characters
ends such a train is the model's choice (log 47). -/
def Obligations.ValidFrameIsDelivered : Prop :=
  (∀ (after : Wait) (st : Nat) (f : Attempt) (c : CharBits) (s : State),
    let a := s.advance after
    let bytes := f.bytes ++ [c.data]
    let received : LineInterface :=
      if a.characterDue then { s.line with rx := s.line.rxNext, rxNext := none, rxSampled := none, attempt := none }
      else { s.line with rxSampled := none, attempt := none }
    a.completes st → s.round.synced = true → s.line.attempt = some f → s.round.start ≤ st →
    40 + 360 * f.slot.val ≤ st - s.round.start → st - s.round.start < 40 + 360 * (f.slot.val + 1) →
    f.bytes.length = 14 → f.framing = false → f.markInside = false → c.mark = false → c.stop = true →
    sumBytes bytes = 0 → lowerNibble (nth bytes 0) = f.slot → s.roster.length = 16 →
    (∀ r : Report, f.slot ≠ s.station → s.round.lost = false → bytes = r.frame → r.readyCount ≤ 4 →
      ∃ t, exec (.characterComplete after c) s = .next t
        ∧ t.entry f.slot = (if r.leaving then Entry.cleared
            else { presence := .present, miss := 0, heard := true, lastRound := s.round.number, report := r })
        ∧ (∀ o : Station, o ≠ f.slot → t.entry o = s.entry o)
        ∧ (t.hasEvent .peerChange = true ↔ s.hasEvent .peerChange = true ∨
            (s.entry f.slot).presence ≠ (if r.leaving then .absent else .present))
        ∧ t.line = received ∧ t.round = s.round ∧ t.link = s.link
        ∧ t.trial = s.trial ∧ t.trim = s.trim ∧ t.log = s.log ∧ t.meas = s.meas ∧ t.draw = s.draw
        ∧ t.ownReport = s.ownReport)
      ∧ (f.slot ≠ s.station → s.round.lost = false →
          4 < ((nth bytes 1).extractLsb' 0 3).toNat ∨ TrialPhase.ofCode ((nth bytes 1).extractLsb' 4 3) = none →
        exec (.characterComplete after c) s = .next { a with line := received })
      ∧ (f.slot ≠ s.station → s.round.lost = true → exec (.characterComplete after c) s = .next { a with line := received })
      ∧ (f.slot = s.station → s.link.state = .listening ∨ s.round.lost = true →
        ∃ t, exec (.characterComplete after c) s = .next t
          ∧ t.link = { state := .standby, listenCount := 0, joinCount := 0, leave := .idle } ∧ t.line = a.line.off
          ∧ t.hasEvent .duplicate = true ∧ (∀ u : Station, t.entry u = Entry.cleared)
          ∧ t.round.number = s.round.number ∧ t.round.start = s.round.start ∧ t.trim.manual = 0
          ∧ t.trim.trialTarget = none ∧ t.trim.target = 0 ∧ t.trim.shiftTarget = 0 ∧ t.trim.cls = .recovery
          ∧ t.trim.applied = s.trim.applied ∧ t.trim.shift = s.trim.shift ∧ t.log = s.log))
  ∧ ∀ (after : Wait) (st : Nat) (c : CharBits) (s : State),
    let a := s.advance after
    let left : LineInterface :=
      if a.characterDue then { a.line with rx := a.line.rxNext, rxNext := none, rxSampled := none }
      else { a.line with rxSampled := none }
    let answers := fun t : State => exec (.characterComplete after c) s = .next t
    let flagging := fun (e : LinkError) (x : State) =>
      ({ x with
          line := { x.line with errors := x.line.errors ||| e.flag }
          port := { x.port with events := if x.hasLinkError e then x.port.events else x.port.events ||| Event.linkError.flag } } :
        State)
    let unlessLost := fun (e : LinkError) (x : State) => if s.round.lost then x else flagging e x
    let inSlot := fun k : Station => 40 + 360 * k.val ≤ st - s.round.start ∧ st - s.round.start < 40 + 360 * (k.val + 1)
    let fresh := ∀ o : CutAttempt, a.line.overrun = some o → o.lastEnd < st
    a.completes st → s.round.start ≤ st → (c.mark && c.stop) = false →
    s.link.state = .listening ∨ (st - s.round.start) + 1000 < s.period →
    (s.round.synced = false → c.stop = true → answers { a with line := left })
      ∧ (s.round.synced = false → c.stop = false → answers (flagging .framing { a with line := left }))
      ∧ (s.round.synced = true → (∀ k : Station, ¬inSlot k) → fresh → c.stop = true →
          answers (unlessLost .slot { a with line := left }))
      ∧ (∀ o : CutAttempt, s.round.synced = true → (∀ k : Station, ¬inSlot k) → a.line.overrun = some o → st ≤ o.lastEnd →
          c.stop = true →
          answers (unlessLost .slot { a with line := { left with overrun := some { slot := o.slot, lastEnd := st + 22 } } }))
      ∧ (s.round.synced = true → fresh → c.stop = false → a.line.attempt = none →
          answers (flagging .framing { a with line := left }))
      ∧ (∀ k : Station, s.round.synced = true → inSlot k → c.stop = true →
          let opened : State := { a with line := { left with
            attempt := some { slot := k, bytes := [c.data], framing := false, markInside := false, lastEnd := st + 22 } } }
          let trainOf := fun j : Station =>
            ({ a with line := { left with overrun := some { slot := j, lastEnd := st + 22 } } } : State)
          (s.round.slotsClosed ≤ k.val → fresh → a.line.attempt = none → answers opened)
            ∧ (∀ f : Attempt, s.round.slotsClosed ≤ k.val → fresh → a.line.attempt = some f → f.slot ≠ k →
                answers (unlessLost .short opened))
            ∧ (∀ o : CutAttempt, a.line.overrun = some o → st ≤ o.lastEnd → a.line.attempt = none →
                (o.slot ≠ k → answers (unlessLost .slot (trainOf o.slot))) ∧ (o.slot = k → answers (trainOf k)))
            ∧ (k.val < s.round.slotsClosed → fresh → a.line.attempt = none → answers (unlessLost .short (trainOf k))))
      ∧ (∀ f : Attempt, s.round.synced = true → inSlot f.slot → a.line.attempt = some f → f.bytes.length < 14 →
          let joined : State := { a with line := { left with
            attempt := some { f with
              bytes := f.bytes ++ [c.data], framing := f.framing || !c.stop, lastEnd := st + 22 } } }
          (c.stop = true → answers joined) ∧ (c.stop = false → answers (flagging .framing joined)))
      ∧ (∀ f : Attempt, s.round.synced = true → inSlot f.slot → s.line.attempt = some f → f.bytes.length = 14 →
          let bytes := f.bytes ++ [c.data]
          f.framing = true ∨ c.stop = false ∨ f.markInside = true ∨ sumBytes bytes ≠ 0
            ∨ lowerNibble (nth bytes 0) ≠ f.slot →
          ∃ t, answers t ∧ t = { a with line := t.line, port := { a.port with events := t.port.events } }
            ∧ t.line = { left with attempt := none, errors := t.line.errors }
            ∧ (∀ e : LinkError, t.hasLinkError e = true ↔ s.hasLinkError e = true ∨ (e = .framing ∧ c.stop = false)
                ∨ (s.round.lost = false ∧ ((e = .check ∧ sumBytes bytes ≠ 0)
                    ∨ (e = .slot ∧ lowerNibble (nth bytes 0) ≠ f.slot) ∨ (e = .short ∧ f.markInside = true))))
            ∧ (∀ e : LinkError, s.hasLinkError e = false → t.hasLinkError e = true → t.hasEvent .linkError = true)
            ∧ (t.line.errors = s.line.errors → t.port = a.port))

/-- The own frame, read back without mismatch. After each of its first fourteen characters the next one begins, its start
bit at once the character under way at the receiver, and nothing else changes. At the fifteenth the frame is complete: the
own entry holds it with the round number in force, a flagged leave is SENT, and an ABORT report owed falls by one. The own
entry's heard mark is the model's reading (log 26), and so is it that the next character drops a start edge detected before
it, and gives up a character whose stop bit had been sampled (log 11). -/
def Obligations.OwnFrameCompletes : Prop :=
  ∀ (after : Wait) (st : Nat) (r : Report) (c : CharBits) (s : State),
    let a := s.advance after
    s.running = true → s.link.state.onLink = true → s.line.rx = some st → st + 22 ≤ a.now →
    (∀ k : Nat, s.line.tx = .frame r k → k < 14 →
      exec (.characterComplete after c) s = .next { a with
        line := { a.line with tx := .frame r (k + 1), rx := some a.now, rxNext := none, rxSampled := none } })
    ∧ (s.line.tx = .frame r 14 → s.roster.length = 16 →
    ∃ t, exec (.characterComplete after c) s = .next t ∧ t.line.tx = .released
      ∧ t.entry s.station = { presence := .present, miss := 0, heard := false, lastRound := s.round.number, report := r }
      ∧ (∀ o : Station, o ≠ s.station → t.entry o = s.entry o)
      ∧ t.link = (if r.leaving then { s.link with leave := .sent } else s.link)
      ∧ t.trial = (if r.phase = .abort then { s.trial with abortsOwed := s.trial.abortsOwed - 1 } else s.trial)
      ∧ t.round = s.round ∧ t.log = s.log ∧ t.trim = s.trim ∧ t.port = a.port)

/-! ### Round boundaries -/

/-- The events that take a boundary: their commands answer the boundary's state, in which the round number, the restarted
round timer, the closed window and the lost-round flag are those of the boundary, and the new round is synchronised in ACTIVE
and LEAVING, and in LISTENING when a mark was adopted, with its own slot SILENT so far and not sent. The sample describes the closing round,
with the values as the boundary leaves them and the trim that it found, and joins the ring, which loses its oldest sample
when it holds eight; a member's trial start empties the ring. The own report is built from the blocks as the boundary
leaves them, with the trial's fields by phase. In STANDBY the event is a local boundary, falling when the round timer
reaches P, and in LISTENING one falling at P + 800 µs; the number goes on by one, and the join count returns to 0. That a
LOST boundary sets the lost-round flag also where it completes a leave into STANDBY, and that the flag then stands for the
sample of that STANDBY or LISTENING round, is the model's choice (log 38). That the own report holds the station in use at
every boundary (log 26), and that the own slot of a lost round is observed and such a round counts as synchronised (log 15),
is the model's reading. -/
def Obligations.BoundaryOpensTheRound : Prop :=
  ∀ (after : Wait) (s : State),
    let a := s.advance after
    (∀ (b : BoundaryEvent) (k : BoundaryKind) (n : BitVec 8), a.boundaryOf b = some (k, n) →
        ∃ t, exec (boundaryCommand after b) s = .next t ∧ t.round.number = n ∧ t.round.start = a.now
          ∧ t.round.windowOpen = false ∧ (t.round.lost = true ↔ k = .lost) ∧ t.round.slotsClosed = 0
          ∧ t.round.startInWindow = false ∧ t.round.ownSlotDone = false
          ∧ (t.round.synced = true ↔ t.link.state = .active ∨ t.link.state = .leaving
              ∨ (t.link.state = .listening ∧ k = .adopted))
          ∧ t.round.ownSlot = (if t.round.synced then .silent else .unobserved)
          ∧ t.log.last =
              { round := s.round.number, speed := t.meas.speed, load := t.meas.load
                loads := Quad.ofFn fun m => (t.meas.chan.get m).load, ready := channelSet fun m => t.chans.get m = .ready
                draw := t.draw.value, drawUndefined := t.draw.state ≠ .defined, trim := s.trim.applied
                brk := s.brk.latch || s.brk.mark, alarm := t.draw.alarm || t.meas.alarm, lost := s.round.lost }
          ∧ (s.trial.phase = .running ∨ t.trial.phase ≠ .running ∨ t.isMember = false →
              t.log.ring = (if s.log.ring.length < 8 then s.log.ring else s.log.ring.drop 1) ++ [t.log.last])
          ∧ (s.trial.phase ≠ .running → t.trial.phase = .running → t.isMember = true → t.log.ring = [])
          ∧ t.ownReport.station = s.station ∧ t.ownReport.leaving = false
          ∧ t.ownReport.brk = (s.brk.latch || s.brk.mark)
          ∧ (t.ownReport.fault = true ↔ ∃ (m : Channel) (c : FaultCause), t.chans.get m = .faulted c)
          ∧ t.ownReport.alarm = (t.draw.alarm || t.meas.alarm)
          ∧ t.ownReport.readyCount = (channels.filter fun m => t.chans.get m = .ready).length
          ∧ t.ownReport.speed = (t.meas.speed.map (BitVec.ofInt 24)).getD 0x800000
          ∧ t.ownReport.load = (t.meas.load.map (BitVec.ofInt 16)).getD 0x8000
          ∧ t.ownReport.trim = BitVec.ofInt 16 t.trim.applied
          ∧ (t.trial.phase = .idle →
              t.ownReport.phase = .none ∧ t.ownReport.id = TrialId.zero ∧ t.ownReport.params = ⟨0, 0, 0, 0⟩)
          ∧ (t.trial.phase = .proposing →
              t.ownReport.phase = .claim ∧ t.ownReport.id = t.trial.id ∧ t.ownReport.params = t.trial.params.claimBytes)
          ∧ (t.trial.phase = .scheduled → t.trial.role = .proposer ∨ t.trial.role = .proposerMember →
              t.ownReport.phase = .go ∧ t.ownReport.id = t.trial.id ∧ t.ownReport.params.d = t.trial.startRound)
          ∧ (t.trial.phase = .scheduled → t.trial.role = .member →
              t.ownReport.phase = .accept ∧ t.ownReport.id = t.trial.id ∧ t.ownReport.params = t.trial.params.claimBytes)
          ∧ (t.trial.phase = .running →
              t.ownReport.phase = .run ∧ t.ownReport.id = t.trial.id ∧ t.ownReport.params.d = byteOf t.trial.remaining)
          ∧ (t.trial.phase = .recovering → t.trial.abortsOwed ≠ 0 →
              t.ownReport.phase = .abort ∧ t.ownReport.id = t.trial.id
                ∧ t.ownReport.params = ⟨t.trial.abortCause, BitVec.ofNat 8 t.trial.abortOrigin.val, 0, 0⟩))
      ∧ (s.running = true → s.link.state = .standby → s.period ≤ a.now - s.round.start →
        ∃ t, exec (.standbyLocalBoundary after) s = .next t ∧ t.round.number = s.round.number + 1
          ∧ t.round.start = a.now ∧ t.link = s.link ∧ t.roster = s.roster ∧ t.round.lost = false)
      ∧ (s.running = true → s.link.state = .listening → s.period + 800 ≤ a.now - s.round.start → s.line.rx = none →
        ∃ t, exec (.listeningLocalBoundary after) s = .next t ∧ t.round.number = s.round.number + 1
          ∧ t.round.start = a.now ∧ t.link.joinCount = 0 ∧ t.round.lost = false)

/-- What no boundary changes: the supply, the pins, the station, the configuration record, the trial sequence counter, the
filters and the queue; and the manual trim target is left or goes to 0. The round that the boundary closes is kept for the
characters that began in it (the model's own, log 39). -/
def Obligations.BoundariesLeaveTheRest : Prop :=
  ∀ (s : State) (k : BoundaryKind) (n : BitVec 8),
    let t := s.takeBoundary k n
    t.now = s.now ∧ t.power = s.power ∧ t.pins = s.pins ∧ t.station = s.station ∧ t.config = s.config
      ∧ t.seqCounter = s.seqCounter ∧ t.inputs = s.inputs ∧ t.pending = s.pending
      ∧ (t.trim.manual = s.trim.manual ∨ t.trim.manual = 0) ∧ t.brk = { s.brk with mark := false }
      ∧ t.pwm = { s.pwm with trmNext := t.pwm.trmNext, shtNext := t.pwm.shtNext } ∧ t.port.srdy = s.port.srdy
      ∧ t.port.response = s.port.response ∧ t.port.request = s.port.request ∧ t.port.mask = s.port.mask
      ∧ t.round.before
          = { start := s.round.start, state := s.link.state, synced := s.round.synced, lost := s.round.lost }

/-- At the boundary at which the listen count or the join count reaches 3 the node goes ACTIVE with JOINED, both counts
0 and its own entry PRESENT with the report of this boundary. At the boundary after the flagged report the leave is
complete: STANDBY with LEFT, nothing sent, the roster cleared. Every other LISTENING boundary steps the two counts by its
kind and the own slot's observation, and every other boundary of an ACTIVE or LEAVING node leaves the link state. The own
entry's heard mark is the model's reading (log 26). -/
def Obligations.LinkChangesAtBoundaries : Prop :=
  ∀ (after : Wait) (b : BoundaryEvent) (k : BoundaryKind) (n : BitVec 8) (s : State),
    let a := s.advance after
    a.boundaryOf b = some (k, n) →
    (s.link.state = .listening → s.roster.length = 16 → k = .localTimed → s.link.listenCount = 2 →
        ∃ t, exec (.listenTimeout after b) s = .next t ∧ t.link.state = .active ∧ t.link.listenCount = 0
          ∧ t.link.joinCount = 0 ∧ t.hasEvent .joined = true
          ∧ t.entry s.station = { presence := .present, miss := 0, heard := false, lastRound := n, report := t.ownReport })
      ∧ (s.link.state = .listening → s.roster.length = 16 → k = .adopted → s.link.joinCount = 2 →
          s.round.ownSlot = .silent →
        ∃ t, exec (.joinQualified after b) s = .next t ∧ t.link.state = .active ∧ t.link.listenCount = 0
          ∧ t.link.joinCount = 0 ∧ t.hasEvent .joined = true
          ∧ t.entry s.station = { presence := .present, miss := 0, heard := false, lastRound := n, report := t.ownReport })
      ∧ (s.link.state = .leaving → s.link.leave = .sent →
        ∃ t, exec (.leaveComplete after b) s = .next t
          ∧ t.link = { state := .standby, listenCount := 0, joinCount := 0, leave := .idle } ∧ t.hasEvent .left = true
          ∧ t.line.tx = .released ∧ t.line.rx = none ∧ t.round.number = n ∧ (∀ st : Station, t.entry st = Entry.cleared))
      ∧ (∃ t, exec (boundaryCommand after b) s = .next t
          ∧ (s.link.state = .listening → k = .localTimed → s.link.listenCount < 2 →
              t.link = { s.link with listenCount := s.link.listenCount + 1, joinCount := 0 })
          ∧ (s.link.state = .listening → k = .adopted → s.round.ownSlot = .silent → s.link.joinCount < 2 →
              t.link = { s.link with listenCount := 0, joinCount := s.link.joinCount + 1 })
          ∧ (s.link.state = .listening → k = .adopted → s.round.ownSlot ≠ .silent →
              t.link = { s.link with listenCount := 0, joinCount := 0 })
          ∧ (s.link.state.onLink = true → ¬(s.link.state = .leaving ∧ s.link.leave = .sent) → t.link = s.link))

/-- Ageing at a boundary: a PRESENT entry missed for the third time goes SILENT and keeps its fields, a SILENT one missed
for the sixteenth goes ABSENT with its fields emptied and its count at 16; each sets PEER_CHANGE. A completed leave clears
the roster at the same boundary. That the round number of the last good report of an entry that ages out is 0 is the
model's choice (log 40). Last, the roster on which the draw is measured and the trial decided, before a completed leave
clears it (the model's reading, log 18): every other station's entry aged in the states that receive, and as it was in
STANDBY. -/
def Obligations.EntriesAge : Prop :=
  ∀ (after : Wait) (b : BoundaryEvent) (k : BoundaryKind) (n : BitVec 8) (st : Station) (s : State),
    let a := s.advance after
    let e := s.entry st
    a.boundaryOf b = some (k, n) → s.roster.length = 16 → st ≠ s.station →
    (s.link.state.receives = true → e.heard = false → e.presence = .present → e.miss = 2 →
        ∃ t, exec (.entrySilent after b st) s = .next t ∧ t.hasEvent .peerChange = true ∧ t.round.number = n
          ∧ (¬(s.link.state = .leaving ∧ s.link.leave = .sent) → t.entry st = { e with presence := .silent, miss := 3 }))
      ∧ (s.link.state.receives = true → e.heard = false → e.presence = .silent → e.miss = 15 →
        ∃ t, exec (.entryAgedOut after b st) s = .next t ∧ t.hasEvent .peerChange = true ∧ t.round.number = n
          ∧ (¬(s.link.state = .leaving ∧ s.link.leave = .sent) → t.entry st = { Entry.cleared with miss := 16 }))
      ∧ ((a.boundaryBase b).linked k n).entry st
          = (if s.link.state.receives = false ∨ e.presence = .absent then e
             else if e.heard then { e with heard := false }
             else if e.presence = .present ∧ e.miss = 2 then { e with presence := .silent, miss := 3 }
             else if e.presence = .silent ∧ e.miss = 15 then { Entry.cleared with miss := 16 }
             else { e with miss := e.miss + 1 })
      ∧ (a.decisionAt b k n).entry st = ((a.boundaryBase b).linked k n).entry st

/-- What a boundary that closes a round of T µs measures of the channels: method and speed, load, the reference speed of
the channels READY as the boundary finds them, and what that reference makes of each: a reversed channel is latched
REVERSED, a slipping one counts and is latched SLIP at three, its count at 0, with CHANNEL_FAULT, and any other channel's
count returns to 0. A check under way on a channel that the boundary latches ends INCOMPLETE with cause CHANNEL, its timer's
reading kept (log 29), and any other check goes on. The row SLIP is the boundary that latches. Quotients with divisor 0 are
left out (log 37). -/
def Obligations.SlipLatchesTheChannel : Prop :=
  ∀ (after : Wait) (b : BoundaryEvent) (k : BoundaryKind) (m : BitVec 8) (s : State),
    let a := s.advance after
    let T : Nat := a.now - s.round.start
    a.boundaryOf b = some (k, m) →
    (∃ t, exec (boundaryCommand after b) s = .next t
      ∧ (∀ n : Channel,
          let c := s.counters.get n
          let h := s.cfg.chan.get n
          let v := t.meas.chan.get n
          let held := fun x : Int => max (-300000) (min 300000 x)
          (s.chans.get n = .disabled → v.method = .none ∧ v.speed = none ∧ v.load = none)
          ∧ (s.chans.get n ≠ .disabled →
              (16 ≤ c.net.natAbs → v.method = .count ∧ (T ≠ 0 → v.speed = some (held ((60 * c.net * h.pulse).tdiv T))))
              ∧ (∀ (o w : Nat) (f : Bool), c.net.natAbs < 16 → c.history = .two o w f →
                  v.method = .period
                    ∧ (w - o ≠ 0 →
                        v.speed = some (held (((if f then 60 else -60) * (h.pulse : Int)).tdiv ((w - o : Nat) : Int)))))
              ∧ (∀ (w : Nat) (f : Bool), c.net.natAbs < 16 → c.history = .one w f →
                  v.method = .start ∧ v.speed = some 0)
              ∧ (c.net.natAbs < 16 → c.history = .empty → v.method = .stalled ∧ v.speed = some 0)
              ∧ (T ≠ 0 → h.f100 ≠ h.f0 →
                  v.load = some (max (-1000) (min 4000
                    (((((c.loads * 1000000 / T : Nat) : Int) - h.f0) * 1000).tdiv ((h.f100 : Int) - h.f0))))))
          ∧ t.counters.get n = { c with net := 0, loads := 0 })
      ∧ (∀ n : Channel, s.check.channel = n → s.checkUnderWay = true → s.chans.get n = .ready → t.chans.get n ≠ .ready →
          t.check = { s.check with state := .done, verdict := .incomplete .channel, timer := .stopped a.indexReading }
            ∧ t.hasEvent .revCheckDone = true)
      ∧ (s.checkUnderWay = false ∨ t.chans.get s.check.channel = s.chans.get s.check.channel → t.check = s.check)
      ∧ (let found := channels.filter fun n => s.chans.get n = .ready
         let speed := fun n : Channel => (t.meas.chan.get n).speed.getD 0
         let ref : Int := ((found.map speed).sum).tdiv found.length
         let w := s.cfg.minSpeed
         ∀ n : Channel,
          let reversed := s.chans.get n = .ready ∧ w < (speed n).natAbs ∧ w < ref.natAbs ∧ ¬(speed n < 0 ↔ ref < 0)
          let slips := s.chans.get n = .ready ∧ w ≤ ref.natAbs ∧ ¬reversed
            ∧ (s.cfg.slipTolerance : Int) < (((speed n - ref).natAbs : Int) * 1000).tdiv ref.natAbs
          let slip := (t.meas.chan.get n).slip
          (reversed → t.chans.get n = .faulted .reversed ∧ slip = 0 ∧ t.hasEvent .channelFault = true)
          ∧ (ref ≠ 0 → slips → (s.meas.chan.get n).slip + 1 = 3 →
              t.chans.get n = .faulted .slip ∧ slip = 0 ∧ t.hasEvent .channelFault = true)
          ∧ (ref ≠ 0 → slips → (s.meas.chan.get n).slip + 1 ≠ 3 →
              t.chans.get n = s.chans.get n ∧ slip = (s.meas.chan.get n).slip + 1)
          ∧ (ref ≠ 0 ∨ 0 < w → ¬reversed → ¬slips → t.chans.get n = s.chans.get n ∧ slip = 0)))
    ∧ (∀ n : Channel,
        let found := (a.boundaryBase b).dropAttempt.handOver T
        s.chans.get n = .ready → found.finding found.meanSpeed n = some .slip →
        ∃ t, exec (.slip after b n) s = .next t ∧ t.chans.get n = .faulted .slip ∧ (t.meas.chan.get n).slip = 0
          ∧ t.hasEvent .channelFault = true ∧ t.round.number = m)

/-- The share alarm at a boundary with shares computed. The boundary is outside when a READY channel's deviation is
larger in magnitude than the tolerance; the alarm and its two runs step by the table: set at the fourth outside boundary
in a row, with SHARE_ALARM, and cleared at the fourth inside one. Without shares computed they stay as they are. What the
boundary leaves of the section: speed and load over the channels READY as it leaves them, whether shares are computed, and
each READY channel's share and deviation. -/
def Obligations.ShareAlarmSteps : Prop :=
  ∀ (after : Wait) (b : BoundaryEvent) (k : BoundaryKind) (n : BitVec 8) (s : State),
    let a := s.advance after
    let valued := (((a.boundaryBase b).dropAttempt.handOver (a.now - s.round.start)).judgeChannels).sectionValues
    let outside := ∃ (m : Channel) (d : Int), valued.ready m = true ∧ (valued.meas.chan.get m).deviation = some d
      ∧ s.cfg.shareTolerance < d.natAbs
    a.boundaryOf b = some (k, n) →
    (∃ t, exec (boundaryCommand after b) s = .next t
      ∧ (let left := channels.filter fun m => t.chans.get m = .ready
         let load := fun m : Channel => (t.meas.chan.get m).load.getD 0
         let target := fun m : Channel => (s.cfg.chan.get m).share
         let weighted : Int := (left.map fun m => load m * target m).sum
         let targets : Nat := (left.map target).sum
         (left = [] → t.meas.speed = none ∧ t.meas.load = none)
         ∧ (left ≠ [] →
             t.meas.speed = some (((left.map fun m => (t.meas.chan.get m).speed.getD 0).sum).tdiv left.length)
               ∧ t.meas.load = some (weighted.tdiv 1000))
         ∧ (t.meas.sharesComputed = true ↔ left ≠ [] ∧ (s.cfg.minLoad : Int) ≤ weighted.tdiv 1000 ∧ 0 < weighted)
         ∧ (∀ m : Channel,
             (t.meas.sharesComputed = true → m ∈ left →
               (t.meas.chan.get m).share = some (max (-2000) (min 2000 ((load m * target m * 1000).tdiv weighted)))
               ∧ (targets ≠ 0 →
                   (t.meas.chan.get m).deviation
                     = some (max (-2000) (min 2000 ((load m * target m * 1000).tdiv weighted))
                         - ((target m : Int) * 1000).tdiv targets)))
             ∧ (t.meas.sharesComputed = false ∨ m ∉ left →
                 (t.meas.chan.get m).share = none ∧ (t.meas.chan.get m).deviation = none))))
    ∧ (valued.meas.sharesComputed = false →
        ∃ t, exec (boundaryCommand after b) s = .next t ∧ t.meas.sharesComputed = false ∧ t.meas.alarm = s.meas.alarm
          ∧ t.meas.outRun = s.meas.outRun ∧ t.meas.inRun = s.meas.inRun)
      ∧ (valued.meas.sharesComputed = true →
        (∃ t, exec (boundaryCommand after b) s = .next t ∧ t.meas.sharesComputed = true
          ∧ (s.meas.alarm = false → outside → s.meas.outRun + 1 ≠ 4 →
              t.meas.alarm = false ∧ t.meas.outRun = s.meas.outRun + 1 ∧ t.meas.inRun = 0)
          ∧ (s.meas.alarm = false → ¬outside → t.meas.alarm = false ∧ t.meas.outRun = 0 ∧ t.meas.inRun = 0)
          ∧ (s.meas.alarm = true → ¬outside → s.meas.inRun + 1 ≠ 4 →
              t.meas.alarm = true ∧ t.meas.outRun = 0 ∧ t.meas.inRun = s.meas.inRun + 1)
          ∧ (s.meas.alarm = true → outside → t.meas.alarm = true ∧ t.meas.outRun = 0 ∧ t.meas.inRun = 0))
        ∧ (s.meas.alarm = false → outside → s.meas.outRun + 1 = 4 →
          ∃ t, exec (.shareAlarm after b) s = .next t ∧ t.meas.alarm = true ∧ t.meas.outRun = 0 ∧ t.meas.inRun = 0
            ∧ t.hasEvent .shareAlarm = true)
        ∧ (s.meas.alarm = true → ¬outside → s.meas.inRun + 1 = 4 →
          ∃ t, exec (.shareAlarmClear after b) s = .next t ∧ t.meas.alarm = false ∧ t.meas.outRun = 0 ∧ t.meas.inRun = 0))

/-- When the draw of a boundary is UNDEFINED, for the first reason of the table that holds, with the upstream station's entry
as the boundary's ageing leaves it and the section speed that the boundary leaves; else it is DEFINED by that section speed
and the entry's speed. That a boundary that completes a leave takes the roster as it was before the leave cleared it, for
the draw and for the upstream speed and miss count, is the model's reading (log 18). The upstream speed and miss count
taken. The draw, placed against the soft and the hard window, and the draw alarm's step by the table: set at the second
outside boundary in a row, with DRAW_ALARM, and cleared at the second INSIDE one. An UNDEFINED boundary leaves the position,
the alarm and both runs. An upstream speed of 0 is below every min speed that CONFIGURE accepts. -/
def Obligations.DrawAlarmSteps : Prop :=
  ∀ (after : Wait) (b : BoundaryEvent) (k : BoundaryKind) (n : BitVec 8) (s : State),
    let a := s.advance after
    let linked := (a.boundaryBase b).linked k n
    let upstream := fun P : Entry → Prop => ∃ u : Station, s.cfg.upstream = some u ∧ P (linked.entry u)
    let table : List (UndefinedReason × Prop) :=
      [ (.noUpstream, s.cfg.upstream = none), (.upstreamNotPresent, upstream fun e => e.presence ≠ .present),
        (.ownInvalid, linked.meas.speed = none),
        (.upstreamInvalid, upstream fun e => e.report.speed = 0x800000 ∨ 300000 < e.report.speed.toInt.natAbs),
        (.upstreamSlow, upstream fun e => e.report.speed.toInt.natAbs < s.cfg.minSpeed) ]
    a.boundaryOf b = some (k, n) →
    (∀ (earlier later : List (UndefinedReason × Prop)) (x : UndefinedReason × Prop), table = earlier ++ x :: later → x.2 →
        (∀ y ∈ earlier, ¬y.2) → linked.drawInputs = .inl x.1)
    ∧ (∀ (u : Station) (own : Int), s.cfg.upstream = some u → linked.meas.speed = some own → (∀ x ∈ table, ¬x.2) →
        linked.drawInputs = .inr (own, (linked.entry u).report.speed.toInt))
    ∧ (∃ t, exec (boundaryCommand after b) s = .next t ∧ t.meas = linked.meas
        ∧ (s.cfg.upstream = none → t.draw.upSpeed = 0x800000 ∧ t.draw.upMiss = 0)
        ∧ (∀ u : Station, s.cfg.upstream = some u →
            t.draw.upSpeed = (if (linked.entry u).presence = .absent then 0x800000 else (linked.entry u).report.speed)
              ∧ t.draw.upMiss = (linked.entry u).miss))
    ∧ (∀ r : UndefinedReason, linked.drawInputs = .inl r →
        ∃ t, exec (boundaryCommand after b) s = .next t ∧ t.draw.value = 0 ∧ t.draw.state = .undefined r
          ∧ t.draw.hard = false ∧ t.draw.position = s.draw.position ∧ t.draw.alarm = s.draw.alarm
          ∧ t.draw.outRun = s.draw.outRun ∧ t.draw.inRun = s.draw.inRun)
      ∧ (∀ own up : Int, linked.drawInputs = .inr (own, up) →
        let v := drawOf own up
        let inside := s.cfg.softLow ≤ v ∧ v ≤ s.cfg.softHigh
        (up ≠ 0 → v = max (-3000) (min 3000 (((own - up) * 10000).tdiv up)))
        ∧ (∃ t, exec (boundaryCommand after b) s = .next t ∧ t.draw.value = v ∧ t.draw.state = .defined
          ∧ (v < s.cfg.softLow → t.draw.position = .low) ∧ (inside → t.draw.position = .inside)
          ∧ (s.cfg.softLow ≤ v → s.cfg.softHigh < v → t.draw.position = .high)
          ∧ (t.draw.hard = true ↔ v < s.cfg.hardLow ∨ s.cfg.hardHigh < v)
          ∧ (s.draw.alarm = false → ¬inside → s.draw.outRun + 1 ≠ 2 →
              t.draw.alarm = false ∧ t.draw.outRun = s.draw.outRun + 1 ∧ t.draw.inRun = 0)
          ∧ (s.draw.alarm = false → inside → t.draw.alarm = false ∧ t.draw.outRun = 0 ∧ t.draw.inRun = 0)
          ∧ (s.draw.alarm = true → inside → s.draw.inRun + 1 ≠ 2 →
              t.draw.alarm = true ∧ t.draw.outRun = 0 ∧ t.draw.inRun = s.draw.inRun + 1)
          ∧ (s.draw.alarm = true → ¬inside → t.draw.alarm = true ∧ t.draw.outRun = 0 ∧ t.draw.inRun = 0))
        ∧ (s.draw.alarm = false → ¬inside → s.draw.outRun + 1 = 2 →
          ∃ t, exec (.drawAlarm after b) s = .next t ∧ t.draw.alarm = true ∧ t.draw.outRun = 0 ∧ t.draw.inRun = 0
            ∧ t.draw.value = v ∧ t.hasEvent .drawAlarm = true)
        ∧ (s.draw.alarm = true → inside → s.draw.inRun + 1 = 2 →
          ∃ t, exec (.drawAlarmClear after b) s = .next t ∧ t.draw.alarm = false ∧ t.draw.outRun = 0 ∧ t.draw.inRun = 0
            ∧ t.draw.value = v))

/-- What the Trial Controller reads at a boundary: a report is heard when its sender's entry is PRESENT with miss count 0, and
a claim, a GO, a RUN, an ABORT, a REFUSE or an ACCEPT is taken under the conditions of the reports that it has heard; the
claim that replaces the tracked one, the lowest busy, refusing, lost and unaccepted stations, and the first reason of the
eligibility table. That of several ABORT reports the lowest origin decides is R66's. A PRESENT entry counts for BUSY
whatever its miss count (log 23), and a proposer's own check takes the trim as the boundary's ramp leaves it (log 19). Then the claim boundary of a pending proposal: LOST to a lower claim heard, which is adopted; WITHDRAWN for a GO or RUN
reported; WITHDRAWN for an absent target; else PROPOSING, reporting CLAIM, with the required set taken. That an IDLE
record is emptied whole is the model's reading (log 24). -/
def Obligations.ClaimBoundaryWeighsTheProposal : Prop :=
  (∀ d : State,
    let hears := fun (u : Station) (r : Report) =>
      u ≠ d.station ∧ (d.entry u).presence = .present ∧ (d.entry u).miss = 0 ∧ (d.entry u).report = r
    let tracked := fun (u : Station) (ph : TrialPhase) (r : Report) => hears u r ∧ r.phase = ph ∧ r.id = d.trial.id
    let required := fun u : Station => d.trial.required.getLsbD u.val = true
    let replaces := fun c : TrialId × TrialParams =>
      c.1.proposer < d.trial.id.proposer ∨ (c.1.proposer = d.trial.id.proposer ∧ c.1 ≠ d.trial.id)
    let busy := fun (P : TrialId → Prop) (u : Station) =>
      u ≠ d.station ∧ (d.entry u).presence = .present
        ∧ ((d.entry u).report.phase = .go ∨ (d.entry u).report.phase = .run) ∧ P (d.entry u).report.id
    let first := fun (P : Station → Prop) (u : Station) => P u ∧ ∀ v : Station, v < u → ¬P v
    let p := d.trial.params
    let brkOrBusy : List (Reason × Prop) :=
      [ (.brk, d.brk.latch = true ∨ d.brk.mark = true), (.busy, ∃ u : Station, busy (fun i => i ≠ d.trial.id) u) ]
    let readyCount := (channels.filter fun m => d.chans.get m = .ready).length
    let reasons : Int → List (Reason × Prop) := fun applied => brkOrBusy ++
      [ (.drives, (∃ (m : Channel) (f : FaultCause), d.chans.get m = .faulted f) ∨ readyCount = 0
          ∨ (p.kind = .shareStep ∧ p.target = d.station ∧ (d.chans.get p.drive ≠ .ready ∨ readyCount < 2))),
        (.notNeutral, d.trim.manual ≠ 0 ∨ applied ≠ 0),
        (.logSpace, 256 - d.log.records.length < 8 + p.duration + 1), (.draw, d.draw.alarm = true),
        (.invalid, p.target = d.station ∧ ((p.kind = .drawStep ∧ d.cfg.trimLimit < p.step.natAbs)
          ∨ (p.kind = .shareStep ∧ d.cfg.shareTrimLimit < p.step.natAbs))) ]
    let firstOf := fun (table : List (Reason × Prop)) (answer : Option Reason) =>
      ((∀ x ∈ table, ¬x.2) → answer = none)
        ∧ (∀ (earlier later : List (Reason × Prop)) (x : Reason × Prop), table = earlier ++ x :: later → x.2 →
            (∀ y ∈ earlier, ¬y.2) → answer = some x.1)
    (∀ c : TrialId × TrialParams, c ∈ d.heardClaims ↔
        ∃ (u : Station) (r : Report), hears u r ∧ r.phase = .claim ∧ r.id.proposer = u
          ∧ c = (r.id, TrialParams.ofBytes r.params) ∧ c.2.kind ≠ .none ∧ c.2.spanFirst ≤ c.2.target
          ∧ c.2.target ≤ c.2.spanLast ∧ -127 ≤ c.2.step ∧ c.2.step ≤ 127 ∧ 1 ≤ c.2.duration ∧ c.2.duration ≤ 200
          ∧ (c.2.kind = .watch → c.2.step = 0 ∧ c.2.target = c.2.spanFirst))
      ∧ d.heardClaims.Pairwise (fun x y => x.1.proposer < y.1.proposer)
      ∧ (∀ c : TrialId × TrialParams, d.replacement = some c ↔
          c ∈ d.heardClaims ∧ replaces c ∧ ∀ c' ∈ d.heardClaims, replaces c' → c.1.proposer ≤ c'.1.proposer)
      ∧ (∀ g : Report, d.heardGo = some g ↔ tracked d.trial.id.proposer .go g
          ∧ g.params.a = p.claimBytes.a ∧ g.params.b = p.claimBytes.b ∧ g.params.c = p.claimBytes.c)
      ∧ (d.heardRun = true ↔ ∃ (u : Station) (r : Report), tracked u .run r)
      ∧ (∀ x : ParamBytes, x ∈ d.heardAborts ↔ ∃ (u : Station) (r : Report), tracked u .abort r ∧ r.params = x
          ∧ (x.a = 1 ∨ x.a = 8 ∨ (13 ≤ x.a.toNat ∧ x.a.toNat ≤ 19)))
      ∧ (d.heardWithdrawal = true ↔ ∃ x ∈ d.heardAborts, x.a = Reason.withdrawn.code)
      ∧ (d.heardAbort = none ↔ ∀ x ∈ d.heardAborts, x.a = Reason.withdrawn.code)
      ∧ (∀ x : ParamBytes, d.heardAbort = some x → x ∈ d.heardAborts ∧ x.a ≠ Reason.withdrawn.code
          ∧ ∀ y ∈ d.heardAborts, y.a ≠ Reason.withdrawn.code → lowerNibble x.b ≤ lowerNibble y.b)
      ∧ (∀ (u : Station) (code : Byte), d.heardRefusal = some (u, code) ↔
          first (fun v => required v ∧ ∃ r : Report, tracked v .refuse r) u ∧ code = (d.entry u).report.params.a)
      ∧ (∀ u : Station, d.requiredLost = some u ↔ first (fun v => required v ∧ (d.entry v).presence ≠ .present) u)
      ∧ (∀ u : Station, d.unaccepted = some u ↔ first (fun v => required v ∧ d.trial.accepted.getLsbD v.val = false) u)
      ∧ (∀ u : Station, d.nowAccepted.getLsbD u.val = true ↔ d.trial.accepted.getLsbD u.val = true
          ∨ (required u ∧ ((∃ r : Report, tracked u .accept r ∧ r.params = p.claimBytes)
              ∨ (u = d.station ∧ d.isMember = true))))
      ∧ (∀ u : Station, d.busyStation = some u ↔ first (busy fun _ => True) u)
      ∧ (d.isMember = true ↔ p.spanFirst ≤ d.station ∧ d.station ≤ p.spanLast)
      ∧ (∀ applied : Int, firstOf (reasons applied) (d.ineligible applied))
      ∧ firstOf (if d.isMember then reasons d.rampedTrim else brkOrBusy) d.proposerUnfit)
  ∧ (∀ (b : BoundaryEvent) (k : BoundaryKind) (n : BitVec 8) (s : State),
    let d := s.decisionAt b k n
    d.station = s.station ∧ d.config = s.config ∧ d.brk = s.brk ∧ d.trim = s.trim
      ∧ d.trial = { s.trial with
          linkCloseOwed := false, count := if s.trial.phase = .idle then s.trial.count else s.trial.count + 1 })
  ∧ ∀ (after : Wait) (b : BoundaryEvent) (k : BoundaryKind) (n : BitVec 8) (id : TrialId) (p : TrialParams) (s : State),
    let a := s.advance after
    let d := a.decisionAt b k n
    a.boundaryOf b = some (k, n) → s.trial.phase = .idle → s.trial.request = .propose id p →
    s.trial.linkCloseOwed = false →
    (∀ c, d.heardClaims.find? (fun c => decide (c.1.proposer < s.station)) = some c →
        ∃ t, exec (.claimBoundary after b) s = .next t ∧ t.trial.phase = .accepting ∧ t.trial.id = c.1 ∧ t.trial.params = c.2
          ∧ t.trial.count = 0 ∧ t.lastOutcome = { outcome := .lost, id := id, code := 0, station := c.1.proposer }
          ∧ t.hasEvent .trialEnd = true ∧ t.hasEvent .claimSeen = true)
      ∧ (d.heardClaims.find? (fun c => decide (c.1.proposer < s.station)) = none → ∀ u, d.busyStation = some u →
        ∃ t, exec (.claimBoundary after b) s = .next t ∧ t.trial = TrialRecord.empty
          ∧ t.lastOutcome = { outcome := .withdrawn, id := id, code := Reason.busy.code, station := u }
          ∧ t.hasEvent .trialEnd = true)
      ∧ (d.heardClaims.find? (fun c => decide (c.1.proposer < s.station)) = none → d.busyStation = none →
          (d.entry p.target).presence = .absent →
        ∃ t, exec (.claimBoundary after b) s = .next t ∧ t.trial = TrialRecord.empty
          ∧ t.lastOutcome = { outcome := .withdrawn, id := id, code := Reason.targetAbsent.code, station := p.target }
          ∧ t.hasEvent .trialEnd = true)
      ∧ (d.heardClaims.find? (fun c => decide (c.1.proposer < s.station)) = none → d.busyStation = none →
          (d.entry p.target).presence ≠ .absent →
        ∃ t, exec (.claimBoundary after b) s = .next t ∧ t.trial.phase = .proposing ∧ t.trial.id = id ∧ t.trial.params = p
          ∧ t.trial.role = (if p.inSpan s.station then .proposerMember else .proposer) ∧ t.trial.count = 0
          ∧ t.trial.accepted = 0 ∧ t.trial.request = .none
          ∧ t.trial.required = (stationSet fun u => p.inSpan u && (d.entry u).presence != .absent)
          ∧ t.ownReport.phase = .claim ∧ t.ownReport.id = id ∧ t.ownReport.params = p.claimBytes)

/-- An ACCEPTING record that has taken no ABORT, GO, RUN or replacing claim by its sixth boundary drops the claim:
DROPPED with code LAPSED, and the record IDLE; that it adopts no claim at that boundary is the model's reading (log 20),
and that an IDLE record is emptied whole too (log 24). Before its sixth boundary it stays ACCEPTING, and its answer is judged
afresh: the first reason of the eligibility table, else REQUESTED after an ABORT_TRIAL, else ACCEPT. An ABORT_TRIAL pending, a heard ABORT, a heard withdrawal, a heard
RUN, and a claim that replaces the tracked one each end or turn the claim, in this order, a GO standing before a RUN; that an
ABORT of another cause is taken before a withdrawal, and by a PROPOSING record too, is the model's reading (log 21). A
proposal is withdrawn for its request, its own eligibility, a REFUSE heard, or a required station lost, and stays PROPOSING
with its CLAIM while acceptances are still wanting. A PROPOSING record whose accept window ends at c + 5 with a required
station unaccepted is withdrawn with NO_QUORUM, naming the lowest such station, and owes three ABORT reports with cause
WITHDRAWN. From c + 2 on, with every required station accepted, it sets GO for the round two on. A GO heard in ACCEPTING
is taken by the distance to its start round: at 0 the trial starts, one or two rounds on the record waits SCHEDULED, and
from three on it aborts with MISSED_GO; a member that is not eligible, or refused in the closing round, aborts with
NOT_READY. Either abort at the GO is the node's own: the targets go to 0 under RECOVERY and three reports are owed; a member
whose log has room appends one CLOSE record with outcome ABORTED, the cause and the own station as origin, on the sample of
this boundary, with LOG_CLOSED; with 256 records in the log it appends nothing and sets no LOG_CLOSED, and a bystander
appends nothing. That the abort conditions are checked at distance 0, and that at distance 1 or 2 a member is
judged on the trim as the ramp leaves it, is the model's reading (logs 22 and 19). An IDLE record of an
ACTIVE node adopts the lowest claim heard, and a member answers it. -/
def Obligations.ClaimsLapseAndProposalsEnd : Prop :=
  ∀ (after : Wait) (b : BoundaryEvent) (k : BoundaryKind) (n : BitVec 8) (s : State),
    let a := s.advance after
    let d := a.decisionAt b k n
    let gathered : State := { d with trial := { d.trial with accepted := d.nowAccepted } }
    let boundary := boundaryCommand after b
    let withdrawn := fun (code : Byte) (u : Station) =>
      ∃ t, exec boundary s = .next t ∧ t.trial.phase = .recovering ∧ t.trial.abortsOwed = 3
        ∧ t.trial.abortCause = Reason.withdrawn.code ∧ t.trial.abortOrigin = s.station ∧ t.trial.request = .none
        ∧ t.lastOutcome = { outcome := .withdrawn, id := s.trial.id, code := code, station := u } ∧ t.trim.manual = 0
        ∧ t.hasEvent .trialEnd = true ∧ t.ownReport.phase = .abort ∧ t.log.records = d.log.records
    let dropped := fun code : Reason =>
      ∃ t, exec boundary s = .next t ∧ t.trial = TrialRecord.empty
        ∧ t.lastOutcome = { outcome := .dropped, id := s.trial.id, code := code.code, station := s.trial.id.proposer }
        ∧ t.hasEvent .trialEnd = true ∧ t.ownReport.phase = .none ∧ t.log.records = d.log.records
    let ended := fun (owed : Nat) (cause : Byte) (origin : Station) =>
      ∃ t, exec boundary s = .next t ∧ t.trial.phase = .recovering ∧ t.trial.abortsOwed = owed
        ∧ t.trial.abortCause = cause ∧ t.trial.abortOrigin = origin
        ∧ t.lastOutcome = { outcome := .aborted, id := s.trial.id, code := cause, station := origin } ∧ t.trim.manual = 0
        ∧ t.trim.trialTarget = none ∧ t.trim.shiftTarget = 0 ∧ t.trim.cls = .recovery ∧ t.hasEvent .trialEnd = true
        ∧ t.ownReport.phase = .abort ∧ t.log.records = d.log.records
    let turned := fun (c : TrialId × TrialParams) (last : LastOutcome) =>
      ∃ t, exec boundary s = .next t ∧ t.trial.phase = .accepting ∧ t.trial.id = c.1 ∧ t.trial.params = c.2
        ∧ t.trial.role = (if c.2.inSpan s.station then .member else .bystander) ∧ t.trial.count = 0
        ∧ t.trial.refusing = false ∧ t.lastOutcome = last ∧ t.hasEvent .claimSeen = true
        ∧ t.log.records = d.log.records
    let silent := fun t : State =>
      t.ownReport.phase = .none ∧ t.ownReport.id = TrialId.zero ∧ t.ownReport.params = ⟨0, 0, 0, 0⟩
    let reasons := fun (c : TrialId × TrialParams) (t : State) =>
      let ready := (channels.filter fun m => t.chans.get m = .ready).length
      let atTarget := c.2.target = s.station
      ([ (.brk, s.brk.latch = true ∨ s.brk.mark = true),
         (.busy, ∃ u : Station, u ≠ s.station ∧ (d.entry u).presence = .present
           ∧ ((d.entry u).report.phase = .go ∨ (d.entry u).report.phase = .run) ∧ (d.entry u).report.id ≠ c.1),
         (.drives, (∃ (m : Channel) (f : FaultCause), t.chans.get m = .faulted f) ∨ ready = 0
           ∨ (c.2.kind = .shareStep ∧ atTarget ∧ (t.chans.get c.2.drive ≠ .ready ∨ ready < 2))),
         (.notNeutral, t.trim.manual ≠ 0 ∨ t.trim.applied ≠ 0),
         (.logSpace, 256 - t.log.records.length < 8 + c.2.duration + 1),
         (.draw, t.draw.alarm = true),
         (.invalid, atTarget ∧ ((c.2.kind = .drawStep ∧ s.cfg.trimLimit < c.2.step.natAbs)
           ∨ (c.2.kind = .shareStep ∧ s.cfg.shareTrimLimit < c.2.step.natAbs))) ] : List (Reason × Prop))
    let refuses := fun (c : TrialId × TrialParams) (r : Reason) (t : State) =>
      t.ownReport.phase = .refuse ∧ t.ownReport.id = c.1 ∧ t.ownReport.params = ⟨r.code, 0, 0, 0⟩
    let answered := fun (c : TrialId × TrialParams) (refusing : Bool) (t : State) =>
      ((∀ x ∈ reasons c t, ¬x.2) →
          (refusing = true → refuses c .requested t)
            ∧ (refusing = false →
              t.ownReport.phase = .accept ∧ t.ownReport.id = c.1 ∧ t.ownReport.params = c.2.claimBytes))
        ∧ (∀ (earlier later : List (Reason × Prop)) (x : Reason × Prop), reasons c t = earlier ++ x :: later → x.2 →
            (∀ y ∈ earlier, ¬y.2) → refuses c x.1 t)
    a.boundaryOf b = some (k, n) →
    (s.trial.linkCloseOwed = false →
        d.log.records = s.log.records ∧ d.log.counter = s.log.counter ∧ d.hasEvent .logClosed = s.hasEvent .logClosed)
    ∧ (s.trial.phase = .proposing → s.trial.request = .abort → withdrawn Reason.requested.code s.station)
    ∧ (s.trial.phase = .accepting → s.trial.request = .abort → dropped .requested)
    ∧ (s.trial.request = .none →
    (∀ x : ParamBytes, s.trial.phase = .accepting ∨ s.trial.phase = .proposing → d.heardAbort = some x →
          ended 1 x.a (lowerNibble x.b))
      ∧ (s.trial.phase = .accepting → d.heardAbort = none → d.heardWithdrawal = true → dropped .withdrawn)
      ∧ (s.trial.phase = .accepting → d.heardAborts = [] → d.heardGo = none → d.heardRun = true →
          (s.isMember = true → ended 3 Reason.missedGo.code s.station) ∧ (s.isMember = false → dropped .missedGo))
      ∧ (∀ c : TrialId × TrialParams, s.trial.phase = .accepting → d.heardAborts = [] → d.heardGo = none →
          d.heardRun = false → d.replacement = some c → turned c s.lastOutcome)
      ∧ (∀ c : TrialId × TrialParams, s.trial.phase = .proposing → d.heardAbort = none → d.replacement = some c →
          turned c { outcome := .lost, id := s.trial.id, code := 0, station := c.1.proposer }
            ∧ ∃ t, exec boundary s = .next t ∧ t.hasEvent .trialEnd = true)
      ∧ (s.trial.phase = .proposing → d.heardAbort = none → d.replacement = none →
          (∀ r : Reason, d.proposerUnfit = some r → withdrawn r.code s.station)
          ∧ (d.proposerUnfit = none →
              (∀ (u : Station) (code : Byte), d.heardRefusal = some (u, code) → withdrawn code u)
              ∧ (∀ u : Station, d.heardRefusal = none → d.requiredLost = some u → withdrawn Reason.peerLost.code u)
              ∧ (d.heardRefusal = none → d.requiredLost = none →
                  (gathered.unaccepted = none ∧ s.trial.count = 0) ∨ (gathered.unaccepted ≠ none ∧ s.trial.count < 4) →
                ∃ t, exec boundary s = .next t ∧ t.trial = gathered.trial ∧ t.lastOutcome = s.lastOutcome
                  ∧ t.ownReport.phase = .claim ∧ t.ownReport.id = s.trial.id
                  ∧ t.ownReport.params = s.trial.params.claimBytes ∧ t.log.records = d.log.records)))
      ∧ (s.trial.phase = .accepting → s.trial.count = 5 → d.heardAborts = [] → d.heardGo = none → d.heardRun = false →
          d.replacement = none →
        ∃ t, exec (.claimLapsed after b) s = .next t ∧ t.trial = TrialRecord.empty
          ∧ t.lastOutcome
              = { outcome := .dropped, id := s.trial.id, code := Reason.lapsed.code, station := s.trial.id.proposer }
          ∧ t.hasEvent .trialEnd = true ∧ t.ownReport.phase = .none)
      ∧ (s.trial.phase = .accepting → s.trial.count < 5 → d.heardAborts = [] → d.heardGo = none → d.heardRun = false →
          d.replacement = none →
        ∃ t, exec boundary s = .next t ∧ t.trial = d.trial ∧ t.lastOutcome = s.lastOutcome ∧ t.log.records = d.log.records
          ∧ (s.trial.role = .bystander → silent t)
          ∧ (s.trial.role = .member → answered (s.trial.id, s.trial.params) s.trial.refusing t))
      ∧ (∀ u : Station, s.trial.phase = .proposing → s.trial.count = 4 → d.heardAbort = none → d.replacement = none →
          d.proposerUnfit = none → d.heardRefusal = none → d.requiredLost = none → gathered.unaccepted = some u →
        ∃ t, exec (.noQuorum after b) s = .next t ∧ t.trial.phase = .recovering ∧ t.trial.abortsOwed = 3
          ∧ t.trial.abortCause = Reason.withdrawn.code ∧ t.trial.abortOrigin = s.station
          ∧ t.lastOutcome = { outcome := .withdrawn, id := s.trial.id, code := Reason.noQuorum.code, station := u }
          ∧ t.trim.manual = 0 ∧ t.hasEvent .trialEnd = true ∧ t.ownReport.phase = .abort
          ∧ t.log.records = d.log.records)
      ∧ (s.trial.phase = .proposing → 1 ≤ s.trial.count → d.heardAbort = none → d.replacement = none →
          d.proposerUnfit = none → d.heardRefusal = none → d.requiredLost = none → gathered.unaccepted = none →
        ∃ t, exec boundary s = .next t ∧ t.trial.phase = .scheduled ∧ t.trial.startRound = n + 2
          ∧ t.trial.watched = s.trial.required ∧ t.trial.id = s.trial.id ∧ t.trial.params = s.trial.params
          ∧ t.trial.readySet = (if s.isMember then channelSet fun m => t.chans.get m = .ready else 0)
          ∧ (s.trial.role = .proposer ∨ s.trial.role = .proposerMember →
              t.ownReport.phase = .go ∧ t.ownReport.params.d = n + 2)
          ∧ t.lastOutcome = s.lastOutcome ∧ t.log.records = d.log.records)
      ∧ (∀ g : Report, s.trial.phase = .accepting → d.heardAborts = [] → d.heardGo = some g →
          let distance := (g.params.d - n).toNat
          let unfit := s.isMember = true ∧ ((d.ineligible (if distance = 0 then s.trim.applied else d.rampedTrim)).isSome = true
            ∨ s.trial.refusing = true ∨ s.ownReport.phase = .refuse)
          let aborted := fun (cause : Reason) (t : State) =>
            t.trial.phase = .recovering ∧ t.trial.abortsOwed = 3 ∧ t.trial.abortCause = cause.code
              ∧ t.trial.abortOrigin = s.station
              ∧ t.lastOutcome = { outcome := .aborted, id := s.trial.id, code := cause.code, station := s.station }
              ∧ t.trim.manual = 0 ∧ t.trim.trialTarget = none ∧ t.trim.shiftTarget = 0 ∧ t.trim.cls = .recovery
              ∧ t.hasEvent .trialEnd = true ∧ t.ownReport.phase = .abort
              ∧ (s.isMember = true → d.log.records.length < 256 →
                  t.log.records = d.log.records
                      ++ [{ seq := d.log.counter, type := .close, id := s.trial.id, sample := t.log.last
                            outcome := .aborted, cause := cause.code, origin := s.station }]
                    ∧ t.log.counter = d.log.counter + 1 ∧ t.hasEvent .logClosed = true)
              ∧ (s.isMember = false ∨ 256 ≤ d.log.records.length →
                  t.log.records = d.log.records ∧ t.log.counter = d.log.counter
                    ∧ t.hasEvent .logClosed = d.hasEvent .logClosed)
          (distance = 1 ∨ distance = 2 → ¬unfit →
              ∃ t, exec boundary s = .next t ∧ t.trial.phase = .scheduled ∧ t.trial.startRound = g.params.d
                ∧ t.trial.watched = (stationSet fun u => s.trial.params.inSpan u && decide ((d.entry u).presence = .present))
                ∧ t.trial.readySet = (if s.isMember then channelSet fun m => t.chans.get m = .ready else 0)
                ∧ t.trial.id = s.trial.id ∧ t.trial.params = s.trial.params ∧ t.lastOutcome = s.lastOutcome
                ∧ t.log.records = d.log.records)
            ∧ (distance = 0 → ¬unfit → s.brk = { latch := false, mark := false } →
                (s.isMember = true → d.draw.hard = false) →
              ∃ t, exec (.trialStart after b) s = .next t ∧ t.trial.phase = .running
                ∧ t.trial.remaining = s.trial.params.duration ∧ t.hasEvent .trialStart = true ∧ t.ownReport.phase = .run)
            ∧ (3 ≤ distance → ∃ t, exec boundary s = .next t ∧ aborted .missedGo t)
            ∧ (distance < 3 → unfit → ∃ t, exec boundary s = .next t ∧ aborted .notReady t))
      ∧ (∀ (c : TrialId × TrialParams) (rest : List (TrialId × TrialParams)), s.trial.phase = .idle →
          d.link.state = .active → d.heardClaims = c :: rest →
        ∃ t, exec boundary s = .next t ∧ t.trial.phase = .accepting ∧ t.trial.id = c.1 ∧ t.trial.params = c.2
          ∧ t.trial.role = (if c.2.inSpan s.station then .member else .bystander) ∧ t.trial.count = 0
          ∧ t.trial.refusing = false ∧ t.hasEvent .claimSeen = true
          ∧ (c.2.inSpan s.station = false → silent t)
          ∧ (c.2.inSpan s.station = true → answered c false t)))

/-- At the boundary numbered s a SCHEDULED record with no abort condition enters RUNNING for its duration with
TRIAL_START: at a member with room for them the ring's samples, oldest first, are appended as PRE records of the trial
under the counter's next numbers, and the ring is emptied; the target presents its step under class TRIAL. -/
def Obligations.TrialStarts : Prop :=
  ∀ (after : Wait) (b : BoundaryEvent) (k : BoundaryKind) (n : BitVec 8) (s : State),
    let a := s.advance after
    let d := a.decisionAt b k n
    a.boundaryOf b = some (k, n) → s.trial.phase = .scheduled → s.trial.linkCloseOwed = false → s.trial.startRound = n →
    d.abortCondition = none → d.heardAbort = none →
    ∃ t, exec (.trialStart after b) s = .next t ∧ t.trial.phase = .running ∧ t.trial.remaining = s.trial.params.duration
      ∧ t.hasEvent .trialStart = true ∧ t.ownReport.phase = .run
      ∧ (s.isMember = true → t.log.ring = [])
      ∧ (s.isMember = true → d.log.records.length + d.log.ring.length ≤ 256 →
          t.log.records
              = d.log.records ++ (d.log.ring.zipIdx.map fun m =>
                  { seq := d.log.counter + BitVec.ofNat 16 m.2, type := .pre, id := s.trial.id, sample := m.1
                    outcome := .none, cause := 0, origin := 0 })
            ∧ t.log.counter = d.log.counter + BitVec.ofNat 16 d.log.ring.length)
      ∧ (s.isMember = false → t.log.records = d.log.records ∧ t.log.ring = d.log.ring)
      ∧ (s.trial.params.target = s.station → s.trial.params.kind = .drawStep → s.brk = { latch := false, mark := false } →
          t.trim.trialTarget = (if s.trial.params.step = 0 then none else some s.trial.params.step)
            ∧ t.trim.shiftTarget = 0 ∧ t.trim.cls = .trial)
      ∧ (s.trial.params.target = s.station → s.trial.params.kind = .shareStep → s.brk = { latch := false, mark := false } →
          t.trim.trialTarget = none ∧ t.trim.shiftTarget = s.trial.params.step ∧ t.trim.drive = s.trial.params.drive
            ∧ t.trim.cls = .trial)

/-- How a SCHEDULED or RUNNING record goes on. The first abort condition of the table that holds makes the node the
origin of an abort: RECOVERING with three reports owed, the cause and the own station recorded, targets to 0 under
RECOVERY, and a CLOSE record at a member with room. With none, a heard ABORT ends it with one report owed, under the heard
cause and origin, the READY set taken afresh. With neither, a SCHEDULED record waits at every boundary but the one numbered
s: it keeps all but its boundary count and its READY set, and reports GO, or ACCEPT as a member; and a RUNNING record counts one round: a member with room appends
its RUN record and the targets stand; at the boundary at which rounds remaining reaches 0 the trial is COMPLETED: targets
to 0 under NORMAL, RECOVERING with no report owed, TRIAL_END, and a member's RUN and CLOSE records, with LOG_CLOSED. -/
def Obligations.TrialCompletes : Prop :=
  ∀ (after : Wait) (b : BoundaryEvent) (k : BoundaryKind) (n : BitVec 8) (s : State),
    let a := s.advance after
    let d := a.decisionAt b k n
    let boundary := boundaryCommand after b
    let conditions : List (Reason × Prop) :=
      [ (.requested, s.trial.request = .abort),
        (.brk, s.brk.latch = true ∨ s.brk.mark = true),
        (.driveFault, s.isMember = true ∧ ((∃ (m : Channel) (c : FaultCause), d.chans.get m = .faulted c)
          ∨ ∃ m : Channel, s.trial.readySet.getLsbD m.val = true ∧ d.chans.get m ≠ .ready)),
        (.drawLimit, s.isMember = true ∧ d.draw.hard = true),
        (.peerLost, ∃ u : Station, s.trial.watched.getLsbD u.val = true ∧ (d.entry u).presence ≠ .present),
        (.missedGo, s.trial.phase = .scheduled ∧ 0 < (s.trial.startRound - s.round.number).toNat
          ∧ (s.trial.startRound - s.round.number).toNat < (n - s.round.number).toNat) ]
    let ends := fun (owed : Nat) (cause : Byte) (origin : Station) (t : State) =>
      t.trial.phase = .recovering ∧ t.trial.abortsOwed = owed ∧ t.trial.abortCause = cause
        ∧ t.trial.abortOrigin = origin ∧ t.trial.request = .none
        ∧ t.lastOutcome = { outcome := .aborted, id := s.trial.id, code := cause, station := origin }
        ∧ t.trim.manual = 0 ∧ t.trim.trialTarget = none ∧ t.trim.shiftTarget = 0 ∧ t.trim.cls = .recovery
        ∧ t.hasEvent .trialEnd = true ∧ t.ownReport.phase = .abort
        ∧ (s.isMember = true → d.log.records.length < 256 →
            t.hasEvent .logClosed = true
              ∧ t.log.records = d.log.records
                  ++ [{ seq := d.log.counter, type := .close, id := s.trial.id, sample := d.log.last, outcome := .aborted, cause := cause, origin := origin }])
        ∧ (s.isMember = false → t.log.records = d.log.records)
    let run : LogRecord :=
      { seq := d.log.counter, type := .run, id := s.trial.id, sample := d.log.last, outcome := .none, cause := 0, origin := 0 }
    a.boundaryOf b = some (k, n) → s.trial.linkCloseOwed = false →
    (s.trial.phase = .scheduled ∨ s.trial.phase = .running →
        (∀ (earlier later : List (Reason × Prop)) (x : Reason × Prop), conditions = earlier ++ x :: later → x.2 →
            (∀ y ∈ earlier, ¬y.2) → ∃ t, exec boundary s = .next t ∧ ends 3 x.1.code s.station t)
        ∧ (∀ p : ParamBytes, (∀ x ∈ conditions, ¬x.2) → d.heardAbort = some p →
            ∃ t, exec boundary s = .next t ∧ ends 1 p.a (lowerNibble p.b) t
              ∧ t.trial.readySet = (if s.isMember then channelSet fun m => t.chans.get m = .ready else s.trial.readySet)))
      ∧ (s.trial.phase = .scheduled → (∀ x ∈ conditions, ¬x.2) → d.heardAbort = none → s.trial.startRound ≠ n →
        ∃ t, exec boundary s = .next t
          ∧ t.trial = { s.trial with
              count := s.trial.count + 1
              readySet := if s.isMember then channelSet fun m => t.chans.get m = .ready else s.trial.readySet }
          ∧ t.lastOutcome = s.lastOutcome ∧ t.log = d.log ∧ t.log.records = s.log.records
          ∧ t.trim.manual = s.trim.manual ∧ t.trim.trialTarget = s.trim.trialTarget
          ∧ t.trim.shiftTarget = s.trim.shiftTarget ∧ t.trim.drive = s.trim.drive ∧ t.trim.cls = s.trim.cls
          ∧ (s.trial.role = .proposer ∨ s.trial.role = .proposerMember →
              t.ownReport.phase = .go ∧ t.ownReport.id = s.trial.id
                ∧ t.ownReport.params = { s.trial.params.claimBytes with d := s.trial.startRound })
          ∧ (s.trial.role = .member →
              t.ownReport.phase = .accept ∧ t.ownReport.id = s.trial.id ∧ t.ownReport.params = s.trial.params.claimBytes)
          ∧ (s.trial.role = .bystander → t.ownReport.phase = .none))
      ∧ (s.trial.phase = .running → (∀ x ∈ conditions, ¬x.2) → d.heardAbort = none → 1 < s.trial.remaining →
        ∃ t, exec boundary s = .next t ∧ t.trial.phase = .running ∧ t.trial.remaining = s.trial.remaining - 1
          ∧ t.trial.readySet = (if s.isMember then channelSet fun m => t.chans.get m = .ready else s.trial.readySet)
          ∧ t.trim.trialTarget = s.trim.trialTarget ∧ t.trim.shiftTarget = s.trim.shiftTarget ∧ t.trim.cls = s.trim.cls
          ∧ t.lastOutcome = s.lastOutcome ∧ t.ownReport.phase = .run
          ∧ t.ownReport.params.d = byteOf (s.trial.remaining - 1)
          ∧ (s.isMember = true → d.log.records.length < 256 → t.log.records = d.log.records ++ [run])
          ∧ (s.isMember = false → t.log.records = d.log.records))
      ∧ (s.trial.phase = .running → s.trial.remaining ≤ 1 → d.abortCondition = none → d.heardAbort = none →
        ∃ t, exec (.trialCompleted after b) s = .next t ∧ t.trial.phase = .recovering ∧ t.trial.abortsOwed = 0
          ∧ t.trial.remaining = 0 ∧ t.trial.request = .none
          ∧ t.lastOutcome = { outcome := .completed, id := s.trial.id, code := 0, station := s.trial.id.proposer }
          ∧ t.trim.manual = 0 ∧ t.trim.trialTarget = none ∧ t.trim.shiftTarget = 0
          ∧ (s.brk = { latch := false, mark := false } → t.trim.cls = .normal) ∧ t.hasEvent .trialEnd = true
          ∧ (s.isMember = true → d.log.records.length + 2 ≤ 256 →
              t.hasEvent .logClosed = true
                ∧ t.log.records = d.log.records
                    ++ [run,
                        { seq := d.log.counter + 1, type := .close, id := s.trial.id, sample := d.log.last, outcome := .completed, cause := 0, origin := 0 }]))

/-- A RECOVERING record with no report owed, whose ramps arrive at 0 at this boundary, returns to IDLE, where an ACTIVE
node adopts the lowest claim heard. That an IDLE record is emptied whole is the model's reading (log 24). The statement
covers a record that a conflict put into RECOVERING between two boundaries, at the first boundary after it, and that such a
record may return to IDLE there is the model's choice (log 42). A record that still ramps or owes a report stays RECOVERING,
and an ACTIVE node that owes none refuses the lowest heard claim whose span holds it with BUSY, and reports NONE otherwise. -/
def Obligations.RecoveryEnds : Prop :=
  ∀ (after : Wait) (b : BoundaryEvent) (k : BoundaryKind) (n : BitVec 8) (s : State),
    let a := s.advance after
    let d := a.decisionAt b k n
    a.boundaryOf b = some (k, n) → s.trial.phase = .recovering →
    (s.trial.abortsOwed = 0 → d.rampedTrim = 0 → d.rampedShift = 0 →
      ∃ t, exec (.recoveryDone after b) s = .next t ∧ t.trim.applied = 0 ∧ t.trim.shift = 0
        ∧ (d.heardClaims = [] ∨ d.link.state ≠ .active → t.trial = TrialRecord.empty)
        ∧ (∀ c rest, d.heardClaims = c :: rest → d.link.state = .active →
            t.trial.phase = .accepting ∧ t.trial.id = c.1 ∧ t.trial.params = c.2 ∧ t.hasEvent .claimSeen = true))
    ∧ (s.trial.abortsOwed ≠ 0 ∨ d.rampedTrim ≠ 0 ∨ d.rampedShift ≠ 0 →
      ∃ t, exec (boundaryCommand after b) s = .next t ∧ t.trial = d.trial ∧ t.lastOutcome = s.lastOutcome
        ∧ (s.trial.abortsOwed ≠ 0 → t.ownReport.phase = .abort ∧ t.ownReport.id = s.trial.id)
        ∧ (∀ (earlier later : List (TrialId × TrialParams)) (c : TrialId × TrialParams), s.trial.abortsOwed = 0 →
            d.link.state = .active → d.heardClaims = earlier ++ c :: later → c.2.inSpan s.station = true →
            (∀ x ∈ earlier, x.2.inSpan s.station = false) →
            t.ownReport.phase = .refuse ∧ t.ownReport.id = c.1 ∧ t.ownReport.params = ⟨Reason.busy.code, 0, 0, 0⟩)
        ∧ (s.trial.abortsOwed = 0 →
            d.link.state ≠ .active ∨ (∀ x ∈ d.heardClaims, x.2.inSpan s.station = false) →
            t.ownReport.phase = .none ∧ t.ownReport.id = TrialId.zero ∧ t.ownReport.params = ⟨0, 0, 0, 0⟩))

/-! ### The drive and break lines (04, 06, 09) -/

/-- A taken speed edge counts its direction, pushes the history, restarts the stall timer and clears the stall
indication; in COUNTING on the channel under check it counts there too, or ends the check OVERRANGE. The edge is taken when
the raw line has differed from the filtered level at more than w looks in a row and is not held since CONFIGURE; otherwise
there is no edge (log 33). The reading at which the index timer stops is kept (log 29). -/
def Obligations.SpeedEdgeIsCounted : Prop :=
  ∀ (after : Wait) (n : Channel) (dir : Bool) (s : State), s.running = true → s.chans.get n ≠ .disabled →
    let a := s.advance after
    let f := a.inputs.spd.get n
    let due := f.level = false ∧ f.held = false ∧ s.cfg.fastWidth < f.differs
    (due → ∃ t, exec (.speedEdge after n dir) s = .next t
      ∧ t.inputs.spd.get n = { level := true, differs := 0, held := false }
      ∧ t.counters.get n = { s.counters.get n with
          net := clamp (-32767) 32767 ((s.counters.get n).net + (if dir then 1 else -1))
          history := (s.counters.get n).history.push a.now dir, stallFrom := a.now, stalled := false }
      ∧ (∀ m : Channel, m ≠ n → t.counters.get m = s.counters.get m)
      ∧ (¬(s.check.state = .counting ∧ s.check.channel = n) → t.check = s.check ∧ t.port = a.port)
      ∧ (s.check.state = .counting → s.check.channel = n → (s.check.count + (if dir then 1 else -1)).natAbs ≤ 65535 →
          t.check = { s.check with count := s.check.count + (if dir then 1 else -1) } ∧ t.port = a.port)
      ∧ (s.check.state = .counting → s.check.channel = n → 65535 < (s.check.count + (if dir then 1 else -1)).natAbs →
          t.check = { s.check with state := .done, verdict := .incomplete .overrange, timer := .stopped a.indexReading }
            ∧ t.hasEvent .revCheckDone = true)
      ∧ t.chans = s.chans ∧ t.meas = s.meas ∧ t.trial = s.trial ∧ t.trim = s.trim)
    ∧ (¬due → exec (.speedEdge after n dir) s = .next a)

/-- A taken load edge counts one. A taken index edge of the channel under check starts the count in ARMED and ends the
check in COUNTING: MATCH within one of the expected pulses, REVERSED below 0, MISMATCH otherwise. A taken falling edge of a
fast filter delivers nothing, and an edge that is not taken is none (log 33). The reading at which the index timer stops is
kept (log 29). Last, what k looks of a fast filter at one raw level do: a level that differs is counted, taken at the look
after the width's; a level that does not differ discards the count; a line held since CONFIGURE waits to be seen low; and
the filters of a DISABLED channel never look. -/
def Obligations.LoadIndexAndFallingEdges : Prop :=
  ∀ (after : Wait) (n : Channel) (s : State), s.running = true → s.chans.get n ≠ .disabled →
    let a := s.advance after
    let due := fun (l : FastLine) (level : Bool) =>
      (a.fastFilter l n).level = !level ∧ (a.fastFilter l n).held = false ∧ s.cfg.fastWidth < (a.fastFilter l n).differs
    (due .ldf true →
        ∃ t, exec (.loadEdge after n) s = .next t ∧ t.inputs.ldf.get n = { level := true, differs := 0, held := false }
          ∧ t.counters = s.counters.set n { s.counters.get n with loads := min ((s.counters.get n).loads + 1) 65535 }
          ∧ t.check = s.check ∧ t.port = a.port)
      ∧ (due .idx true →
        ∃ t, exec (.indexEdge after n) s = .next t ∧ t.inputs.idx.get n = { level := true, differs := 0, held := false }
          ∧ t.counters = s.counters
          ∧ (s.check.channel = n → s.check.state = .armed →
              t.check = { s.check with state := .counting, count := 0, firstIndex := a.now, timer := .running a.now })
          ∧ (s.check.channel = n → s.check.state = .counting →
              t.check = { s.check with
                  state := .done, revTime := a.now - s.check.firstIndex, timer := .stopped a.indexReading
                  verdict :=
                    if s.check.count < 0 then .reversed
                    else if 0 < s.check.count ∧ ((s.cfg.chan.get n).expected : Int) - 1 ≤ s.check.count
                        ∧ s.check.count ≤ ((s.cfg.chan.get n).expected : Int) + 1 then .isMatch
                    else .mismatch } ∧ t.hasEvent .revCheckDone = true)
          ∧ (s.check.channel ≠ n ∨ s.check.state = .idle ∨ s.check.state = .done → t.check = s.check ∧ t.port = a.port))
      ∧ (∀ l : FastLine, due l false →
        ∃ t, exec (.fastFilterFallingEdge after l n) s = .next t
          ∧ t.fastFilter l n = { level := false, differs := 0, held := false }
          ∧ t.counters = s.counters ∧ t.check = s.check ∧ t.port = a.port)
      ∧ (¬due .ldf true → exec (.loadEdge after n) s = .next a)
      ∧ (¬due .idx true → exec (.indexEdge after n) s = .next a)
      ∧ (∀ l : FastLine, ¬due l false → exec (.fastFilterFallingEdge after l n) s = .next a)
      ∧ (∀ (l : FastLine) (m : Channel) (j e : Nat) (raw : RawLines), 0 < j →
          let w := s.cfg.fastWidth
          let f := s.fastFilter l m
          let g := (s.elapse [⟨j, raw, e⟩]).fastFilter l m
          let high := (raw.line l).getLsbD m.val
          (s.chans.get m = .disabled → g = f)
            ∧ (s.chans.get m ≠ .disabled → f.held = false → f.differs ≤ w →
                g = { f with differs := if high = f.level then 0 else min (f.differs + j) (w + 1) })
            ∧ (s.chans.get m ≠ .disabled → f.held = true → f.level = false → g = { f with differs := 0, held := high })
            ∧ (s.chans.get m ≠ .disabled → f.held = false → w < f.differs → g = f))

/-- A change of a channel's filtered RDY or FLT level acts on its state as the table says, and on no other channel. A
channel that leaves READY by either ends a check under way on it with cause CHANNEL and REV_CHECK_DONE. The reading at which
the index timer stops is kept (log 29). -/
def Obligations.ReadyAndFaultLevelsAct : Prop :=
  ∀ (after : Wait) (n : Channel) (s : State), s.running = true → s.chans.get n ≠ .disabled → s.config.isSome = true →
    let a := s.advance after
    let ended : RevCheck :=
      { s.check with state := .done, verdict := .incomplete .channel, timer := .stopped a.indexReading }
    ((s.inputs.rdy.get n).run = s.cfg.slowTime →
        ∃ t, exec (.rdyChange after n) s = .next t
          ∧ t.inputs.rdy.get n = { active := !(s.inputs.rdy.get n).active, run := 0 }
          ∧ t.chans = s.chans.set n (
              if (s.inputs.rdy.get n).active then (if s.chans.get n = .ready then .offline else s.chans.get n)
              else if s.chans.get n = .offline ∧ (s.inputs.flt.get n).active = false then .ready else s.chans.get n)
          ∧ (s.chans.get n = .ready → (s.inputs.rdy.get n).active = true → s.checkUnderWay = true → s.check.channel = n →
              t.check = ended ∧ t.hasEvent .revCheckDone = true)
          ∧ (s.chans.get n ≠ .ready ∨ (s.inputs.rdy.get n).active = false ∨ s.checkUnderWay = false ∨ s.check.channel ≠ n →
              t.check = s.check ∧ t.port = a.port))
      ∧ ((s.inputs.flt.get n).run = s.cfg.slowTime →
        ∃ t, exec (.fltChange after n) s = .next t
          ∧ t.inputs.flt.get n = { active := !(s.inputs.flt.get n).active, run := 0 }
          ∧ t.chans = s.chans.set n (
              if (s.inputs.flt.get n).active = false ∧ s.isFaulted n = false then .faulted .faultInput else s.chans.get n)
          ∧ ((s.inputs.flt.get n).active = false → s.isFaulted n = false → t.hasEvent .channelFault = true)
          ∧ ((s.inputs.flt.get n).active = false → s.isFaulted n = false → s.checkUnderWay = true → s.check.channel = n →
              t.check = ended ∧ t.hasEvent .revCheckDone = true)
          ∧ (s.checkUnderWay = false ∨ s.check.channel ≠ n → t.check = s.check)
          ∧ ((s.inputs.flt.get n).active = true ∨ s.isFaulted n = true → t.check = s.check ∧ t.port = a.port))

/-- The filtered BRK level becomes active: the latch and the mark are set; from a clear latch BREAK is raised, the manual
trim target goes to 0, the class to RECOVERY and the target to 0. Becoming inactive, it leaves both. -/
def Obligations.BreakIsLatched : Prop :=
  ∀ (after : Wait) (s : State), s.running = true → s.config.isSome = true → s.inputs.brk.run = s.cfg.slowTime →
    let a := s.advance after
    (s.inputs.brk.active = false → s.brk.latch = false →
        ∃ t, exec (.brkChange after) s = .next t ∧ t.brk = { latch := true, mark := true } ∧ t.hasEvent .brk = true
          ∧ t.trim = { s.trim with manual := 0, cls := .recovery, target := 0 } ∧ t.inputs.brk = { active := true, run := 0 })
      ∧ (s.inputs.brk.active = false → s.brk.latch = true →
        ∃ t, exec (.brkChange after) s = .next t ∧ t.brk = { latch := true, mark := true } ∧ t.port = a.port
          ∧ t.trim = { s.trim with target := 0 } ∧ t.inputs.brk = { active := true, run := 0 })
      ∧ (s.inputs.brk.active = true →
        ∃ t, exec (.brkChange after) s = .next t ∧ t.brk = s.brk ∧ t.port = a.port ∧ t.trim = s.trim
          ∧ t.inputs.brk = { active := false, run := 0 })

/-- The stall time empties the history and sets the indication; the index timer's 60 s end a check with NO_INDEX. The
reading at which the index timer stops is kept (log 29). -/
def Obligations.StallAndIndexTimeout : Prop :=
  ∀ (after : Wait) (s : State), s.running = true →
    let a := s.advance after
    (∀ n : Channel, s.chans.get n ≠ .disabled → (s.counters.get n).stalled = false →
        (s.counters.get n).stallFrom + 1000 * s.cfg.stallTime ≤ a.now →
        exec (.stall after n) s = .next { a with
          counters := s.counters.set n { s.counters.get n with history := .empty, stalled := true } })
      ∧ (s.checkUnderWay = true → 60000000 ≤ a.indexReading →
        ∃ t, exec (.indexTimeout after) s = .next t ∧ t.hasEvent .revCheckDone = true
          ∧ t.check = { s.check with state := .done, verdict := .incomplete .noIndex, timer := .stopped a.indexReading })

/-- A slow filter sample, one for each millisecond since CONFIGURE: a level equal to the filtered one sets the run count
to 0, one that differs increases it up to q; no filtered level changes in it. The fast filters stand as the wait before the
sample has left them, every microsecond of which is one of their looks (log 33). -/
def Obligations.SlowFilterSamples : Prop :=
  ∀ (after : Wait) (v : SlowLevels) (s : State), s.running = true → s.config.isSome = true →
    let a := s.advance after
    s.inputs.sensedFrom + 1000 * (s.inputs.samples + 1) ≤ a.now →
    ∃ t, exec (.slowFilterSample after v) s = .next t ∧ t.inputs.samples = s.inputs.samples + 1
      ∧ (∀ n : Channel, s.chans.get n ≠ .disabled →
          t.inputs.rdy.get n = { s.inputs.rdy.get n with
            run := if v.rdy.getLsbD n.val = (s.inputs.rdy.get n).active then 0
                   else min ((s.inputs.rdy.get n).run + 1) s.cfg.slowTime }
          ∧ t.inputs.flt.get n = { s.inputs.flt.get n with
            run := if (!v.flt.getLsbD n.val) = (s.inputs.flt.get n).active then 0
                   else min ((s.inputs.flt.get n).run + 1) s.cfg.slowTime })
      ∧ (∀ n : Channel, s.chans.get n = .disabled →
          t.inputs.rdy.get n = s.inputs.rdy.get n ∧ t.inputs.flt.get n = s.inputs.flt.get n)
      ∧ t.inputs.brk = { s.inputs.brk with
            run := if (!v.brk) = s.inputs.brk.active then 0 else min (s.inputs.brk.run + 1) s.cfg.slowTime }
      ∧ t.inputs.spd = a.inputs.spd ∧ t.inputs.ldf = a.inputs.ldf ∧ t.inputs.idx = a.inputs.idx
      ∧ t.chans = s.chans ∧ t.brk = s.brk

/-- What the commands of the drive and break lines and of the outputs leave as it was: the station, the configuration
record, the link, the line, the round, the roster, the trial, the measurement, the draw, the log, the answer that is
pending; those of the filters' falling edges, of the slow samples and of the outputs leave the channels, their counters and
the trims too. That a channel that leaves READY, or becomes READY again, between boundaries keeps its slip count, which is
part of the measurement, is the model's choice (log 45). -/
def Obligations.DriveCommandsLeaveTheLink : Prop :=
  ∀ (after : Wait) (n : Channel) (dir : Bool) (l : FastLine) (v : SlowLevels) (o : PwmOutput) (s t : State),
    let a := s.advance after
    let quiet : List Instr :=
      [.fastFilterFallingEdge after l n, .slowFilterSample after v, .pwmPeriodStart after, .pwmHighTimeEnd after o]
    let moving : List Instr :=
      [.speedEdge after n dir, .loadEdge after n, .indexEdge after n, .rdyChange after n, .fltChange after n,
       .brkChange after, .stall after n, .indexTimeout after]
    (∀ c ∈ quiet ++ moving, exec c s = .next t →
        t.station = s.station ∧ t.config = s.config ∧ t.link = s.link ∧ t.line = a.line ∧ t.round = s.round
          ∧ t.roster = s.roster ∧ t.ownReport = s.ownReport ∧ t.trial = s.trial ∧ t.lastOutcome = s.lastOutcome
          ∧ t.seqCounter = s.seqCounter ∧ t.meas = s.meas ∧ t.draw = s.draw ∧ t.log = s.log ∧ t.power = s.power
          ∧ t.port.response = s.port.response ∧ t.port.mask = s.port.mask ∧ t.trim.applied = s.trim.applied
          ∧ t.trim.shift = s.trim.shift)
      ∧ (∀ c ∈ quiet, exec c s = .next t →
        t.counters = s.counters ∧ t.chans = s.chans ∧ t.check = s.check ∧ t.trim = s.trim ∧ t.brk = s.brk
          ∧ t.port = a.port)
      ∧ (∀ c ∈ moving, exec c s = .next t → t.pwm = s.pwm)

/-! ### The outputs (R136 to R146) -/

/-- A PWM period starts every 1000 µs: every output high, the dither position one on, the waiting high times taken; an
output returns low when its high time has run out. A TRM period whose dither position's place in the spread order is below
the fraction f is one microsecond longer than the whole part W; of a frame's sixteen periods f are so, and their high times
add up to H, 8000 + 6 times the trim in sixteenths of a µs. A share trim s gives 500 + 2 s µs. -/
def Obligations.PwmPeriods : Prop :=
  (∀ x : Int, -1000 ≤ x → x ≤ 1000 → (trmHigh x : Int) = 8000 + 6 * x)
  ∧ (∀ x : Int, -200 ≤ x → x ≤ 200 → (shtHigh x : Int) = 500 + 2 * x)
  ∧ (stations.map ditherPlace = [0, 8, 4, 12, 2, 10, 6, 14, 1, 9, 5, 13, 3, 11, 7, 15])
  ∧ (∀ (H : Nat) (i : Fin 16), trmPeriod H i = if ditherPlace i < H % 16 then H / 16 + 1 else H / 16)
  ∧ (∀ H : Nat, (stations.map fun i => trmPeriod H i).sum = H
      ∧ (stations.filter fun i => trmPeriod H i = H / 16 + 1).length = H % 16)
  ∧ ∀ (after : Wait) (s : State), s.running = true → s.pwm.running = true →
    let a := s.advance after
    (s.pwm.start + 1000 ≤ a.now →
        exec (.pwmPeriodStart after) s = .next { a with pwm := { a.pwm with
          start := s.pwm.start + 1000, dither := s.pwm.dither + 1
          trmNow := trmPeriod s.pwm.trmNext (s.pwm.dither + 1)
          shtNow := s.pwm.shtNext, trm := true, sht := .all true } })
      ∧ (s.pwm.trm = true → s.pwm.start + s.pwm.trmNow ≤ a.now →
        exec (.pwmHighTimeEnd after .trm) s = .next { a with pwm := { a.pwm with trm := false } })
      ∧ (∀ n : Channel, s.pwm.sht.get n = true → s.pwm.start + s.pwm.shtNow.get n ≤ a.now →
        exec (.pwmHighTimeEnd after (.sht n)) s = .next { a with pwm := { a.pwm with sht := s.pwm.sht.set n false } })

/-- A ramp takes its target when the distance is within the limit, and otherwise moves toward it by exactly the limit.
The limit is that of the class where separate ramps are enabled, and the NORMAL one else. Every boundary ramps the applied
trim and the applied share shift toward their targets as it leaves them, both 0 while the break is in force, under the
class it leaves, RECOVERY while the break latch is set; then it splits the shift over the READY channels and forms the
waiting high times. The premise on the target is part of an invariant of its own. That the break mark alone leaves the
class as it is, is the model's reading (log 28). -/
def Obligations.RampMovesTowardTheTarget : Prop :=
  (∀ (limit : Nat) (target applied : Int),
    ((target - applied).natAbs ≤ limit → rampToward limit target applied = target)
      ∧ ((limit : Int) < target - applied → rampToward limit target applied = applied + limit)
      ∧ (target - applied < -(limit : Int) → rampToward limit target applied = applied - limit))
  ∧ ∀ (s : State) (k : BoundaryKind) (n : BitVec 8), s.targetIsChosen →
    let t := s.takeBoundary k n
    let limit : Nat :=
      if s.cfg.separateRamps = false then s.cfg.rampNormal
      else
        match (if s.brk.latch then RampClass.recovery else t.trim.cls) with
        | .normal => s.cfg.rampNormal
        | .trial => s.cfg.rampTrial
        | .recovery => s.cfg.rampRecovery
    t.trim.applied = rampToward limit (if s.breakInForce then 0 else t.trim.target) s.trim.applied
      ∧ t.trim.shift = rampToward limit (if s.breakInForce then 0 else t.trim.shiftTarget) s.trim.shift
      ∧ (∀ m : Channel, t.trim.shares.get m = splitShare t.ready t.trim.shift t.trim.drive m)
      ∧ t.pwm.trmNext = (8000 + 6 * t.trim.applied).toNat
      ∧ (∀ m : Channel, t.pwm.shtNext.get m = (500 + 2 * t.trim.shares.get m).toNat)

/-- The split of a share shift σ toward a drive over the READY channels: the drive takes σ whole; each of the m other READY
channels takes −σ / m truncated toward zero, and the remainder goes one unit each, with the sign of −σ, to the lowest
numbered of them; channels not READY have 0. With σ at 0, the drive not READY, or no other channel READY, every trim is 0.
The trims sum to 0, and none is larger in magnitude than the shift. -/
def Obligations.SplitSumsToZero : Prop :=
  ∀ (ready : Channel → Bool) (x : Int) (d : Channel),
    let others := channels.filter fun m => ready m = true ∧ m ≠ d
    let q : Int := (-x).tdiv others.length
    let r : Int := -x - q * others.length
    sumInt (channels.map fun n => splitShare ready x d n) = 0
      ∧ (∀ n : Channel, ready n = false → splitShare ready x d n = 0)
      ∧ (∀ n : Channel, (splitShare ready x d n).natAbs ≤ x.natAbs)
      ∧ (∀ m : Channel, ready d = true → ready m = true → m ≠ d → splitShare ready x d d = x)
      ∧ (x = 0 ∨ ready d = false ∨ others = [] → ∀ n : Channel, splitShare ready x d n = 0)
      ∧ (ready d = true → ∀ n ∈ others,
          splitShare ready x d n
            = q + (if (others.filter fun m => m.val < n.val).length < r.natAbs then (if 0 < -x then 1 else -1) else 0))

/-! ### Formats (R19, R193) -/

/-- What the line carries reads back as what was sent. A report's fifteen bytes sum to 0 modulo 256 and give the same
report to a receiver; the four bytes of a claim carry its parameters whole; a character's eleven levels (dominant start
bit, data least significant first, mark, stop) give the character. Where the fields lie in the fifteen bytes and in the
four, and the order of the bytes of a word, the most significant first; and the codes of the line, the log and the
status. -/
def Obligations.FormatsReadBack : Prop :=
  (∀ r : Report, r.readyCount ≤ 4 →
      let piece := fun first count : Nat => (r.frame.drop first).take count
      let bit := fun i j : Nat => (nth r.frame i).getLsbD j
      r.frame.length = 15 ∧ sumBytes r.frame = 0 ∧ Report.ofFrame r.frame = some r
        ∧ lowerNibble (nth r.frame 0) = r.station ∧ bit 0 4 = r.leaving ∧ bit 0 5 = r.brk ∧ bit 0 6 = r.fault
        ∧ bit 0 7 = r.alarm ∧ ((nth r.frame 1).extractLsb' 0 3).toNat = r.readyCount ∧ bit 1 3 = false
        ∧ (nth r.frame 1).extractLsb' 4 3 = r.phase.code ∧ bit 1 7 = false
        ∧ piece 2 3 = bytes24 r.speed ∧ piece 5 2 = bytes16 r.load ∧ piece 7 2 = bytes16 r.trim
        ∧ upperNibble (nth r.frame 9) = r.id.proposer ∧ lowerNibble (nth r.frame 9) = r.id.seq
        ∧ piece 10 4 = [r.params.a, r.params.b, r.params.c, r.params.d])
    ∧ (∀ p : TrialParams, p.valid = true →
        let q := p.claimBytes
        TrialParams.ofBytes q = p ∧ q.a.extractLsb' 6 2 = p.kind.code ∧ (q.a.extractLsb' 4 2).toNat = p.drive.val
          ∧ lowerNibble q.a = p.target ∧ upperNibble q.b = p.spanFirst ∧ lowerNibble q.b = p.spanLast
          ∧ q.c.toInt = p.step ∧ q.d.toNat = p.duration)
    ∧ [TrialPhase.none, .claim, .accept, .refuse, .go, .run, .abort].map (fun x => x.code.toNat) = [0, 1, 2, 3, 4, 5, 6]
    ∧ [TrialKind.none, .watch, .drawStep, .shareStep].map (fun x => x.code.toNat) = [0, 1, 2, 3]
    ∧ [Presence.absent, .present, .silent].map (fun x => x.code.toNat) = [0, 1, 2]
    ∧ [LocalPhase.idle, .proposing, .accepting, .scheduled, .running, .recovering].map (fun x => x.code.toNat)
        = [0, 1, 2, 3, 4, 5]
    ∧ [Role.none, .proposer, .member, .proposerMember, .bystander].map (fun x => x.code.toNat) = [0, 1, 2, 3, 4]
    ∧ [TrialOutcome.none, .completed, .aborted, .withdrawn, .lost, .dropped].map (fun x => x.code.toNat)
        = [0, 1, 2, 3, 4, 5]
    ∧ PendingRequest.none.code = 0 ∧ PendingRequest.abort.code = 2
    ∧ (∀ (i : TrialId) (p : TrialParams), (PendingRequest.propose i p).code = 1)
    ∧ [ChannelState.disabled, .offline, .ready, .faulted .faultInput, .faulted .slip, .faulted .reversed].map
        (fun x => x.byte.toNat) = [0x00, 0x01, 0x02, 0x13, 0x23, 0x33]
    ∧ [CheckState.idle, .armed, .counting, .done].map (fun x => x.code.toNat) = [0, 1, 2, 3]
    ∧ [Verdict.none, .isMatch, .mismatch, .reversed, .incomplete .channel].map (fun x => (x.code.toNat, x.causeCode.toNat))
        = [(0, 0), (1, 0), (2, 0), (3, 0), (4, 1)]
    ∧ [CheckCause.channel, .noIndex, .overrange, .cancelled].map
        (fun x => ((Verdict.incomplete x).code.toNat, (Verdict.incomplete x).causeCode.toNat)) = [(4, 1), (4, 2), (4, 3), (4, 4)]
    ∧ [RecordType.none, .pre, .run, .close, .snap].map (fun x => x.code.toNat) = [0, 1, 2, 3, 4]
    ∧ [SpeedMethod.none, .count, .period, .start, .stalled].map (fun x => x.code.toNat) = [0, 1, 2, 3, 4]
    ∧ [RampClass.normal, .trial, .recovery].map (fun x => x.code.toNat) = [0, 1, 2]
    ∧ [SoftPosition.inside, .low, .high].map (fun x => x.code.toNat) = [0, 1, 2]
    ∧ [LeaveProgress.idle, .owed, .sent].map (fun x => x.code.toNat) = [0, 1, 2]
    ∧ DrawState.defined.codes = [0, 0]
    ∧ [UndefinedReason.notMeasured, .noUpstream, .upstreamNotPresent, .ownInvalid, .upstreamInvalid, .upstreamSlow].map
        (fun x => (DrawState.undefined x).codes) = [[1, 1], [1, 2], [1, 3], [1, 4], [1, 5], [1, 6]]
    ∧ (∀ w : BitVec 16, bytes16 w = [w.extractLsb' 8 8, w.extractLsb' 0 8])
    ∧ (∀ w : BitVec 24, bytes24 w = [w.extractLsb' 16 8, w.extractLsb' 8 8, w.extractLsb' 0 8])
    ∧ (∀ w : BitVec 32,
        bytes32 w = [w.extractLsb' 24 8, w.extractLsb' 16 8, w.extractLsb' 8 8, w.extractLsb' 0 8])
    ∧ (∀ c : CharBits, charOfLevels (charLevels c) = c ∧ (charLevels c).length = 11 ∧ (charLevels c).head? = some false
        ∧ (∀ i : Fin 8, (charLevels c)[i.val + 1]? = some (c.data.getLsbD i.val)))

/-! ### Invariants -/

/-- Every step keeps the log in order: at most 256 records, each numbered one more than the one before it, up to the
counter, and at most 8 samples in the ring. -/
def Obligations.LogStaysInOrder : Prop :=
  ∀ s t : State, s.logInOrder → step s = .next t → t.logInOrder

/-- Every step keeps the blocks of the link in step with the link state. -/
def Obligations.LinkDisciplineIsKept : Prop :=
  ∀ s t : State, s.followsLink → step s = .next t → t.followsLink

/-- Every step keeps the trim target chosen from its sources, and every trim target, applied trim and share trim within the
configured limits. The premise that the blocks of the link follow the link state is an invariant of its own. -/
def Obligations.TrimsStayWithinLimits : Prop :=
  ∀ s t : State, s.followsLink → s.trimsWithinLimits → step s = .next t → t.trimsWithinLimits

/-- The three invariants hold right after reset. -/
def Obligations.InvariantsHoldAfterReset : Prop :=
  State.reset.logInOrder ∧ State.reset.followsLink ∧ State.reset.trimsWithinLimits

end
end

