-- ==== Sys2Proof/Laws/State.lean ====
section
/-! SUPPORT. What each plain update of the state leaves as it was, field by field. -/

namespace Sys2Proof.Machine

set_option Elab.async false

/-- A fold keeps what each of its steps keeps. -/
theorem foldl_keeps {α β : Type} (g : State → α → State) (p : State → β) (h : ∀ t a, p (g t a) = p t) (l : List α)
    (s : State) : p (l.foldl g s) = p s := by
  induction l generalizing s with
  | nil => rfl
  | cons a rest ih => rw [List.foldl_cons, ih, h]

@[simp] theorem elapse_power (s : State) (d : Wait) : (s.elapse d).power = s.power := rfl
@[simp] theorem elapse_now (s : State) (d : Wait) : (s.elapse d).now = s.now + d.micros := rfl
@[simp] theorem elapse_pins_sckFalls (s : State) (d : Wait) :
    (s.elapse d).pins.sckFalls = if s.port.txn = .none then s.pins.sckFalls else s.pins.sckFalls + d.falls := rfl
@[simp] theorem elapse_pins_straps (s : State) (d : Wait) : (s.elapse d).pins.straps = s.pins.straps := rfl
@[simp] theorem elapse_pins_dir (s : State) (d : Wait) : (s.elapse d).pins.dir = s.pins.dir := rfl
@[simp] theorem elapse_pins_rdy (s : State) (d : Wait) : (s.elapse d).pins.rdy = s.pins.rdy := rfl
@[simp] theorem elapse_pins_flt (s : State) (d : Wait) : (s.elapse d).pins.flt = s.pins.flt := rfl
@[simp] theorem elapse_pins_brk (s : State) (d : Wait) : (s.elapse d).pins.brk = s.pins.brk := rfl
@[simp] theorem elapse_station (s : State) (d : Wait) : (s.elapse d).station = s.station := rfl
@[simp] theorem elapse_config (s : State) (d : Wait) : (s.elapse d).config = s.config := rfl
@[simp] theorem elapse_line (s : State) (d : Wait) : (s.elapse d).line = s.line := rfl
@[simp] theorem elapse_round (s : State) (d : Wait) : (s.elapse d).round = s.round := rfl
@[simp] theorem elapse_link (s : State) (d : Wait) : (s.elapse d).link = s.link := rfl
@[simp] theorem elapse_roster (s : State) (d : Wait) : (s.elapse d).roster = s.roster := rfl
@[simp] theorem elapse_ownReport (s : State) (d : Wait) : (s.elapse d).ownReport = s.ownReport := rfl
@[simp] theorem elapse_trial (s : State) (d : Wait) : (s.elapse d).trial = s.trial := rfl
@[simp] theorem elapse_lastOutcome (s : State) (d : Wait) : (s.elapse d).lastOutcome = s.lastOutcome := rfl
@[simp] theorem elapse_seqCounter (s : State) (d : Wait) : (s.elapse d).seqCounter = s.seqCounter := rfl
@[simp] theorem elapse_inputs_rdy (s : State) (d : Wait) : (s.elapse d).inputs.rdy = s.inputs.rdy := rfl
@[simp] theorem elapse_inputs_flt (s : State) (d : Wait) : (s.elapse d).inputs.flt = s.inputs.flt := rfl
@[simp] theorem elapse_inputs_brk (s : State) (d : Wait) : (s.elapse d).inputs.brk = s.inputs.brk := rfl
@[simp] theorem elapse_inputs_sensedFrom (s : State) (d : Wait) : (s.elapse d).inputs.sensedFrom = s.inputs.sensedFrom := rfl
@[simp] theorem elapse_inputs_samples (s : State) (d : Wait) : (s.elapse d).inputs.samples = s.inputs.samples := rfl
@[simp] theorem elapse_counters (s : State) (d : Wait) : (s.elapse d).counters = s.counters := rfl
@[simp] theorem elapse_chans (s : State) (d : Wait) : (s.elapse d).chans = s.chans := rfl
@[simp] theorem elapse_meas (s : State) (d : Wait) : (s.elapse d).meas = s.meas := rfl
@[simp] theorem elapse_check (s : State) (d : Wait) : (s.elapse d).check = s.check := rfl
@[simp] theorem elapse_draw (s : State) (d : Wait) : (s.elapse d).draw = s.draw := rfl
@[simp] theorem elapse_trim (s : State) (d : Wait) : (s.elapse d).trim = s.trim := rfl
@[simp] theorem elapse_pwm (s : State) (d : Wait) : (s.elapse d).pwm = s.pwm := rfl
@[simp] theorem elapse_brk (s : State) (d : Wait) : (s.elapse d).brk = s.brk := rfl
@[simp] theorem elapse_log (s : State) (d : Wait) : (s.elapse d).log = s.log := rfl
@[simp] theorem elapse_port (s : State) (d : Wait) : (s.elapse d).port = s.port := rfl
@[simp] theorem elapse_pending (s : State) (d : Wait) : (s.elapse d).pending = s.pending := rfl
@[simp] theorem raise_now (s : State) (e : Event) : (s.raise e).now = s.now := rfl
@[simp] theorem raise_power (s : State) (e : Event) : (s.raise e).power = s.power := rfl
@[simp] theorem raise_pins (s : State) (e : Event) : (s.raise e).pins = s.pins := rfl
@[simp] theorem raise_station (s : State) (e : Event) : (s.raise e).station = s.station := rfl
@[simp] theorem raise_config (s : State) (e : Event) : (s.raise e).config = s.config := rfl
@[simp] theorem raise_line (s : State) (e : Event) : (s.raise e).line = s.line := rfl
@[simp] theorem raise_round (s : State) (e : Event) : (s.raise e).round = s.round := rfl
@[simp] theorem raise_link (s : State) (e : Event) : (s.raise e).link = s.link := rfl
@[simp] theorem raise_roster (s : State) (e : Event) : (s.raise e).roster = s.roster := rfl
@[simp] theorem raise_ownReport (s : State) (e : Event) : (s.raise e).ownReport = s.ownReport := rfl
@[simp] theorem raise_trial (s : State) (e : Event) : (s.raise e).trial = s.trial := rfl
@[simp] theorem raise_lastOutcome (s : State) (e : Event) : (s.raise e).lastOutcome = s.lastOutcome := rfl
@[simp] theorem raise_seqCounter (s : State) (e : Event) : (s.raise e).seqCounter = s.seqCounter := rfl
@[simp] theorem raise_inputs (s : State) (e : Event) : (s.raise e).inputs = s.inputs := rfl
@[simp] theorem raise_counters (s : State) (e : Event) : (s.raise e).counters = s.counters := rfl
@[simp] theorem raise_chans (s : State) (e : Event) : (s.raise e).chans = s.chans := rfl
@[simp] theorem raise_meas (s : State) (e : Event) : (s.raise e).meas = s.meas := rfl
@[simp] theorem raise_check (s : State) (e : Event) : (s.raise e).check = s.check := rfl
@[simp] theorem raise_draw (s : State) (e : Event) : (s.raise e).draw = s.draw := rfl
@[simp] theorem raise_trim (s : State) (e : Event) : (s.raise e).trim = s.trim := rfl
@[simp] theorem raise_pwm (s : State) (e : Event) : (s.raise e).pwm = s.pwm := rfl
@[simp] theorem raise_brk (s : State) (e : Event) : (s.raise e).brk = s.brk := rfl
@[simp] theorem raise_log (s : State) (e : Event) : (s.raise e).log = s.log := rfl
@[simp] theorem raise_pending (s : State) (e : Event) : (s.raise e).pending = s.pending := rfl
@[simp] theorem setEntry_now (s : State) (t : Station) (e : Entry) : (s.setEntry t e).now = s.now := rfl
@[simp] theorem setEntry_power (s : State) (t : Station) (e : Entry) : (s.setEntry t e).power = s.power := rfl
@[simp] theorem setEntry_pins (s : State) (t : Station) (e : Entry) : (s.setEntry t e).pins = s.pins := rfl
@[simp] theorem setEntry_station (s : State) (t : Station) (e : Entry) : (s.setEntry t e).station = s.station := rfl
@[simp] theorem setEntry_config (s : State) (t : Station) (e : Entry) : (s.setEntry t e).config = s.config := rfl
@[simp] theorem setEntry_line (s : State) (t : Station) (e : Entry) : (s.setEntry t e).line = s.line := rfl
@[simp] theorem setEntry_round (s : State) (t : Station) (e : Entry) : (s.setEntry t e).round = s.round := rfl
@[simp] theorem setEntry_link (s : State) (t : Station) (e : Entry) : (s.setEntry t e).link = s.link := rfl
@[simp] theorem setEntry_ownReport (s : State) (t : Station) (e : Entry) : (s.setEntry t e).ownReport = s.ownReport := rfl
@[simp] theorem setEntry_trial (s : State) (t : Station) (e : Entry) : (s.setEntry t e).trial = s.trial := rfl
@[simp] theorem setEntry_lastOutcome (s : State) (t : Station) (e : Entry) : (s.setEntry t e).lastOutcome = s.lastOutcome := rfl
@[simp] theorem setEntry_seqCounter (s : State) (t : Station) (e : Entry) : (s.setEntry t e).seqCounter = s.seqCounter := rfl
@[simp] theorem setEntry_inputs (s : State) (t : Station) (e : Entry) : (s.setEntry t e).inputs = s.inputs := rfl
@[simp] theorem setEntry_counters (s : State) (t : Station) (e : Entry) : (s.setEntry t e).counters = s.counters := rfl
@[simp] theorem setEntry_chans (s : State) (t : Station) (e : Entry) : (s.setEntry t e).chans = s.chans := rfl
@[simp] theorem setEntry_meas (s : State) (t : Station) (e : Entry) : (s.setEntry t e).meas = s.meas := rfl
@[simp] theorem setEntry_check (s : State) (t : Station) (e : Entry) : (s.setEntry t e).check = s.check := rfl
@[simp] theorem setEntry_draw (s : State) (t : Station) (e : Entry) : (s.setEntry t e).draw = s.draw := rfl
@[simp] theorem setEntry_trim (s : State) (t : Station) (e : Entry) : (s.setEntry t e).trim = s.trim := rfl
@[simp] theorem setEntry_pwm (s : State) (t : Station) (e : Entry) : (s.setEntry t e).pwm = s.pwm := rfl
@[simp] theorem setEntry_brk (s : State) (t : Station) (e : Entry) : (s.setEntry t e).brk = s.brk := rfl
@[simp] theorem setEntry_log (s : State) (t : Station) (e : Entry) : (s.setEntry t e).log = s.log := rfl
@[simp] theorem setEntry_port (s : State) (t : Station) (e : Entry) : (s.setEntry t e).port = s.port := rfl
@[simp] theorem setEntry_pending (s : State) (t : Station) (e : Entry) : (s.setEntry t e).pending = s.pending := rfl
@[simp] theorem setChannel_now (s : State) (n : Channel) (c : ChannelState) : (s.setChannel n c).now = s.now := rfl
@[simp] theorem setChannel_power (s : State) (n : Channel) (c : ChannelState) : (s.setChannel n c).power = s.power := rfl
@[simp] theorem setChannel_pins (s : State) (n : Channel) (c : ChannelState) : (s.setChannel n c).pins = s.pins := rfl
@[simp] theorem setChannel_station (s : State) (n : Channel) (c : ChannelState) : (s.setChannel n c).station = s.station := rfl
@[simp] theorem setChannel_config (s : State) (n : Channel) (c : ChannelState) : (s.setChannel n c).config = s.config := rfl
@[simp] theorem setChannel_line (s : State) (n : Channel) (c : ChannelState) : (s.setChannel n c).line = s.line := rfl
@[simp] theorem setChannel_round (s : State) (n : Channel) (c : ChannelState) : (s.setChannel n c).round = s.round := rfl
@[simp] theorem setChannel_link (s : State) (n : Channel) (c : ChannelState) : (s.setChannel n c).link = s.link := rfl
@[simp] theorem setChannel_roster (s : State) (n : Channel) (c : ChannelState) : (s.setChannel n c).roster = s.roster := rfl
@[simp] theorem setChannel_ownReport (s : State) (n : Channel) (c : ChannelState) : (s.setChannel n c).ownReport = s.ownReport := rfl
@[simp] theorem setChannel_trial (s : State) (n : Channel) (c : ChannelState) : (s.setChannel n c).trial = s.trial := rfl
@[simp] theorem setChannel_lastOutcome (s : State) (n : Channel) (c : ChannelState) : (s.setChannel n c).lastOutcome = s.lastOutcome := rfl
@[simp] theorem setChannel_seqCounter (s : State) (n : Channel) (c : ChannelState) : (s.setChannel n c).seqCounter = s.seqCounter := rfl
@[simp] theorem setChannel_inputs (s : State) (n : Channel) (c : ChannelState) : (s.setChannel n c).inputs = s.inputs := rfl
@[simp] theorem setChannel_counters (s : State) (n : Channel) (c : ChannelState) : (s.setChannel n c).counters = s.counters := rfl
@[simp] theorem setChannel_meas (s : State) (n : Channel) (c : ChannelState) : (s.setChannel n c).meas = s.meas := rfl
@[simp] theorem setChannel_check (s : State) (n : Channel) (c : ChannelState) : (s.setChannel n c).check = s.check := rfl
@[simp] theorem setChannel_draw (s : State) (n : Channel) (c : ChannelState) : (s.setChannel n c).draw = s.draw := rfl
@[simp] theorem setChannel_trim (s : State) (n : Channel) (c : ChannelState) : (s.setChannel n c).trim = s.trim := rfl
@[simp] theorem setChannel_pwm (s : State) (n : Channel) (c : ChannelState) : (s.setChannel n c).pwm = s.pwm := rfl
@[simp] theorem setChannel_brk (s : State) (n : Channel) (c : ChannelState) : (s.setChannel n c).brk = s.brk := rfl
@[simp] theorem setChannel_log (s : State) (n : Channel) (c : ChannelState) : (s.setChannel n c).log = s.log := rfl
@[simp] theorem setChannel_port (s : State) (n : Channel) (c : ChannelState) : (s.setChannel n c).port = s.port := rfl
@[simp] theorem setChannel_pending (s : State) (n : Channel) (c : ChannelState) : (s.setChannel n c).pending = s.pending := rfl
@[simp] theorem reselect_now (s : State) : (s.reselect).now = s.now := rfl
@[simp] theorem reselect_power (s : State) : (s.reselect).power = s.power := rfl
@[simp] theorem reselect_pins (s : State) : (s.reselect).pins = s.pins := rfl
@[simp] theorem reselect_station (s : State) : (s.reselect).station = s.station := rfl
@[simp] theorem reselect_config (s : State) : (s.reselect).config = s.config := rfl
@[simp] theorem reselect_line (s : State) : (s.reselect).line = s.line := rfl
@[simp] theorem reselect_round (s : State) : (s.reselect).round = s.round := rfl
@[simp] theorem reselect_link (s : State) : (s.reselect).link = s.link := rfl
@[simp] theorem reselect_roster (s : State) : (s.reselect).roster = s.roster := rfl
@[simp] theorem reselect_ownReport (s : State) : (s.reselect).ownReport = s.ownReport := rfl
@[simp] theorem reselect_trial (s : State) : (s.reselect).trial = s.trial := rfl
@[simp] theorem reselect_lastOutcome (s : State) : (s.reselect).lastOutcome = s.lastOutcome := rfl
@[simp] theorem reselect_seqCounter (s : State) : (s.reselect).seqCounter = s.seqCounter := rfl
@[simp] theorem reselect_inputs (s : State) : (s.reselect).inputs = s.inputs := rfl
@[simp] theorem reselect_counters (s : State) : (s.reselect).counters = s.counters := rfl
@[simp] theorem reselect_chans (s : State) : (s.reselect).chans = s.chans := rfl
@[simp] theorem reselect_meas (s : State) : (s.reselect).meas = s.meas := rfl
@[simp] theorem reselect_check (s : State) : (s.reselect).check = s.check := rfl
@[simp] theorem reselect_draw (s : State) : (s.reselect).draw = s.draw := rfl
@[simp] theorem reselect_pwm (s : State) : (s.reselect).pwm = s.pwm := rfl
@[simp] theorem reselect_brk (s : State) : (s.reselect).brk = s.brk := rfl
@[simp] theorem reselect_log (s : State) : (s.reselect).log = s.log := rfl
@[simp] theorem reselect_port (s : State) : (s.reselect).port = s.port := rfl
@[simp] theorem reselect_pending (s : State) : (s.reselect).pending = s.pending := rfl
@[simp] theorem setManual_now (s : State) (v : Int) : (s.setManual v).now = s.now := rfl
@[simp] theorem setManual_power (s : State) (v : Int) : (s.setManual v).power = s.power := rfl
@[simp] theorem setManual_pins (s : State) (v : Int) : (s.setManual v).pins = s.pins := rfl
@[simp] theorem setManual_station (s : State) (v : Int) : (s.setManual v).station = s.station := rfl
@[simp] theorem setManual_config (s : State) (v : Int) : (s.setManual v).config = s.config := rfl
@[simp] theorem setManual_line (s : State) (v : Int) : (s.setManual v).line = s.line := rfl
@[simp] theorem setManual_round (s : State) (v : Int) : (s.setManual v).round = s.round := rfl
@[simp] theorem setManual_link (s : State) (v : Int) : (s.setManual v).link = s.link := rfl
@[simp] theorem setManual_roster (s : State) (v : Int) : (s.setManual v).roster = s.roster := rfl
@[simp] theorem setManual_ownReport (s : State) (v : Int) : (s.setManual v).ownReport = s.ownReport := rfl
@[simp] theorem setManual_trial (s : State) (v : Int) : (s.setManual v).trial = s.trial := rfl
@[simp] theorem setManual_lastOutcome (s : State) (v : Int) : (s.setManual v).lastOutcome = s.lastOutcome := rfl
@[simp] theorem setManual_seqCounter (s : State) (v : Int) : (s.setManual v).seqCounter = s.seqCounter := rfl
@[simp] theorem setManual_inputs (s : State) (v : Int) : (s.setManual v).inputs = s.inputs := rfl
@[simp] theorem setManual_counters (s : State) (v : Int) : (s.setManual v).counters = s.counters := rfl
@[simp] theorem setManual_chans (s : State) (v : Int) : (s.setManual v).chans = s.chans := rfl
@[simp] theorem setManual_meas (s : State) (v : Int) : (s.setManual v).meas = s.meas := rfl
@[simp] theorem setManual_check (s : State) (v : Int) : (s.setManual v).check = s.check := rfl
@[simp] theorem setManual_draw (s : State) (v : Int) : (s.setManual v).draw = s.draw := rfl
@[simp] theorem setManual_pwm (s : State) (v : Int) : (s.setManual v).pwm = s.pwm := rfl
@[simp] theorem setManual_brk (s : State) (v : Int) : (s.setManual v).brk = s.brk := rfl
@[simp] theorem setManual_log (s : State) (v : Int) : (s.setManual v).log = s.log := rfl
@[simp] theorem setManual_port (s : State) (v : Int) : (s.setManual v).port = s.port := rfl
@[simp] theorem setManual_pending (s : State) (v : Int) : (s.setManual v).pending = s.pending := rfl
@[simp] theorem setClass_now (s : State) (c : RampClass) : (s.setClass c).now = s.now := rfl
@[simp] theorem setClass_power (s : State) (c : RampClass) : (s.setClass c).power = s.power := rfl
@[simp] theorem setClass_pins (s : State) (c : RampClass) : (s.setClass c).pins = s.pins := rfl
@[simp] theorem setClass_station (s : State) (c : RampClass) : (s.setClass c).station = s.station := rfl
@[simp] theorem setClass_config (s : State) (c : RampClass) : (s.setClass c).config = s.config := rfl
@[simp] theorem setClass_line (s : State) (c : RampClass) : (s.setClass c).line = s.line := rfl
@[simp] theorem setClass_round (s : State) (c : RampClass) : (s.setClass c).round = s.round := rfl
@[simp] theorem setClass_link (s : State) (c : RampClass) : (s.setClass c).link = s.link := rfl
@[simp] theorem setClass_roster (s : State) (c : RampClass) : (s.setClass c).roster = s.roster := rfl
@[simp] theorem setClass_ownReport (s : State) (c : RampClass) : (s.setClass c).ownReport = s.ownReport := rfl
@[simp] theorem setClass_trial (s : State) (c : RampClass) : (s.setClass c).trial = s.trial := rfl
@[simp] theorem setClass_lastOutcome (s : State) (c : RampClass) : (s.setClass c).lastOutcome = s.lastOutcome := rfl
@[simp] theorem setClass_seqCounter (s : State) (c : RampClass) : (s.setClass c).seqCounter = s.seqCounter := rfl
@[simp] theorem setClass_inputs (s : State) (c : RampClass) : (s.setClass c).inputs = s.inputs := rfl
@[simp] theorem setClass_counters (s : State) (c : RampClass) : (s.setClass c).counters = s.counters := rfl
@[simp] theorem setClass_chans (s : State) (c : RampClass) : (s.setClass c).chans = s.chans := rfl
@[simp] theorem setClass_meas (s : State) (c : RampClass) : (s.setClass c).meas = s.meas := rfl
@[simp] theorem setClass_check (s : State) (c : RampClass) : (s.setClass c).check = s.check := rfl
@[simp] theorem setClass_draw (s : State) (c : RampClass) : (s.setClass c).draw = s.draw := rfl
@[simp] theorem setClass_pwm (s : State) (c : RampClass) : (s.setClass c).pwm = s.pwm := rfl
@[simp] theorem setClass_brk (s : State) (c : RampClass) : (s.setClass c).brk = s.brk := rfl
@[simp] theorem setClass_log (s : State) (c : RampClass) : (s.setClass c).log = s.log := rfl
@[simp] theorem setClass_port (s : State) (c : RampClass) : (s.setClass c).port = s.port := rfl
@[simp] theorem setClass_pending (s : State) (c : RampClass) : (s.setClass c).pending = s.pending := rfl
@[simp] theorem present_now (s : State) (a b : Int) (d : Option Channel) (c : RampClass) : (s.present a b d c).now = s.now := rfl
@[simp] theorem present_power (s : State) (a b : Int) (d : Option Channel) (c : RampClass) : (s.present a b d c).power = s.power := rfl
@[simp] theorem present_pins (s : State) (a b : Int) (d : Option Channel) (c : RampClass) : (s.present a b d c).pins = s.pins := rfl
@[simp] theorem present_station (s : State) (a b : Int) (d : Option Channel) (c : RampClass) : (s.present a b d c).station = s.station := rfl
@[simp] theorem present_config (s : State) (a b : Int) (d : Option Channel) (c : RampClass) : (s.present a b d c).config = s.config := rfl
@[simp] theorem present_line (s : State) (a b : Int) (d : Option Channel) (c : RampClass) : (s.present a b d c).line = s.line := rfl
@[simp] theorem present_round (s : State) (a b : Int) (d : Option Channel) (c : RampClass) : (s.present a b d c).round = s.round := rfl
@[simp] theorem present_link (s : State) (a b : Int) (d : Option Channel) (c : RampClass) : (s.present a b d c).link = s.link := rfl
@[simp] theorem present_roster (s : State) (a b : Int) (d : Option Channel) (c : RampClass) : (s.present a b d c).roster = s.roster := rfl
@[simp] theorem present_ownReport (s : State) (a b : Int) (d : Option Channel) (c : RampClass) : (s.present a b d c).ownReport = s.ownReport := rfl
@[simp] theorem present_trial (s : State) (a b : Int) (d : Option Channel) (c : RampClass) : (s.present a b d c).trial = s.trial := rfl
@[simp] theorem present_lastOutcome (s : State) (a b : Int) (d : Option Channel) (c : RampClass) : (s.present a b d c).lastOutcome = s.lastOutcome := rfl
@[simp] theorem present_seqCounter (s : State) (a b : Int) (d : Option Channel) (c : RampClass) : (s.present a b d c).seqCounter = s.seqCounter := rfl
@[simp] theorem present_inputs (s : State) (a b : Int) (d : Option Channel) (c : RampClass) : (s.present a b d c).inputs = s.inputs := rfl
@[simp] theorem present_counters (s : State) (a b : Int) (d : Option Channel) (c : RampClass) : (s.present a b d c).counters = s.counters := rfl
@[simp] theorem present_chans (s : State) (a b : Int) (d : Option Channel) (c : RampClass) : (s.present a b d c).chans = s.chans := rfl
@[simp] theorem present_meas (s : State) (a b : Int) (d : Option Channel) (c : RampClass) : (s.present a b d c).meas = s.meas := rfl
@[simp] theorem present_check (s : State) (a b : Int) (d : Option Channel) (c : RampClass) : (s.present a b d c).check = s.check := rfl
@[simp] theorem present_draw (s : State) (a b : Int) (d : Option Channel) (c : RampClass) : (s.present a b d c).draw = s.draw := rfl
@[simp] theorem present_pwm (s : State) (a b : Int) (d : Option Channel) (c : RampClass) : (s.present a b d c).pwm = s.pwm := rfl
@[simp] theorem present_brk (s : State) (a b : Int) (d : Option Channel) (c : RampClass) : (s.present a b d c).brk = s.brk := rfl
@[simp] theorem present_log (s : State) (a b : Int) (d : Option Channel) (c : RampClass) : (s.present a b d c).log = s.log := rfl
@[simp] theorem present_port (s : State) (a b : Int) (d : Option Channel) (c : RampClass) : (s.present a b d c).port = s.port := rfl
@[simp] theorem present_pending (s : State) (a b : Int) (d : Option Channel) (c : RampClass) : (s.present a b d c).pending = s.pending := rfl
@[simp] theorem endCheck_now (s : State) (v : Verdict) : (s.endCheck v).now = s.now := rfl
@[simp] theorem endCheck_power (s : State) (v : Verdict) : (s.endCheck v).power = s.power := rfl
@[simp] theorem endCheck_pins (s : State) (v : Verdict) : (s.endCheck v).pins = s.pins := rfl
@[simp] theorem endCheck_station (s : State) (v : Verdict) : (s.endCheck v).station = s.station := rfl
@[simp] theorem endCheck_config (s : State) (v : Verdict) : (s.endCheck v).config = s.config := rfl
@[simp] theorem endCheck_line (s : State) (v : Verdict) : (s.endCheck v).line = s.line := rfl
@[simp] theorem endCheck_round (s : State) (v : Verdict) : (s.endCheck v).round = s.round := rfl
@[simp] theorem endCheck_link (s : State) (v : Verdict) : (s.endCheck v).link = s.link := rfl
@[simp] theorem endCheck_roster (s : State) (v : Verdict) : (s.endCheck v).roster = s.roster := rfl
@[simp] theorem endCheck_ownReport (s : State) (v : Verdict) : (s.endCheck v).ownReport = s.ownReport := rfl
@[simp] theorem endCheck_trial (s : State) (v : Verdict) : (s.endCheck v).trial = s.trial := rfl
@[simp] theorem endCheck_lastOutcome (s : State) (v : Verdict) : (s.endCheck v).lastOutcome = s.lastOutcome := rfl
@[simp] theorem endCheck_seqCounter (s : State) (v : Verdict) : (s.endCheck v).seqCounter = s.seqCounter := rfl
@[simp] theorem endCheck_inputs (s : State) (v : Verdict) : (s.endCheck v).inputs = s.inputs := rfl
@[simp] theorem endCheck_counters (s : State) (v : Verdict) : (s.endCheck v).counters = s.counters := rfl
@[simp] theorem endCheck_chans (s : State) (v : Verdict) : (s.endCheck v).chans = s.chans := rfl
@[simp] theorem endCheck_meas (s : State) (v : Verdict) : (s.endCheck v).meas = s.meas := rfl
@[simp] theorem endCheck_draw (s : State) (v : Verdict) : (s.endCheck v).draw = s.draw := rfl
@[simp] theorem endCheck_trim (s : State) (v : Verdict) : (s.endCheck v).trim = s.trim := rfl
@[simp] theorem endCheck_pwm (s : State) (v : Verdict) : (s.endCheck v).pwm = s.pwm := rfl
@[simp] theorem endCheck_brk (s : State) (v : Verdict) : (s.endCheck v).brk = s.brk := rfl
@[simp] theorem endCheck_log (s : State) (v : Verdict) : (s.endCheck v).log = s.log := rfl
@[simp] theorem endCheck_pending (s : State) (v : Verdict) : (s.endCheck v).pending = s.pending := rfl
@[simp] theorem writeOutcome_now (s : State) (o : TrialOutcome) (i : TrialId) (c : Byte) (t : Station) : (s.writeOutcome o i c t).now = s.now := rfl
@[simp] theorem writeOutcome_power (s : State) (o : TrialOutcome) (i : TrialId) (c : Byte) (t : Station) : (s.writeOutcome o i c t).power = s.power := rfl
@[simp] theorem writeOutcome_pins (s : State) (o : TrialOutcome) (i : TrialId) (c : Byte) (t : Station) : (s.writeOutcome o i c t).pins = s.pins := rfl
@[simp] theorem writeOutcome_station (s : State) (o : TrialOutcome) (i : TrialId) (c : Byte) (t : Station) : (s.writeOutcome o i c t).station = s.station := rfl
@[simp] theorem writeOutcome_config (s : State) (o : TrialOutcome) (i : TrialId) (c : Byte) (t : Station) : (s.writeOutcome o i c t).config = s.config := rfl
@[simp] theorem writeOutcome_line (s : State) (o : TrialOutcome) (i : TrialId) (c : Byte) (t : Station) : (s.writeOutcome o i c t).line = s.line := rfl
@[simp] theorem writeOutcome_round (s : State) (o : TrialOutcome) (i : TrialId) (c : Byte) (t : Station) : (s.writeOutcome o i c t).round = s.round := rfl
@[simp] theorem writeOutcome_link (s : State) (o : TrialOutcome) (i : TrialId) (c : Byte) (t : Station) : (s.writeOutcome o i c t).link = s.link := rfl
@[simp] theorem writeOutcome_roster (s : State) (o : TrialOutcome) (i : TrialId) (c : Byte) (t : Station) : (s.writeOutcome o i c t).roster = s.roster := rfl
@[simp] theorem writeOutcome_ownReport (s : State) (o : TrialOutcome) (i : TrialId) (c : Byte) (t : Station) : (s.writeOutcome o i c t).ownReport = s.ownReport := rfl
@[simp] theorem writeOutcome_trial (s : State) (o : TrialOutcome) (i : TrialId) (c : Byte) (t : Station) : (s.writeOutcome o i c t).trial = s.trial := rfl
@[simp] theorem writeOutcome_seqCounter (s : State) (o : TrialOutcome) (i : TrialId) (c : Byte) (t : Station) : (s.writeOutcome o i c t).seqCounter = s.seqCounter := rfl
@[simp] theorem writeOutcome_inputs (s : State) (o : TrialOutcome) (i : TrialId) (c : Byte) (t : Station) : (s.writeOutcome o i c t).inputs = s.inputs := rfl
@[simp] theorem writeOutcome_counters (s : State) (o : TrialOutcome) (i : TrialId) (c : Byte) (t : Station) : (s.writeOutcome o i c t).counters = s.counters := rfl
@[simp] theorem writeOutcome_chans (s : State) (o : TrialOutcome) (i : TrialId) (c : Byte) (t : Station) : (s.writeOutcome o i c t).chans = s.chans := rfl
@[simp] theorem writeOutcome_meas (s : State) (o : TrialOutcome) (i : TrialId) (c : Byte) (t : Station) : (s.writeOutcome o i c t).meas = s.meas := rfl
@[simp] theorem writeOutcome_check (s : State) (o : TrialOutcome) (i : TrialId) (c : Byte) (t : Station) : (s.writeOutcome o i c t).check = s.check := rfl
@[simp] theorem writeOutcome_draw (s : State) (o : TrialOutcome) (i : TrialId) (c : Byte) (t : Station) : (s.writeOutcome o i c t).draw = s.draw := rfl
@[simp] theorem writeOutcome_trim (s : State) (o : TrialOutcome) (i : TrialId) (c : Byte) (t : Station) : (s.writeOutcome o i c t).trim = s.trim := rfl
@[simp] theorem writeOutcome_pwm (s : State) (o : TrialOutcome) (i : TrialId) (c : Byte) (t : Station) : (s.writeOutcome o i c t).pwm = s.pwm := rfl
@[simp] theorem writeOutcome_brk (s : State) (o : TrialOutcome) (i : TrialId) (c : Byte) (t : Station) : (s.writeOutcome o i c t).brk = s.brk := rfl
@[simp] theorem writeOutcome_log (s : State) (o : TrialOutcome) (i : TrialId) (c : Byte) (t : Station) : (s.writeOutcome o i c t).log = s.log := rfl
@[simp] theorem writeOutcome_pending (s : State) (o : TrialOutcome) (i : TrialId) (c : Byte) (t : Station) : (s.writeOutcome o i c t).pending = s.pending := rfl
@[simp] theorem answer_now (s : State) (r : Response) : (s.answer r).now = s.now := rfl
@[simp] theorem answer_power (s : State) (r : Response) : (s.answer r).power = s.power := rfl
@[simp] theorem answer_pins (s : State) (r : Response) : (s.answer r).pins = s.pins := rfl
@[simp] theorem answer_station (s : State) (r : Response) : (s.answer r).station = s.station := rfl
@[simp] theorem answer_config (s : State) (r : Response) : (s.answer r).config = s.config := rfl
@[simp] theorem answer_line (s : State) (r : Response) : (s.answer r).line = s.line := rfl
@[simp] theorem answer_round (s : State) (r : Response) : (s.answer r).round = s.round := rfl
@[simp] theorem answer_link (s : State) (r : Response) : (s.answer r).link = s.link := rfl
@[simp] theorem answer_roster (s : State) (r : Response) : (s.answer r).roster = s.roster := rfl
@[simp] theorem answer_ownReport (s : State) (r : Response) : (s.answer r).ownReport = s.ownReport := rfl
@[simp] theorem answer_trial (s : State) (r : Response) : (s.answer r).trial = s.trial := rfl
@[simp] theorem answer_lastOutcome (s : State) (r : Response) : (s.answer r).lastOutcome = s.lastOutcome := rfl
@[simp] theorem answer_seqCounter (s : State) (r : Response) : (s.answer r).seqCounter = s.seqCounter := rfl
@[simp] theorem answer_inputs (s : State) (r : Response) : (s.answer r).inputs = s.inputs := rfl
@[simp] theorem answer_counters (s : State) (r : Response) : (s.answer r).counters = s.counters := rfl
@[simp] theorem answer_chans (s : State) (r : Response) : (s.answer r).chans = s.chans := rfl
@[simp] theorem answer_meas (s : State) (r : Response) : (s.answer r).meas = s.meas := rfl
@[simp] theorem answer_check (s : State) (r : Response) : (s.answer r).check = s.check := rfl
@[simp] theorem answer_draw (s : State) (r : Response) : (s.answer r).draw = s.draw := rfl
@[simp] theorem answer_trim (s : State) (r : Response) : (s.answer r).trim = s.trim := rfl
@[simp] theorem answer_pwm (s : State) (r : Response) : (s.answer r).pwm = s.pwm := rfl
@[simp] theorem answer_brk (s : State) (r : Response) : (s.answer r).brk = s.brk := rfl
@[simp] theorem answer_log (s : State) (r : Response) : (s.answer r).log = s.log := rfl
@[simp] theorem answer_pending (s : State) (r : Response) : (s.answer r).pending = s.pending := rfl
@[simp] theorem writeOwnEntry_now (s : State) (r : Report) : (s.writeOwnEntry r).now = s.now := rfl
@[simp] theorem writeOwnEntry_power (s : State) (r : Report) : (s.writeOwnEntry r).power = s.power := rfl
@[simp] theorem writeOwnEntry_pins (s : State) (r : Report) : (s.writeOwnEntry r).pins = s.pins := rfl
@[simp] theorem writeOwnEntry_station (s : State) (r : Report) : (s.writeOwnEntry r).station = s.station := rfl
@[simp] theorem writeOwnEntry_config (s : State) (r : Report) : (s.writeOwnEntry r).config = s.config := rfl
@[simp] theorem writeOwnEntry_line (s : State) (r : Report) : (s.writeOwnEntry r).line = s.line := rfl
@[simp] theorem writeOwnEntry_round (s : State) (r : Report) : (s.writeOwnEntry r).round = s.round := rfl
@[simp] theorem writeOwnEntry_link (s : State) (r : Report) : (s.writeOwnEntry r).link = s.link := rfl
@[simp] theorem writeOwnEntry_ownReport (s : State) (r : Report) : (s.writeOwnEntry r).ownReport = s.ownReport := rfl
@[simp] theorem writeOwnEntry_trial (s : State) (r : Report) : (s.writeOwnEntry r).trial = s.trial := rfl
@[simp] theorem writeOwnEntry_lastOutcome (s : State) (r : Report) : (s.writeOwnEntry r).lastOutcome = s.lastOutcome := rfl
@[simp] theorem writeOwnEntry_seqCounter (s : State) (r : Report) : (s.writeOwnEntry r).seqCounter = s.seqCounter := rfl
@[simp] theorem writeOwnEntry_inputs (s : State) (r : Report) : (s.writeOwnEntry r).inputs = s.inputs := rfl
@[simp] theorem writeOwnEntry_counters (s : State) (r : Report) : (s.writeOwnEntry r).counters = s.counters := rfl
@[simp] theorem writeOwnEntry_chans (s : State) (r : Report) : (s.writeOwnEntry r).chans = s.chans := rfl
@[simp] theorem writeOwnEntry_meas (s : State) (r : Report) : (s.writeOwnEntry r).meas = s.meas := rfl
@[simp] theorem writeOwnEntry_check (s : State) (r : Report) : (s.writeOwnEntry r).check = s.check := rfl
@[simp] theorem writeOwnEntry_draw (s : State) (r : Report) : (s.writeOwnEntry r).draw = s.draw := rfl
@[simp] theorem writeOwnEntry_trim (s : State) (r : Report) : (s.writeOwnEntry r).trim = s.trim := rfl
@[simp] theorem writeOwnEntry_pwm (s : State) (r : Report) : (s.writeOwnEntry r).pwm = s.pwm := rfl
@[simp] theorem writeOwnEntry_brk (s : State) (r : Report) : (s.writeOwnEntry r).brk = s.brk := rfl
@[simp] theorem writeOwnEntry_log (s : State) (r : Report) : (s.writeOwnEntry r).log = s.log := rfl
@[simp] theorem writeOwnEntry_port (s : State) (r : Report) : (s.writeOwnEntry r).port = s.port := rfl
@[simp] theorem writeOwnEntry_pending (s : State) (r : Report) : (s.writeOwnEntry r).pending = s.pending := rfl
@[simp] theorem handOver_now (s : State) (T : Nat) : (s.handOver T).now = s.now := rfl
@[simp] theorem handOver_power (s : State) (T : Nat) : (s.handOver T).power = s.power := rfl
@[simp] theorem handOver_pins (s : State) (T : Nat) : (s.handOver T).pins = s.pins := rfl
@[simp] theorem handOver_station (s : State) (T : Nat) : (s.handOver T).station = s.station := rfl
@[simp] theorem handOver_config (s : State) (T : Nat) : (s.handOver T).config = s.config := rfl
@[simp] theorem handOver_line (s : State) (T : Nat) : (s.handOver T).line = s.line := rfl
@[simp] theorem handOver_round (s : State) (T : Nat) : (s.handOver T).round = s.round := rfl
@[simp] theorem handOver_link (s : State) (T : Nat) : (s.handOver T).link = s.link := rfl
@[simp] theorem handOver_roster (s : State) (T : Nat) : (s.handOver T).roster = s.roster := rfl
@[simp] theorem handOver_ownReport (s : State) (T : Nat) : (s.handOver T).ownReport = s.ownReport := rfl
@[simp] theorem handOver_trial (s : State) (T : Nat) : (s.handOver T).trial = s.trial := rfl
@[simp] theorem handOver_lastOutcome (s : State) (T : Nat) : (s.handOver T).lastOutcome = s.lastOutcome := rfl
@[simp] theorem handOver_seqCounter (s : State) (T : Nat) : (s.handOver T).seqCounter = s.seqCounter := rfl
@[simp] theorem handOver_inputs (s : State) (T : Nat) : (s.handOver T).inputs = s.inputs := rfl
@[simp] theorem handOver_chans (s : State) (T : Nat) : (s.handOver T).chans = s.chans := rfl
@[simp] theorem handOver_check (s : State) (T : Nat) : (s.handOver T).check = s.check := rfl
@[simp] theorem handOver_draw (s : State) (T : Nat) : (s.handOver T).draw = s.draw := rfl
@[simp] theorem handOver_trim (s : State) (T : Nat) : (s.handOver T).trim = s.trim := rfl
@[simp] theorem handOver_pwm (s : State) (T : Nat) : (s.handOver T).pwm = s.pwm := rfl
@[simp] theorem handOver_brk (s : State) (T : Nat) : (s.handOver T).brk = s.brk := rfl
@[simp] theorem handOver_log (s : State) (T : Nat) : (s.handOver T).log = s.log := rfl
@[simp] theorem handOver_port (s : State) (T : Nat) : (s.handOver T).port = s.port := rfl
@[simp] theorem handOver_pending (s : State) (T : Nat) : (s.handOver T).pending = s.pending := rfl
@[simp] theorem setSlip_now (s : State) (n : Channel) (k : Nat) : (s.setSlip n k).now = s.now := rfl
@[simp] theorem setSlip_power (s : State) (n : Channel) (k : Nat) : (s.setSlip n k).power = s.power := rfl
@[simp] theorem setSlip_pins (s : State) (n : Channel) (k : Nat) : (s.setSlip n k).pins = s.pins := rfl
@[simp] theorem setSlip_station (s : State) (n : Channel) (k : Nat) : (s.setSlip n k).station = s.station := rfl
@[simp] theorem setSlip_config (s : State) (n : Channel) (k : Nat) : (s.setSlip n k).config = s.config := rfl
@[simp] theorem setSlip_line (s : State) (n : Channel) (k : Nat) : (s.setSlip n k).line = s.line := rfl
@[simp] theorem setSlip_round (s : State) (n : Channel) (k : Nat) : (s.setSlip n k).round = s.round := rfl
@[simp] theorem setSlip_link (s : State) (n : Channel) (k : Nat) : (s.setSlip n k).link = s.link := rfl
@[simp] theorem setSlip_roster (s : State) (n : Channel) (k : Nat) : (s.setSlip n k).roster = s.roster := rfl
@[simp] theorem setSlip_ownReport (s : State) (n : Channel) (k : Nat) : (s.setSlip n k).ownReport = s.ownReport := rfl
@[simp] theorem setSlip_trial (s : State) (n : Channel) (k : Nat) : (s.setSlip n k).trial = s.trial := rfl
@[simp] theorem setSlip_lastOutcome (s : State) (n : Channel) (k : Nat) : (s.setSlip n k).lastOutcome = s.lastOutcome := rfl
@[simp] theorem setSlip_seqCounter (s : State) (n : Channel) (k : Nat) : (s.setSlip n k).seqCounter = s.seqCounter := rfl
@[simp] theorem setSlip_inputs (s : State) (n : Channel) (k : Nat) : (s.setSlip n k).inputs = s.inputs := rfl
@[simp] theorem setSlip_counters (s : State) (n : Channel) (k : Nat) : (s.setSlip n k).counters = s.counters := rfl
@[simp] theorem setSlip_chans (s : State) (n : Channel) (k : Nat) : (s.setSlip n k).chans = s.chans := rfl
@[simp] theorem setSlip_check (s : State) (n : Channel) (k : Nat) : (s.setSlip n k).check = s.check := rfl
@[simp] theorem setSlip_draw (s : State) (n : Channel) (k : Nat) : (s.setSlip n k).draw = s.draw := rfl
@[simp] theorem setSlip_trim (s : State) (n : Channel) (k : Nat) : (s.setSlip n k).trim = s.trim := rfl
@[simp] theorem setSlip_pwm (s : State) (n : Channel) (k : Nat) : (s.setSlip n k).pwm = s.pwm := rfl
@[simp] theorem setSlip_brk (s : State) (n : Channel) (k : Nat) : (s.setSlip n k).brk = s.brk := rfl
@[simp] theorem setSlip_log (s : State) (n : Channel) (k : Nat) : (s.setSlip n k).log = s.log := rfl
@[simp] theorem setSlip_port (s : State) (n : Channel) (k : Nat) : (s.setSlip n k).port = s.port := rfl
@[simp] theorem setSlip_pending (s : State) (n : Channel) (k : Nat) : (s.setSlip n k).pending = s.pending := rfl
@[simp] theorem sectionValues_now (s : State) : (s.sectionValues).now = s.now := rfl
@[simp] theorem sectionValues_power (s : State) : (s.sectionValues).power = s.power := rfl
@[simp] theorem sectionValues_pins (s : State) : (s.sectionValues).pins = s.pins := rfl
@[simp] theorem sectionValues_station (s : State) : (s.sectionValues).station = s.station := rfl
@[simp] theorem sectionValues_config (s : State) : (s.sectionValues).config = s.config := rfl
@[simp] theorem sectionValues_line (s : State) : (s.sectionValues).line = s.line := rfl
@[simp] theorem sectionValues_round (s : State) : (s.sectionValues).round = s.round := rfl
@[simp] theorem sectionValues_link (s : State) : (s.sectionValues).link = s.link := rfl
@[simp] theorem sectionValues_roster (s : State) : (s.sectionValues).roster = s.roster := rfl
@[simp] theorem sectionValues_ownReport (s : State) : (s.sectionValues).ownReport = s.ownReport := rfl
@[simp] theorem sectionValues_trial (s : State) : (s.sectionValues).trial = s.trial := rfl
@[simp] theorem sectionValues_lastOutcome (s : State) : (s.sectionValues).lastOutcome = s.lastOutcome := rfl
@[simp] theorem sectionValues_seqCounter (s : State) : (s.sectionValues).seqCounter = s.seqCounter := rfl
@[simp] theorem sectionValues_inputs (s : State) : (s.sectionValues).inputs = s.inputs := rfl
@[simp] theorem sectionValues_counters (s : State) : (s.sectionValues).counters = s.counters := rfl
@[simp] theorem sectionValues_chans (s : State) : (s.sectionValues).chans = s.chans := rfl
@[simp] theorem sectionValues_check (s : State) : (s.sectionValues).check = s.check := rfl
@[simp] theorem sectionValues_draw (s : State) : (s.sectionValues).draw = s.draw := rfl
@[simp] theorem sectionValues_trim (s : State) : (s.sectionValues).trim = s.trim := rfl
@[simp] theorem sectionValues_pwm (s : State) : (s.sectionValues).pwm = s.pwm := rfl
@[simp] theorem sectionValues_brk (s : State) : (s.sectionValues).brk = s.brk := rfl
@[simp] theorem sectionValues_log (s : State) : (s.sectionValues).log = s.log := rfl
@[simp] theorem sectionValues_port (s : State) : (s.sectionValues).port = s.port := rfl
@[simp] theorem sectionValues_pending (s : State) : (s.sectionValues).pending = s.pending := rfl
@[simp] theorem takeSample_now (s : State) (k : BitVec 8) (l : Bool) : (s.takeSample k l).now = s.now := rfl
@[simp] theorem takeSample_power (s : State) (k : BitVec 8) (l : Bool) : (s.takeSample k l).power = s.power := rfl
@[simp] theorem takeSample_pins (s : State) (k : BitVec 8) (l : Bool) : (s.takeSample k l).pins = s.pins := rfl
@[simp] theorem takeSample_station (s : State) (k : BitVec 8) (l : Bool) : (s.takeSample k l).station = s.station := rfl
@[simp] theorem takeSample_config (s : State) (k : BitVec 8) (l : Bool) : (s.takeSample k l).config = s.config := rfl
@[simp] theorem takeSample_line (s : State) (k : BitVec 8) (l : Bool) : (s.takeSample k l).line = s.line := rfl
@[simp] theorem takeSample_round (s : State) (k : BitVec 8) (l : Bool) : (s.takeSample k l).round = s.round := rfl
@[simp] theorem takeSample_link (s : State) (k : BitVec 8) (l : Bool) : (s.takeSample k l).link = s.link := rfl
@[simp] theorem takeSample_roster (s : State) (k : BitVec 8) (l : Bool) : (s.takeSample k l).roster = s.roster := rfl
@[simp] theorem takeSample_ownReport (s : State) (k : BitVec 8) (l : Bool) : (s.takeSample k l).ownReport = s.ownReport := rfl
@[simp] theorem takeSample_trial (s : State) (k : BitVec 8) (l : Bool) : (s.takeSample k l).trial = s.trial := rfl
@[simp] theorem takeSample_lastOutcome (s : State) (k : BitVec 8) (l : Bool) : (s.takeSample k l).lastOutcome = s.lastOutcome := rfl
@[simp] theorem takeSample_seqCounter (s : State) (k : BitVec 8) (l : Bool) : (s.takeSample k l).seqCounter = s.seqCounter := rfl
@[simp] theorem takeSample_inputs (s : State) (k : BitVec 8) (l : Bool) : (s.takeSample k l).inputs = s.inputs := rfl
@[simp] theorem takeSample_counters (s : State) (k : BitVec 8) (l : Bool) : (s.takeSample k l).counters = s.counters := rfl
@[simp] theorem takeSample_chans (s : State) (k : BitVec 8) (l : Bool) : (s.takeSample k l).chans = s.chans := rfl
@[simp] theorem takeSample_meas (s : State) (k : BitVec 8) (l : Bool) : (s.takeSample k l).meas = s.meas := rfl
@[simp] theorem takeSample_check (s : State) (k : BitVec 8) (l : Bool) : (s.takeSample k l).check = s.check := rfl
@[simp] theorem takeSample_draw (s : State) (k : BitVec 8) (l : Bool) : (s.takeSample k l).draw = s.draw := rfl
@[simp] theorem takeSample_trim (s : State) (k : BitVec 8) (l : Bool) : (s.takeSample k l).trim = s.trim := rfl
@[simp] theorem takeSample_pwm (s : State) (k : BitVec 8) (l : Bool) : (s.takeSample k l).pwm = s.pwm := rfl
@[simp] theorem takeSample_brk (s : State) (k : BitVec 8) (l : Bool) : (s.takeSample k l).brk = s.brk := rfl
@[simp] theorem takeSample_port (s : State) (k : BitVec 8) (l : Bool) : (s.takeSample k l).port = s.port := rfl
@[simp] theorem takeSample_pending (s : State) (k : BitVec 8) (l : Bool) : (s.takeSample k l).pending = s.pending := rfl
@[simp] theorem rampTrims_now (s : State) : (s.rampTrims).now = s.now := rfl
@[simp] theorem rampTrims_power (s : State) : (s.rampTrims).power = s.power := rfl
@[simp] theorem rampTrims_pins (s : State) : (s.rampTrims).pins = s.pins := rfl
@[simp] theorem rampTrims_station (s : State) : (s.rampTrims).station = s.station := rfl
@[simp] theorem rampTrims_config (s : State) : (s.rampTrims).config = s.config := rfl
@[simp] theorem rampTrims_line (s : State) : (s.rampTrims).line = s.line := rfl
@[simp] theorem rampTrims_round (s : State) : (s.rampTrims).round = s.round := rfl
@[simp] theorem rampTrims_link (s : State) : (s.rampTrims).link = s.link := rfl
@[simp] theorem rampTrims_roster (s : State) : (s.rampTrims).roster = s.roster := rfl
@[simp] theorem rampTrims_ownReport (s : State) : (s.rampTrims).ownReport = s.ownReport := rfl
@[simp] theorem rampTrims_trial (s : State) : (s.rampTrims).trial = s.trial := rfl
@[simp] theorem rampTrims_lastOutcome (s : State) : (s.rampTrims).lastOutcome = s.lastOutcome := rfl
@[simp] theorem rampTrims_seqCounter (s : State) : (s.rampTrims).seqCounter = s.seqCounter := rfl
@[simp] theorem rampTrims_inputs (s : State) : (s.rampTrims).inputs = s.inputs := rfl
@[simp] theorem rampTrims_counters (s : State) : (s.rampTrims).counters = s.counters := rfl
@[simp] theorem rampTrims_chans (s : State) : (s.rampTrims).chans = s.chans := rfl
@[simp] theorem rampTrims_meas (s : State) : (s.rampTrims).meas = s.meas := rfl
@[simp] theorem rampTrims_check (s : State) : (s.rampTrims).check = s.check := rfl
@[simp] theorem rampTrims_draw (s : State) : (s.rampTrims).draw = s.draw := rfl
@[simp] theorem rampTrims_brk (s : State) : (s.rampTrims).brk = s.brk := rfl
@[simp] theorem rampTrims_log (s : State) : (s.rampTrims).log = s.log := rfl
@[simp] theorem rampTrims_port (s : State) : (s.rampTrims).port = s.port := rfl
@[simp] theorem rampTrims_pending (s : State) : (s.rampTrims).pending = s.pending := rfl
@[simp] theorem startPwmPeriod_now (s : State) : (s.startPwmPeriod).now = s.now := rfl
@[simp] theorem startPwmPeriod_power (s : State) : (s.startPwmPeriod).power = s.power := rfl
@[simp] theorem startPwmPeriod_pins (s : State) : (s.startPwmPeriod).pins = s.pins := rfl
@[simp] theorem startPwmPeriod_station (s : State) : (s.startPwmPeriod).station = s.station := rfl
@[simp] theorem startPwmPeriod_config (s : State) : (s.startPwmPeriod).config = s.config := rfl
@[simp] theorem startPwmPeriod_line (s : State) : (s.startPwmPeriod).line = s.line := rfl
@[simp] theorem startPwmPeriod_round (s : State) : (s.startPwmPeriod).round = s.round := rfl
@[simp] theorem startPwmPeriod_link (s : State) : (s.startPwmPeriod).link = s.link := rfl
@[simp] theorem startPwmPeriod_roster (s : State) : (s.startPwmPeriod).roster = s.roster := rfl
@[simp] theorem startPwmPeriod_ownReport (s : State) : (s.startPwmPeriod).ownReport = s.ownReport := rfl
@[simp] theorem startPwmPeriod_trial (s : State) : (s.startPwmPeriod).trial = s.trial := rfl
@[simp] theorem startPwmPeriod_lastOutcome (s : State) : (s.startPwmPeriod).lastOutcome = s.lastOutcome := rfl
@[simp] theorem startPwmPeriod_seqCounter (s : State) : (s.startPwmPeriod).seqCounter = s.seqCounter := rfl
@[simp] theorem startPwmPeriod_inputs (s : State) : (s.startPwmPeriod).inputs = s.inputs := rfl
@[simp] theorem startPwmPeriod_counters (s : State) : (s.startPwmPeriod).counters = s.counters := rfl
@[simp] theorem startPwmPeriod_chans (s : State) : (s.startPwmPeriod).chans = s.chans := rfl
@[simp] theorem startPwmPeriod_meas (s : State) : (s.startPwmPeriod).meas = s.meas := rfl
@[simp] theorem startPwmPeriod_check (s : State) : (s.startPwmPeriod).check = s.check := rfl
@[simp] theorem startPwmPeriod_draw (s : State) : (s.startPwmPeriod).draw = s.draw := rfl
@[simp] theorem startPwmPeriod_trim (s : State) : (s.startPwmPeriod).trim = s.trim := rfl
@[simp] theorem startPwmPeriod_brk (s : State) : (s.startPwmPeriod).brk = s.brk := rfl
@[simp] theorem startPwmPeriod_log (s : State) : (s.startPwmPeriod).log = s.log := rfl
@[simp] theorem startPwmPeriod_port (s : State) : (s.startPwmPeriod).port = s.port := rfl
@[simp] theorem startPwmPeriod_pending (s : State) : (s.startPwmPeriod).pending = s.pending := rfl
@[simp] theorem enterRecovering_now (s : State) (k : Nat) (c : Byte) (o : Station) : (s.enterRecovering k c o).now = s.now := rfl
@[simp] theorem enterRecovering_power (s : State) (k : Nat) (c : Byte) (o : Station) : (s.enterRecovering k c o).power = s.power := rfl
@[simp] theorem enterRecovering_pins (s : State) (k : Nat) (c : Byte) (o : Station) : (s.enterRecovering k c o).pins = s.pins := rfl
@[simp] theorem enterRecovering_station (s : State) (k : Nat) (c : Byte) (o : Station) : (s.enterRecovering k c o).station = s.station := rfl
@[simp] theorem enterRecovering_config (s : State) (k : Nat) (c : Byte) (o : Station) : (s.enterRecovering k c o).config = s.config := rfl
@[simp] theorem enterRecovering_line (s : State) (k : Nat) (c : Byte) (o : Station) : (s.enterRecovering k c o).line = s.line := rfl
@[simp] theorem enterRecovering_round (s : State) (k : Nat) (c : Byte) (o : Station) : (s.enterRecovering k c o).round = s.round := rfl
@[simp] theorem enterRecovering_link (s : State) (k : Nat) (c : Byte) (o : Station) : (s.enterRecovering k c o).link = s.link := rfl
@[simp] theorem enterRecovering_roster (s : State) (k : Nat) (c : Byte) (o : Station) : (s.enterRecovering k c o).roster = s.roster := rfl
@[simp] theorem enterRecovering_ownReport (s : State) (k : Nat) (c : Byte) (o : Station) : (s.enterRecovering k c o).ownReport = s.ownReport := rfl
@[simp] theorem enterRecovering_lastOutcome (s : State) (k : Nat) (c : Byte) (o : Station) : (s.enterRecovering k c o).lastOutcome = s.lastOutcome := rfl
@[simp] theorem enterRecovering_seqCounter (s : State) (k : Nat) (c : Byte) (o : Station) : (s.enterRecovering k c o).seqCounter = s.seqCounter := rfl
@[simp] theorem enterRecovering_inputs (s : State) (k : Nat) (c : Byte) (o : Station) : (s.enterRecovering k c o).inputs = s.inputs := rfl
@[simp] theorem enterRecovering_counters (s : State) (k : Nat) (c : Byte) (o : Station) : (s.enterRecovering k c o).counters = s.counters := rfl
@[simp] theorem enterRecovering_chans (s : State) (k : Nat) (c : Byte) (o : Station) : (s.enterRecovering k c o).chans = s.chans := rfl
@[simp] theorem enterRecovering_meas (s : State) (k : Nat) (c : Byte) (o : Station) : (s.enterRecovering k c o).meas = s.meas := rfl
@[simp] theorem enterRecovering_check (s : State) (k : Nat) (c : Byte) (o : Station) : (s.enterRecovering k c o).check = s.check := rfl
@[simp] theorem enterRecovering_draw (s : State) (k : Nat) (c : Byte) (o : Station) : (s.enterRecovering k c o).draw = s.draw := rfl
@[simp] theorem enterRecovering_pwm (s : State) (k : Nat) (c : Byte) (o : Station) : (s.enterRecovering k c o).pwm = s.pwm := rfl
@[simp] theorem enterRecovering_brk (s : State) (k : Nat) (c : Byte) (o : Station) : (s.enterRecovering k c o).brk = s.brk := rfl
@[simp] theorem enterRecovering_log (s : State) (k : Nat) (c : Byte) (o : Station) : (s.enterRecovering k c o).log = s.log := rfl
@[simp] theorem enterRecovering_port (s : State) (k : Nat) (c : Byte) (o : Station) : (s.enterRecovering k c o).port = s.port := rfl
@[simp] theorem enterRecovering_pending (s : State) (k : Nat) (c : Byte) (o : Station) : (s.enterRecovering k c o).pending = s.pending := rfl
@[simp] theorem withdraw_now (s : State) (c : Byte) (t : Station) : (s.withdraw c t).now = s.now := rfl
@[simp] theorem withdraw_power (s : State) (c : Byte) (t : Station) : (s.withdraw c t).power = s.power := rfl
@[simp] theorem withdraw_pins (s : State) (c : Byte) (t : Station) : (s.withdraw c t).pins = s.pins := rfl
@[simp] theorem withdraw_station (s : State) (c : Byte) (t : Station) : (s.withdraw c t).station = s.station := rfl
@[simp] theorem withdraw_config (s : State) (c : Byte) (t : Station) : (s.withdraw c t).config = s.config := rfl
@[simp] theorem withdraw_line (s : State) (c : Byte) (t : Station) : (s.withdraw c t).line = s.line := rfl
@[simp] theorem withdraw_round (s : State) (c : Byte) (t : Station) : (s.withdraw c t).round = s.round := rfl
@[simp] theorem withdraw_link (s : State) (c : Byte) (t : Station) : (s.withdraw c t).link = s.link := rfl
@[simp] theorem withdraw_roster (s : State) (c : Byte) (t : Station) : (s.withdraw c t).roster = s.roster := rfl
@[simp] theorem withdraw_ownReport (s : State) (c : Byte) (t : Station) : (s.withdraw c t).ownReport = s.ownReport := rfl
@[simp] theorem withdraw_seqCounter (s : State) (c : Byte) (t : Station) : (s.withdraw c t).seqCounter = s.seqCounter := rfl
@[simp] theorem withdraw_inputs (s : State) (c : Byte) (t : Station) : (s.withdraw c t).inputs = s.inputs := rfl
@[simp] theorem withdraw_counters (s : State) (c : Byte) (t : Station) : (s.withdraw c t).counters = s.counters := rfl
@[simp] theorem withdraw_chans (s : State) (c : Byte) (t : Station) : (s.withdraw c t).chans = s.chans := rfl
@[simp] theorem withdraw_meas (s : State) (c : Byte) (t : Station) : (s.withdraw c t).meas = s.meas := rfl
@[simp] theorem withdraw_check (s : State) (c : Byte) (t : Station) : (s.withdraw c t).check = s.check := rfl
@[simp] theorem withdraw_draw (s : State) (c : Byte) (t : Station) : (s.withdraw c t).draw = s.draw := rfl
@[simp] theorem withdraw_pwm (s : State) (c : Byte) (t : Station) : (s.withdraw c t).pwm = s.pwm := rfl
@[simp] theorem withdraw_brk (s : State) (c : Byte) (t : Station) : (s.withdraw c t).brk = s.brk := rfl
@[simp] theorem withdraw_log (s : State) (c : Byte) (t : Station) : (s.withdraw c t).log = s.log := rfl
@[simp] theorem withdraw_pending (s : State) (c : Byte) (t : Station) : (s.withdraw c t).pending = s.pending := rfl
@[simp] theorem dropClaim_now (s : State) (c : Reason) : (s.dropClaim c).now = s.now := rfl
@[simp] theorem dropClaim_power (s : State) (c : Reason) : (s.dropClaim c).power = s.power := rfl
@[simp] theorem dropClaim_pins (s : State) (c : Reason) : (s.dropClaim c).pins = s.pins := rfl
@[simp] theorem dropClaim_station (s : State) (c : Reason) : (s.dropClaim c).station = s.station := rfl
@[simp] theorem dropClaim_config (s : State) (c : Reason) : (s.dropClaim c).config = s.config := rfl
@[simp] theorem dropClaim_line (s : State) (c : Reason) : (s.dropClaim c).line = s.line := rfl
@[simp] theorem dropClaim_round (s : State) (c : Reason) : (s.dropClaim c).round = s.round := rfl
@[simp] theorem dropClaim_link (s : State) (c : Reason) : (s.dropClaim c).link = s.link := rfl
@[simp] theorem dropClaim_roster (s : State) (c : Reason) : (s.dropClaim c).roster = s.roster := rfl
@[simp] theorem dropClaim_ownReport (s : State) (c : Reason) : (s.dropClaim c).ownReport = s.ownReport := rfl
@[simp] theorem dropClaim_seqCounter (s : State) (c : Reason) : (s.dropClaim c).seqCounter = s.seqCounter := rfl
@[simp] theorem dropClaim_inputs (s : State) (c : Reason) : (s.dropClaim c).inputs = s.inputs := rfl
@[simp] theorem dropClaim_counters (s : State) (c : Reason) : (s.dropClaim c).counters = s.counters := rfl
@[simp] theorem dropClaim_chans (s : State) (c : Reason) : (s.dropClaim c).chans = s.chans := rfl
@[simp] theorem dropClaim_meas (s : State) (c : Reason) : (s.dropClaim c).meas = s.meas := rfl
@[simp] theorem dropClaim_check (s : State) (c : Reason) : (s.dropClaim c).check = s.check := rfl
@[simp] theorem dropClaim_draw (s : State) (c : Reason) : (s.dropClaim c).draw = s.draw := rfl
@[simp] theorem dropClaim_trim (s : State) (c : Reason) : (s.dropClaim c).trim = s.trim := rfl
@[simp] theorem dropClaim_pwm (s : State) (c : Reason) : (s.dropClaim c).pwm = s.pwm := rfl
@[simp] theorem dropClaim_brk (s : State) (c : Reason) : (s.dropClaim c).brk = s.brk := rfl
@[simp] theorem dropClaim_log (s : State) (c : Reason) : (s.dropClaim c).log = s.log := rfl
@[simp] theorem dropClaim_pending (s : State) (c : Reason) : (s.dropClaim c).pending = s.pending := rfl
@[simp] theorem adopt_now (s : State) (c : TrialId × TrialParams) : (s.adopt c).now = s.now := rfl
@[simp] theorem adopt_power (s : State) (c : TrialId × TrialParams) : (s.adopt c).power = s.power := rfl
@[simp] theorem adopt_pins (s : State) (c : TrialId × TrialParams) : (s.adopt c).pins = s.pins := rfl
@[simp] theorem adopt_station (s : State) (c : TrialId × TrialParams) : (s.adopt c).station = s.station := rfl
@[simp] theorem adopt_config (s : State) (c : TrialId × TrialParams) : (s.adopt c).config = s.config := rfl
@[simp] theorem adopt_line (s : State) (c : TrialId × TrialParams) : (s.adopt c).line = s.line := rfl
@[simp] theorem adopt_round (s : State) (c : TrialId × TrialParams) : (s.adopt c).round = s.round := rfl
@[simp] theorem adopt_link (s : State) (c : TrialId × TrialParams) : (s.adopt c).link = s.link := rfl
@[simp] theorem adopt_roster (s : State) (c : TrialId × TrialParams) : (s.adopt c).roster = s.roster := rfl
@[simp] theorem adopt_ownReport (s : State) (c : TrialId × TrialParams) : (s.adopt c).ownReport = s.ownReport := rfl
@[simp] theorem adopt_lastOutcome (s : State) (c : TrialId × TrialParams) : (s.adopt c).lastOutcome = s.lastOutcome := rfl
@[simp] theorem adopt_seqCounter (s : State) (c : TrialId × TrialParams) : (s.adopt c).seqCounter = s.seqCounter := rfl
@[simp] theorem adopt_inputs (s : State) (c : TrialId × TrialParams) : (s.adopt c).inputs = s.inputs := rfl
@[simp] theorem adopt_counters (s : State) (c : TrialId × TrialParams) : (s.adopt c).counters = s.counters := rfl
@[simp] theorem adopt_chans (s : State) (c : TrialId × TrialParams) : (s.adopt c).chans = s.chans := rfl
@[simp] theorem adopt_meas (s : State) (c : TrialId × TrialParams) : (s.adopt c).meas = s.meas := rfl
@[simp] theorem adopt_check (s : State) (c : TrialId × TrialParams) : (s.adopt c).check = s.check := rfl
@[simp] theorem adopt_draw (s : State) (c : TrialId × TrialParams) : (s.adopt c).draw = s.draw := rfl
@[simp] theorem adopt_trim (s : State) (c : TrialId × TrialParams) : (s.adopt c).trim = s.trim := rfl
@[simp] theorem adopt_pwm (s : State) (c : TrialId × TrialParams) : (s.adopt c).pwm = s.pwm := rfl
@[simp] theorem adopt_brk (s : State) (c : TrialId × TrialParams) : (s.adopt c).brk = s.brk := rfl
@[simp] theorem adopt_log (s : State) (c : TrialId × TrialParams) : (s.adopt c).log = s.log := rfl
@[simp] theorem adopt_pending (s : State) (c : TrialId × TrialParams) : (s.adopt c).pending = s.pending := rfl
@[simp] theorem beginProposal_now (s : State) (i : TrialId) (p : TrialParams) : (s.beginProposal i p).now = s.now := rfl
@[simp] theorem beginProposal_power (s : State) (i : TrialId) (p : TrialParams) : (s.beginProposal i p).power = s.power := rfl
@[simp] theorem beginProposal_pins (s : State) (i : TrialId) (p : TrialParams) : (s.beginProposal i p).pins = s.pins := rfl
@[simp] theorem beginProposal_station (s : State) (i : TrialId) (p : TrialParams) : (s.beginProposal i p).station = s.station := rfl
@[simp] theorem beginProposal_config (s : State) (i : TrialId) (p : TrialParams) : (s.beginProposal i p).config = s.config := rfl
@[simp] theorem beginProposal_line (s : State) (i : TrialId) (p : TrialParams) : (s.beginProposal i p).line = s.line := rfl
@[simp] theorem beginProposal_round (s : State) (i : TrialId) (p : TrialParams) : (s.beginProposal i p).round = s.round := rfl
@[simp] theorem beginProposal_link (s : State) (i : TrialId) (p : TrialParams) : (s.beginProposal i p).link = s.link := rfl
@[simp] theorem beginProposal_roster (s : State) (i : TrialId) (p : TrialParams) : (s.beginProposal i p).roster = s.roster := rfl
@[simp] theorem beginProposal_ownReport (s : State) (i : TrialId) (p : TrialParams) : (s.beginProposal i p).ownReport = s.ownReport := rfl
@[simp] theorem beginProposal_lastOutcome (s : State) (i : TrialId) (p : TrialParams) : (s.beginProposal i p).lastOutcome = s.lastOutcome := rfl
@[simp] theorem beginProposal_seqCounter (s : State) (i : TrialId) (p : TrialParams) : (s.beginProposal i p).seqCounter = s.seqCounter := rfl
@[simp] theorem beginProposal_inputs (s : State) (i : TrialId) (p : TrialParams) : (s.beginProposal i p).inputs = s.inputs := rfl
@[simp] theorem beginProposal_counters (s : State) (i : TrialId) (p : TrialParams) : (s.beginProposal i p).counters = s.counters := rfl
@[simp] theorem beginProposal_chans (s : State) (i : TrialId) (p : TrialParams) : (s.beginProposal i p).chans = s.chans := rfl
@[simp] theorem beginProposal_meas (s : State) (i : TrialId) (p : TrialParams) : (s.beginProposal i p).meas = s.meas := rfl
@[simp] theorem beginProposal_check (s : State) (i : TrialId) (p : TrialParams) : (s.beginProposal i p).check = s.check := rfl
@[simp] theorem beginProposal_draw (s : State) (i : TrialId) (p : TrialParams) : (s.beginProposal i p).draw = s.draw := rfl
@[simp] theorem beginProposal_trim (s : State) (i : TrialId) (p : TrialParams) : (s.beginProposal i p).trim = s.trim := rfl
@[simp] theorem beginProposal_pwm (s : State) (i : TrialId) (p : TrialParams) : (s.beginProposal i p).pwm = s.pwm := rfl
@[simp] theorem beginProposal_brk (s : State) (i : TrialId) (p : TrialParams) : (s.beginProposal i p).brk = s.brk := rfl
@[simp] theorem beginProposal_log (s : State) (i : TrialId) (p : TrialParams) : (s.beginProposal i p).log = s.log := rfl
@[simp] theorem beginProposal_port (s : State) (i : TrialId) (p : TrialParams) : (s.beginProposal i p).port = s.port := rfl
@[simp] theorem beginProposal_pending (s : State) (i : TrialId) (p : TrialParams) : (s.beginProposal i p).pending = s.pending := rfl
@[simp] theorem setGo_now (s : State) : (s.setGo).now = s.now := rfl
@[simp] theorem setGo_power (s : State) : (s.setGo).power = s.power := rfl
@[simp] theorem setGo_pins (s : State) : (s.setGo).pins = s.pins := rfl
@[simp] theorem setGo_station (s : State) : (s.setGo).station = s.station := rfl
@[simp] theorem setGo_config (s : State) : (s.setGo).config = s.config := rfl
@[simp] theorem setGo_line (s : State) : (s.setGo).line = s.line := rfl
@[simp] theorem setGo_round (s : State) : (s.setGo).round = s.round := rfl
@[simp] theorem setGo_link (s : State) : (s.setGo).link = s.link := rfl
@[simp] theorem setGo_roster (s : State) : (s.setGo).roster = s.roster := rfl
@[simp] theorem setGo_ownReport (s : State) : (s.setGo).ownReport = s.ownReport := rfl
@[simp] theorem setGo_lastOutcome (s : State) : (s.setGo).lastOutcome = s.lastOutcome := rfl
@[simp] theorem setGo_seqCounter (s : State) : (s.setGo).seqCounter = s.seqCounter := rfl
@[simp] theorem setGo_inputs (s : State) : (s.setGo).inputs = s.inputs := rfl
@[simp] theorem setGo_counters (s : State) : (s.setGo).counters = s.counters := rfl
@[simp] theorem setGo_chans (s : State) : (s.setGo).chans = s.chans := rfl
@[simp] theorem setGo_meas (s : State) : (s.setGo).meas = s.meas := rfl
@[simp] theorem setGo_check (s : State) : (s.setGo).check = s.check := rfl
@[simp] theorem setGo_draw (s : State) : (s.setGo).draw = s.draw := rfl
@[simp] theorem setGo_trim (s : State) : (s.setGo).trim = s.trim := rfl
@[simp] theorem setGo_pwm (s : State) : (s.setGo).pwm = s.pwm := rfl
@[simp] theorem setGo_brk (s : State) : (s.setGo).brk = s.brk := rfl
@[simp] theorem setGo_log (s : State) : (s.setGo).log = s.log := rfl
@[simp] theorem setGo_port (s : State) : (s.setGo).port = s.port := rfl
@[simp] theorem setGo_pending (s : State) : (s.setGo).pending = s.pending := rfl
@[simp] theorem refreshReady_now (s : State) : (s.refreshReady).now = s.now := rfl
@[simp] theorem refreshReady_power (s : State) : (s.refreshReady).power = s.power := rfl
@[simp] theorem refreshReady_pins (s : State) : (s.refreshReady).pins = s.pins := rfl
@[simp] theorem refreshReady_station (s : State) : (s.refreshReady).station = s.station := rfl
@[simp] theorem refreshReady_config (s : State) : (s.refreshReady).config = s.config := rfl
@[simp] theorem refreshReady_line (s : State) : (s.refreshReady).line = s.line := rfl
@[simp] theorem refreshReady_round (s : State) : (s.refreshReady).round = s.round := rfl
@[simp] theorem refreshReady_link (s : State) : (s.refreshReady).link = s.link := rfl
@[simp] theorem refreshReady_roster (s : State) : (s.refreshReady).roster = s.roster := rfl
@[simp] theorem refreshReady_ownReport (s : State) : (s.refreshReady).ownReport = s.ownReport := rfl
@[simp] theorem refreshReady_lastOutcome (s : State) : (s.refreshReady).lastOutcome = s.lastOutcome := rfl
@[simp] theorem refreshReady_seqCounter (s : State) : (s.refreshReady).seqCounter = s.seqCounter := rfl
@[simp] theorem refreshReady_inputs (s : State) : (s.refreshReady).inputs = s.inputs := rfl
@[simp] theorem refreshReady_counters (s : State) : (s.refreshReady).counters = s.counters := rfl
@[simp] theorem refreshReady_chans (s : State) : (s.refreshReady).chans = s.chans := rfl
@[simp] theorem refreshReady_meas (s : State) : (s.refreshReady).meas = s.meas := rfl
@[simp] theorem refreshReady_check (s : State) : (s.refreshReady).check = s.check := rfl
@[simp] theorem refreshReady_draw (s : State) : (s.refreshReady).draw = s.draw := rfl
@[simp] theorem refreshReady_trim (s : State) : (s.refreshReady).trim = s.trim := rfl
@[simp] theorem refreshReady_pwm (s : State) : (s.refreshReady).pwm = s.pwm := rfl
@[simp] theorem refreshReady_brk (s : State) : (s.refreshReady).brk = s.brk := rfl
@[simp] theorem refreshReady_log (s : State) : (s.refreshReady).log = s.log := rfl
@[simp] theorem refreshReady_port (s : State) : (s.refreshReady).port = s.port := rfl
@[simp] theorem refreshReady_pending (s : State) : (s.refreshReady).pending = s.pending := rfl
@[simp] theorem requestAbort_now (s : State) : (s.requestAbort).now = s.now := rfl
@[simp] theorem requestAbort_power (s : State) : (s.requestAbort).power = s.power := rfl
@[simp] theorem requestAbort_pins (s : State) : (s.requestAbort).pins = s.pins := rfl
@[simp] theorem requestAbort_station (s : State) : (s.requestAbort).station = s.station := rfl
@[simp] theorem requestAbort_config (s : State) : (s.requestAbort).config = s.config := rfl
@[simp] theorem requestAbort_line (s : State) : (s.requestAbort).line = s.line := rfl
@[simp] theorem requestAbort_round (s : State) : (s.requestAbort).round = s.round := rfl
@[simp] theorem requestAbort_link (s : State) : (s.requestAbort).link = s.link := rfl
@[simp] theorem requestAbort_roster (s : State) : (s.requestAbort).roster = s.roster := rfl
@[simp] theorem requestAbort_ownReport (s : State) : (s.requestAbort).ownReport = s.ownReport := rfl
@[simp] theorem requestAbort_lastOutcome (s : State) : (s.requestAbort).lastOutcome = s.lastOutcome := rfl
@[simp] theorem requestAbort_seqCounter (s : State) : (s.requestAbort).seqCounter = s.seqCounter := rfl
@[simp] theorem requestAbort_inputs (s : State) : (s.requestAbort).inputs = s.inputs := rfl
@[simp] theorem requestAbort_counters (s : State) : (s.requestAbort).counters = s.counters := rfl
@[simp] theorem requestAbort_chans (s : State) : (s.requestAbort).chans = s.chans := rfl
@[simp] theorem requestAbort_meas (s : State) : (s.requestAbort).meas = s.meas := rfl
@[simp] theorem requestAbort_check (s : State) : (s.requestAbort).check = s.check := rfl
@[simp] theorem requestAbort_draw (s : State) : (s.requestAbort).draw = s.draw := rfl
@[simp] theorem requestAbort_trim (s : State) : (s.requestAbort).trim = s.trim := rfl
@[simp] theorem requestAbort_pwm (s : State) : (s.requestAbort).pwm = s.pwm := rfl
@[simp] theorem requestAbort_brk (s : State) : (s.requestAbort).brk = s.brk := rfl
@[simp] theorem requestAbort_log (s : State) : (s.requestAbort).log = s.log := rfl
@[simp] theorem requestAbort_port (s : State) : (s.requestAbort).port = s.port := rfl
@[simp] theorem requestAbort_pending (s : State) : (s.requestAbort).pending = s.pending := rfl
@[simp] theorem buildReport_now (s : State) : (s.buildReport).now = s.now := rfl
@[simp] theorem buildReport_power (s : State) : (s.buildReport).power = s.power := rfl
@[simp] theorem buildReport_pins (s : State) : (s.buildReport).pins = s.pins := rfl
@[simp] theorem buildReport_station (s : State) : (s.buildReport).station = s.station := rfl
@[simp] theorem buildReport_config (s : State) : (s.buildReport).config = s.config := rfl
@[simp] theorem buildReport_line (s : State) : (s.buildReport).line = s.line := rfl
@[simp] theorem buildReport_round (s : State) : (s.buildReport).round = s.round := rfl
@[simp] theorem buildReport_link (s : State) : (s.buildReport).link = s.link := rfl
@[simp] theorem buildReport_roster (s : State) : (s.buildReport).roster = s.roster := rfl
@[simp] theorem buildReport_trial (s : State) : (s.buildReport).trial = s.trial := rfl
@[simp] theorem buildReport_lastOutcome (s : State) : (s.buildReport).lastOutcome = s.lastOutcome := rfl
@[simp] theorem buildReport_seqCounter (s : State) : (s.buildReport).seqCounter = s.seqCounter := rfl
@[simp] theorem buildReport_inputs (s : State) : (s.buildReport).inputs = s.inputs := rfl
@[simp] theorem buildReport_counters (s : State) : (s.buildReport).counters = s.counters := rfl
@[simp] theorem buildReport_chans (s : State) : (s.buildReport).chans = s.chans := rfl
@[simp] theorem buildReport_meas (s : State) : (s.buildReport).meas = s.meas := rfl
@[simp] theorem buildReport_check (s : State) : (s.buildReport).check = s.check := rfl
@[simp] theorem buildReport_draw (s : State) : (s.buildReport).draw = s.draw := rfl
@[simp] theorem buildReport_trim (s : State) : (s.buildReport).trim = s.trim := rfl
@[simp] theorem buildReport_pwm (s : State) : (s.buildReport).pwm = s.pwm := rfl
@[simp] theorem buildReport_brk (s : State) : (s.buildReport).brk = s.brk := rfl
@[simp] theorem buildReport_log (s : State) : (s.buildReport).log = s.log := rfl
@[simp] theorem buildReport_port (s : State) : (s.buildReport).port = s.port := rfl
@[simp] theorem buildReport_pending (s : State) : (s.buildReport).pending = s.pending := rfl
@[simp] theorem openRound_now (s : State) (g : RoundFrame) (k : BoundaryKind) (n : BitVec 8) : (s.openRound g k n).now = s.now := rfl
@[simp] theorem openRound_power (s : State) (g : RoundFrame) (k : BoundaryKind) (n : BitVec 8) : (s.openRound g k n).power = s.power := rfl
@[simp] theorem openRound_pins (s : State) (g : RoundFrame) (k : BoundaryKind) (n : BitVec 8) : (s.openRound g k n).pins = s.pins := rfl
@[simp] theorem openRound_station (s : State) (g : RoundFrame) (k : BoundaryKind) (n : BitVec 8) : (s.openRound g k n).station = s.station := rfl
@[simp] theorem openRound_config (s : State) (g : RoundFrame) (k : BoundaryKind) (n : BitVec 8) : (s.openRound g k n).config = s.config := rfl
@[simp] theorem openRound_link (s : State) (g : RoundFrame) (k : BoundaryKind) (n : BitVec 8) : (s.openRound g k n).link = s.link := rfl
@[simp] theorem openRound_roster (s : State) (g : RoundFrame) (k : BoundaryKind) (n : BitVec 8) : (s.openRound g k n).roster = s.roster := rfl
@[simp] theorem openRound_ownReport (s : State) (g : RoundFrame) (k : BoundaryKind) (n : BitVec 8) : (s.openRound g k n).ownReport = s.ownReport := rfl
@[simp] theorem openRound_trial (s : State) (g : RoundFrame) (k : BoundaryKind) (n : BitVec 8) : (s.openRound g k n).trial = s.trial := rfl
@[simp] theorem openRound_lastOutcome (s : State) (g : RoundFrame) (k : BoundaryKind) (n : BitVec 8) : (s.openRound g k n).lastOutcome = s.lastOutcome := rfl
@[simp] theorem openRound_seqCounter (s : State) (g : RoundFrame) (k : BoundaryKind) (n : BitVec 8) : (s.openRound g k n).seqCounter = s.seqCounter := rfl
@[simp] theorem openRound_inputs (s : State) (g : RoundFrame) (k : BoundaryKind) (n : BitVec 8) : (s.openRound g k n).inputs = s.inputs := rfl
@[simp] theorem openRound_counters (s : State) (g : RoundFrame) (k : BoundaryKind) (n : BitVec 8) : (s.openRound g k n).counters = s.counters := rfl
@[simp] theorem openRound_chans (s : State) (g : RoundFrame) (k : BoundaryKind) (n : BitVec 8) : (s.openRound g k n).chans = s.chans := rfl
@[simp] theorem openRound_meas (s : State) (g : RoundFrame) (k : BoundaryKind) (n : BitVec 8) : (s.openRound g k n).meas = s.meas := rfl
@[simp] theorem openRound_check (s : State) (g : RoundFrame) (k : BoundaryKind) (n : BitVec 8) : (s.openRound g k n).check = s.check := rfl
@[simp] theorem openRound_draw (s : State) (g : RoundFrame) (k : BoundaryKind) (n : BitVec 8) : (s.openRound g k n).draw = s.draw := rfl
@[simp] theorem openRound_trim (s : State) (g : RoundFrame) (k : BoundaryKind) (n : BitVec 8) : (s.openRound g k n).trim = s.trim := rfl
@[simp] theorem openRound_pwm (s : State) (g : RoundFrame) (k : BoundaryKind) (n : BitVec 8) : (s.openRound g k n).pwm = s.pwm := rfl
@[simp] theorem openRound_brk (s : State) (g : RoundFrame) (k : BoundaryKind) (n : BitVec 8) : (s.openRound g k n).brk = s.brk := rfl
@[simp] theorem openRound_log (s : State) (g : RoundFrame) (k : BoundaryKind) (n : BitVec 8) : (s.openRound g k n).log = s.log := rfl
@[simp] theorem openRound_port (s : State) (g : RoundFrame) (k : BoundaryKind) (n : BitVec 8) : (s.openRound g k n).port = s.port := rfl
@[simp] theorem openRound_pending (s : State) (g : RoundFrame) (k : BoundaryKind) (n : BitVec 8) : (s.openRound g k n).pending = s.pending := rfl
@[simp] theorem clearBreakMark_now (s : State) : (s.clearBreakMark).now = s.now := rfl
@[simp] theorem clearBreakMark_power (s : State) : (s.clearBreakMark).power = s.power := rfl
@[simp] theorem clearBreakMark_pins (s : State) : (s.clearBreakMark).pins = s.pins := rfl
@[simp] theorem clearBreakMark_station (s : State) : (s.clearBreakMark).station = s.station := rfl
@[simp] theorem clearBreakMark_config (s : State) : (s.clearBreakMark).config = s.config := rfl
@[simp] theorem clearBreakMark_line (s : State) : (s.clearBreakMark).line = s.line := rfl
@[simp] theorem clearBreakMark_round (s : State) : (s.clearBreakMark).round = s.round := rfl
@[simp] theorem clearBreakMark_link (s : State) : (s.clearBreakMark).link = s.link := rfl
@[simp] theorem clearBreakMark_roster (s : State) : (s.clearBreakMark).roster = s.roster := rfl
@[simp] theorem clearBreakMark_ownReport (s : State) : (s.clearBreakMark).ownReport = s.ownReport := rfl
@[simp] theorem clearBreakMark_trial (s : State) : (s.clearBreakMark).trial = s.trial := rfl
@[simp] theorem clearBreakMark_lastOutcome (s : State) : (s.clearBreakMark).lastOutcome = s.lastOutcome := rfl
@[simp] theorem clearBreakMark_seqCounter (s : State) : (s.clearBreakMark).seqCounter = s.seqCounter := rfl
@[simp] theorem clearBreakMark_inputs (s : State) : (s.clearBreakMark).inputs = s.inputs := rfl
@[simp] theorem clearBreakMark_counters (s : State) : (s.clearBreakMark).counters = s.counters := rfl
@[simp] theorem clearBreakMark_chans (s : State) : (s.clearBreakMark).chans = s.chans := rfl
@[simp] theorem clearBreakMark_meas (s : State) : (s.clearBreakMark).meas = s.meas := rfl
@[simp] theorem clearBreakMark_check (s : State) : (s.clearBreakMark).check = s.check := rfl
@[simp] theorem clearBreakMark_draw (s : State) : (s.clearBreakMark).draw = s.draw := rfl
@[simp] theorem clearBreakMark_pwm (s : State) : (s.clearBreakMark).pwm = s.pwm := rfl
@[simp] theorem clearBreakMark_log (s : State) : (s.clearBreakMark).log = s.log := rfl
@[simp] theorem clearBreakMark_port (s : State) : (s.clearBreakMark).port = s.port := rfl
@[simp] theorem clearBreakMark_pending (s : State) : (s.clearBreakMark).pending = s.pending := rfl
@[simp] theorem noteStart_now (s : State) (e : Nat) : (s.noteStart e).now = s.now := by unfold State.noteStart; split <;> rfl
@[simp] theorem noteStart_power (s : State) (e : Nat) : (s.noteStart e).power = s.power := by unfold State.noteStart; split <;> rfl
@[simp] theorem noteStart_pins (s : State) (e : Nat) : (s.noteStart e).pins = s.pins := by unfold State.noteStart; split <;> rfl
@[simp] theorem noteStart_station (s : State) (e : Nat) : (s.noteStart e).station = s.station := by unfold State.noteStart; split <;> rfl
@[simp] theorem noteStart_config (s : State) (e : Nat) : (s.noteStart e).config = s.config := by unfold State.noteStart; split <;> rfl
@[simp] theorem noteStart_line (s : State) (e : Nat) : (s.noteStart e).line = s.line := by unfold State.noteStart; split <;> rfl
@[simp] theorem noteStart_link (s : State) (e : Nat) : (s.noteStart e).link = s.link := by unfold State.noteStart; split <;> rfl
@[simp] theorem noteStart_roster (s : State) (e : Nat) : (s.noteStart e).roster = s.roster := by unfold State.noteStart; split <;> rfl
@[simp] theorem noteStart_ownReport (s : State) (e : Nat) : (s.noteStart e).ownReport = s.ownReport := by unfold State.noteStart; split <;> rfl
@[simp] theorem noteStart_trial (s : State) (e : Nat) : (s.noteStart e).trial = s.trial := by unfold State.noteStart; split <;> rfl
@[simp] theorem noteStart_lastOutcome (s : State) (e : Nat) : (s.noteStart e).lastOutcome = s.lastOutcome := by unfold State.noteStart; split <;> rfl
@[simp] theorem noteStart_seqCounter (s : State) (e : Nat) : (s.noteStart e).seqCounter = s.seqCounter := by unfold State.noteStart; split <;> rfl
@[simp] theorem noteStart_inputs (s : State) (e : Nat) : (s.noteStart e).inputs = s.inputs := by unfold State.noteStart; split <;> rfl
@[simp] theorem noteStart_counters (s : State) (e : Nat) : (s.noteStart e).counters = s.counters := by unfold State.noteStart; split <;> rfl
@[simp] theorem noteStart_chans (s : State) (e : Nat) : (s.noteStart e).chans = s.chans := by unfold State.noteStart; split <;> rfl
@[simp] theorem noteStart_meas (s : State) (e : Nat) : (s.noteStart e).meas = s.meas := by unfold State.noteStart; split <;> rfl
@[simp] theorem noteStart_check (s : State) (e : Nat) : (s.noteStart e).check = s.check := by unfold State.noteStart; split <;> rfl
@[simp] theorem noteStart_draw (s : State) (e : Nat) : (s.noteStart e).draw = s.draw := by unfold State.noteStart; split <;> rfl
@[simp] theorem noteStart_trim (s : State) (e : Nat) : (s.noteStart e).trim = s.trim := by unfold State.noteStart; split <;> rfl
@[simp] theorem noteStart_pwm (s : State) (e : Nat) : (s.noteStart e).pwm = s.pwm := by unfold State.noteStart; split <;> rfl
@[simp] theorem noteStart_brk (s : State) (e : Nat) : (s.noteStart e).brk = s.brk := by unfold State.noteStart; split <;> rfl
@[simp] theorem noteStart_log (s : State) (e : Nat) : (s.noteStart e).log = s.log := by unfold State.noteStart; split <;> rfl
@[simp] theorem noteStart_port (s : State) (e : Nat) : (s.noteStart e).port = s.port := by unfold State.noteStart; split <;> rfl
@[simp] theorem noteStart_pending (s : State) (e : Nat) : (s.noteStart e).pending = s.pending := by unfold State.noteStart; split <;> rfl
@[simp] theorem beginSending_now (s : State) (t : Tx) : (s.beginSending t).now = s.now := by simp [State.beginSending]
@[simp] theorem beginSending_power (s : State) (t : Tx) : (s.beginSending t).power = s.power := by simp [State.beginSending]
@[simp] theorem beginSending_pins (s : State) (t : Tx) : (s.beginSending t).pins = s.pins := by simp [State.beginSending]
@[simp] theorem beginSending_station (s : State) (t : Tx) : (s.beginSending t).station = s.station := by simp [State.beginSending]
@[simp] theorem beginSending_config (s : State) (t : Tx) : (s.beginSending t).config = s.config := by simp [State.beginSending]
@[simp] theorem beginSending_link (s : State) (t : Tx) : (s.beginSending t).link = s.link := by simp [State.beginSending]
@[simp] theorem beginSending_roster (s : State) (t : Tx) : (s.beginSending t).roster = s.roster := by simp [State.beginSending]
@[simp] theorem beginSending_ownReport (s : State) (t : Tx) : (s.beginSending t).ownReport = s.ownReport := by simp [State.beginSending]
@[simp] theorem beginSending_trial (s : State) (t : Tx) : (s.beginSending t).trial = s.trial := by simp [State.beginSending]
@[simp] theorem beginSending_lastOutcome (s : State) (t : Tx) : (s.beginSending t).lastOutcome = s.lastOutcome := by simp [State.beginSending]
@[simp] theorem beginSending_seqCounter (s : State) (t : Tx) : (s.beginSending t).seqCounter = s.seqCounter := by simp [State.beginSending]
@[simp] theorem beginSending_inputs (s : State) (t : Tx) : (s.beginSending t).inputs = s.inputs := by simp [State.beginSending]
@[simp] theorem beginSending_counters (s : State) (t : Tx) : (s.beginSending t).counters = s.counters := by simp [State.beginSending]
@[simp] theorem beginSending_chans (s : State) (t : Tx) : (s.beginSending t).chans = s.chans := by simp [State.beginSending]
@[simp] theorem beginSending_meas (s : State) (t : Tx) : (s.beginSending t).meas = s.meas := by simp [State.beginSending]
@[simp] theorem beginSending_check (s : State) (t : Tx) : (s.beginSending t).check = s.check := by simp [State.beginSending]
@[simp] theorem beginSending_draw (s : State) (t : Tx) : (s.beginSending t).draw = s.draw := by simp [State.beginSending]
@[simp] theorem beginSending_trim (s : State) (t : Tx) : (s.beginSending t).trim = s.trim := by simp [State.beginSending]
@[simp] theorem beginSending_pwm (s : State) (t : Tx) : (s.beginSending t).pwm = s.pwm := by simp [State.beginSending]
@[simp] theorem beginSending_brk (s : State) (t : Tx) : (s.beginSending t).brk = s.brk := by simp [State.beginSending]
@[simp] theorem beginSending_log (s : State) (t : Tx) : (s.beginSending t).log = s.log := by simp [State.beginSending]
@[simp] theorem beginSending_port (s : State) (t : Tx) : (s.beginSending t).port = s.port := by simp [State.beginSending]
@[simp] theorem beginSending_pending (s : State) (t : Tx) : (s.beginSending t).pending = s.pending := by simp [State.beginSending]
@[simp] theorem markInAttempt_now (s : State) : (s.markInAttempt).now = s.now := rfl
@[simp] theorem markInAttempt_power (s : State) : (s.markInAttempt).power = s.power := rfl
@[simp] theorem markInAttempt_pins (s : State) : (s.markInAttempt).pins = s.pins := rfl
@[simp] theorem markInAttempt_station (s : State) : (s.markInAttempt).station = s.station := rfl
@[simp] theorem markInAttempt_config (s : State) : (s.markInAttempt).config = s.config := rfl
@[simp] theorem markInAttempt_round (s : State) : (s.markInAttempt).round = s.round := rfl
@[simp] theorem markInAttempt_link (s : State) : (s.markInAttempt).link = s.link := rfl
@[simp] theorem markInAttempt_roster (s : State) : (s.markInAttempt).roster = s.roster := rfl
@[simp] theorem markInAttempt_ownReport (s : State) : (s.markInAttempt).ownReport = s.ownReport := rfl
@[simp] theorem markInAttempt_trial (s : State) : (s.markInAttempt).trial = s.trial := rfl
@[simp] theorem markInAttempt_lastOutcome (s : State) : (s.markInAttempt).lastOutcome = s.lastOutcome := rfl
@[simp] theorem markInAttempt_seqCounter (s : State) : (s.markInAttempt).seqCounter = s.seqCounter := rfl
@[simp] theorem markInAttempt_inputs (s : State) : (s.markInAttempt).inputs = s.inputs := rfl
@[simp] theorem markInAttempt_counters (s : State) : (s.markInAttempt).counters = s.counters := rfl
@[simp] theorem markInAttempt_chans (s : State) : (s.markInAttempt).chans = s.chans := rfl
@[simp] theorem markInAttempt_meas (s : State) : (s.markInAttempt).meas = s.meas := rfl
@[simp] theorem markInAttempt_check (s : State) : (s.markInAttempt).check = s.check := rfl
@[simp] theorem markInAttempt_draw (s : State) : (s.markInAttempt).draw = s.draw := rfl
@[simp] theorem markInAttempt_trim (s : State) : (s.markInAttempt).trim = s.trim := rfl
@[simp] theorem markInAttempt_pwm (s : State) : (s.markInAttempt).pwm = s.pwm := rfl
@[simp] theorem markInAttempt_brk (s : State) : (s.markInAttempt).brk = s.brk := rfl
@[simp] theorem markInAttempt_log (s : State) : (s.markInAttempt).log = s.log := rfl
@[simp] theorem markInAttempt_port (s : State) : (s.markInAttempt).port = s.port := rfl
@[simp] theorem markInAttempt_pending (s : State) : (s.markInAttempt).pending = s.pending := rfl
@[simp] theorem extendTrain_now (s : State) (j : Station) (e : Nat) : (s.extendTrain j e).now = s.now := rfl
@[simp] theorem extendTrain_power (s : State) (j : Station) (e : Nat) : (s.extendTrain j e).power = s.power := rfl
@[simp] theorem extendTrain_pins (s : State) (j : Station) (e : Nat) : (s.extendTrain j e).pins = s.pins := rfl
@[simp] theorem extendTrain_station (s : State) (j : Station) (e : Nat) : (s.extendTrain j e).station = s.station := rfl
@[simp] theorem extendTrain_config (s : State) (j : Station) (e : Nat) : (s.extendTrain j e).config = s.config := rfl
@[simp] theorem extendTrain_round (s : State) (j : Station) (e : Nat) : (s.extendTrain j e).round = s.round := rfl
@[simp] theorem extendTrain_link (s : State) (j : Station) (e : Nat) : (s.extendTrain j e).link = s.link := rfl
@[simp] theorem extendTrain_roster (s : State) (j : Station) (e : Nat) : (s.extendTrain j e).roster = s.roster := rfl
@[simp] theorem extendTrain_ownReport (s : State) (j : Station) (e : Nat) : (s.extendTrain j e).ownReport = s.ownReport := rfl
@[simp] theorem extendTrain_trial (s : State) (j : Station) (e : Nat) : (s.extendTrain j e).trial = s.trial := rfl
@[simp] theorem extendTrain_lastOutcome (s : State) (j : Station) (e : Nat) : (s.extendTrain j e).lastOutcome = s.lastOutcome := rfl
@[simp] theorem extendTrain_seqCounter (s : State) (j : Station) (e : Nat) : (s.extendTrain j e).seqCounter = s.seqCounter := rfl
@[simp] theorem extendTrain_inputs (s : State) (j : Station) (e : Nat) : (s.extendTrain j e).inputs = s.inputs := rfl
@[simp] theorem extendTrain_counters (s : State) (j : Station) (e : Nat) : (s.extendTrain j e).counters = s.counters := rfl
@[simp] theorem extendTrain_chans (s : State) (j : Station) (e : Nat) : (s.extendTrain j e).chans = s.chans := rfl
@[simp] theorem extendTrain_meas (s : State) (j : Station) (e : Nat) : (s.extendTrain j e).meas = s.meas := rfl
@[simp] theorem extendTrain_check (s : State) (j : Station) (e : Nat) : (s.extendTrain j e).check = s.check := rfl
@[simp] theorem extendTrain_draw (s : State) (j : Station) (e : Nat) : (s.extendTrain j e).draw = s.draw := rfl
@[simp] theorem extendTrain_trim (s : State) (j : Station) (e : Nat) : (s.extendTrain j e).trim = s.trim := rfl
@[simp] theorem extendTrain_pwm (s : State) (j : Station) (e : Nat) : (s.extendTrain j e).pwm = s.pwm := rfl
@[simp] theorem extendTrain_brk (s : State) (j : Station) (e : Nat) : (s.extendTrain j e).brk = s.brk := rfl
@[simp] theorem extendTrain_log (s : State) (j : Station) (e : Nat) : (s.extendTrain j e).log = s.log := rfl
@[simp] theorem extendTrain_port (s : State) (j : Station) (e : Nat) : (s.extendTrain j e).port = s.port := rfl
@[simp] theorem extendTrain_pending (s : State) (j : Station) (e : Nat) : (s.extendTrain j e).pending = s.pending := rfl
@[simp] theorem armCheck_now (s : State) (n : Channel) : (s.armCheck n).now = s.now := rfl
@[simp] theorem armCheck_power (s : State) (n : Channel) : (s.armCheck n).power = s.power := rfl
@[simp] theorem armCheck_pins (s : State) (n : Channel) : (s.armCheck n).pins = s.pins := rfl
@[simp] theorem armCheck_station (s : State) (n : Channel) : (s.armCheck n).station = s.station := rfl
@[simp] theorem armCheck_config (s : State) (n : Channel) : (s.armCheck n).config = s.config := rfl
@[simp] theorem armCheck_line (s : State) (n : Channel) : (s.armCheck n).line = s.line := rfl
@[simp] theorem armCheck_round (s : State) (n : Channel) : (s.armCheck n).round = s.round := rfl
@[simp] theorem armCheck_link (s : State) (n : Channel) : (s.armCheck n).link = s.link := rfl
@[simp] theorem armCheck_roster (s : State) (n : Channel) : (s.armCheck n).roster = s.roster := rfl
@[simp] theorem armCheck_ownReport (s : State) (n : Channel) : (s.armCheck n).ownReport = s.ownReport := rfl
@[simp] theorem armCheck_trial (s : State) (n : Channel) : (s.armCheck n).trial = s.trial := rfl
@[simp] theorem armCheck_lastOutcome (s : State) (n : Channel) : (s.armCheck n).lastOutcome = s.lastOutcome := rfl
@[simp] theorem armCheck_seqCounter (s : State) (n : Channel) : (s.armCheck n).seqCounter = s.seqCounter := rfl
@[simp] theorem armCheck_inputs (s : State) (n : Channel) : (s.armCheck n).inputs = s.inputs := rfl
@[simp] theorem armCheck_counters (s : State) (n : Channel) : (s.armCheck n).counters = s.counters := rfl
@[simp] theorem armCheck_chans (s : State) (n : Channel) : (s.armCheck n).chans = s.chans := rfl
@[simp] theorem armCheck_meas (s : State) (n : Channel) : (s.armCheck n).meas = s.meas := rfl
@[simp] theorem armCheck_draw (s : State) (n : Channel) : (s.armCheck n).draw = s.draw := rfl
@[simp] theorem armCheck_trim (s : State) (n : Channel) : (s.armCheck n).trim = s.trim := rfl
@[simp] theorem armCheck_pwm (s : State) (n : Channel) : (s.armCheck n).pwm = s.pwm := rfl
@[simp] theorem armCheck_brk (s : State) (n : Channel) : (s.armCheck n).brk = s.brk := rfl
@[simp] theorem armCheck_log (s : State) (n : Channel) : (s.armCheck n).log = s.log := rfl
@[simp] theorem armCheck_port (s : State) (n : Channel) : (s.armCheck n).port = s.port := rfl
@[simp] theorem armCheck_pending (s : State) (n : Channel) : (s.armCheck n).pending = s.pending := rfl
@[simp] theorem setCounters_now (s : State) (n : Channel) (c : Counters) : (s.setCounters n c).now = s.now := rfl
@[simp] theorem setCounters_power (s : State) (n : Channel) (c : Counters) : (s.setCounters n c).power = s.power := rfl
@[simp] theorem setCounters_pins (s : State) (n : Channel) (c : Counters) : (s.setCounters n c).pins = s.pins := rfl
@[simp] theorem setCounters_station (s : State) (n : Channel) (c : Counters) : (s.setCounters n c).station = s.station := rfl
@[simp] theorem setCounters_config (s : State) (n : Channel) (c : Counters) : (s.setCounters n c).config = s.config := rfl
@[simp] theorem setCounters_line (s : State) (n : Channel) (c : Counters) : (s.setCounters n c).line = s.line := rfl
@[simp] theorem setCounters_round (s : State) (n : Channel) (c : Counters) : (s.setCounters n c).round = s.round := rfl
@[simp] theorem setCounters_link (s : State) (n : Channel) (c : Counters) : (s.setCounters n c).link = s.link := rfl
@[simp] theorem setCounters_roster (s : State) (n : Channel) (c : Counters) : (s.setCounters n c).roster = s.roster := rfl
@[simp] theorem setCounters_ownReport (s : State) (n : Channel) (c : Counters) : (s.setCounters n c).ownReport = s.ownReport := rfl
@[simp] theorem setCounters_trial (s : State) (n : Channel) (c : Counters) : (s.setCounters n c).trial = s.trial := rfl
@[simp] theorem setCounters_lastOutcome (s : State) (n : Channel) (c : Counters) : (s.setCounters n c).lastOutcome = s.lastOutcome := rfl
@[simp] theorem setCounters_seqCounter (s : State) (n : Channel) (c : Counters) : (s.setCounters n c).seqCounter = s.seqCounter := rfl
@[simp] theorem setCounters_inputs (s : State) (n : Channel) (c : Counters) : (s.setCounters n c).inputs = s.inputs := rfl
@[simp] theorem setCounters_chans (s : State) (n : Channel) (c : Counters) : (s.setCounters n c).chans = s.chans := rfl
@[simp] theorem setCounters_meas (s : State) (n : Channel) (c : Counters) : (s.setCounters n c).meas = s.meas := rfl
@[simp] theorem setCounters_check (s : State) (n : Channel) (c : Counters) : (s.setCounters n c).check = s.check := rfl
@[simp] theorem setCounters_draw (s : State) (n : Channel) (c : Counters) : (s.setCounters n c).draw = s.draw := rfl
@[simp] theorem setCounters_trim (s : State) (n : Channel) (c : Counters) : (s.setCounters n c).trim = s.trim := rfl
@[simp] theorem setCounters_pwm (s : State) (n : Channel) (c : Counters) : (s.setCounters n c).pwm = s.pwm := rfl
@[simp] theorem setCounters_brk (s : State) (n : Channel) (c : Counters) : (s.setCounters n c).brk = s.brk := rfl
@[simp] theorem setCounters_log (s : State) (n : Channel) (c : Counters) : (s.setCounters n c).log = s.log := rfl
@[simp] theorem setCounters_port (s : State) (n : Channel) (c : Counters) : (s.setCounters n c).port = s.port := rfl
@[simp] theorem setCounters_pending (s : State) (n : Channel) (c : Counters) : (s.setCounters n c).pending = s.pending := rfl
@[simp] theorem stallChannel_now (s : State) (n : Channel) : (s.stallChannel n).now = s.now := rfl
@[simp] theorem stallChannel_power (s : State) (n : Channel) : (s.stallChannel n).power = s.power := rfl
@[simp] theorem stallChannel_pins (s : State) (n : Channel) : (s.stallChannel n).pins = s.pins := rfl
@[simp] theorem stallChannel_station (s : State) (n : Channel) : (s.stallChannel n).station = s.station := rfl
@[simp] theorem stallChannel_config (s : State) (n : Channel) : (s.stallChannel n).config = s.config := rfl
@[simp] theorem stallChannel_line (s : State) (n : Channel) : (s.stallChannel n).line = s.line := rfl
@[simp] theorem stallChannel_round (s : State) (n : Channel) : (s.stallChannel n).round = s.round := rfl
@[simp] theorem stallChannel_link (s : State) (n : Channel) : (s.stallChannel n).link = s.link := rfl
@[simp] theorem stallChannel_roster (s : State) (n : Channel) : (s.stallChannel n).roster = s.roster := rfl
@[simp] theorem stallChannel_ownReport (s : State) (n : Channel) : (s.stallChannel n).ownReport = s.ownReport := rfl
@[simp] theorem stallChannel_trial (s : State) (n : Channel) : (s.stallChannel n).trial = s.trial := rfl
@[simp] theorem stallChannel_lastOutcome (s : State) (n : Channel) : (s.stallChannel n).lastOutcome = s.lastOutcome := rfl
@[simp] theorem stallChannel_seqCounter (s : State) (n : Channel) : (s.stallChannel n).seqCounter = s.seqCounter := rfl
@[simp] theorem stallChannel_inputs (s : State) (n : Channel) : (s.stallChannel n).inputs = s.inputs := rfl
@[simp] theorem stallChannel_chans (s : State) (n : Channel) : (s.stallChannel n).chans = s.chans := rfl
@[simp] theorem stallChannel_meas (s : State) (n : Channel) : (s.stallChannel n).meas = s.meas := rfl
@[simp] theorem stallChannel_check (s : State) (n : Channel) : (s.stallChannel n).check = s.check := rfl
@[simp] theorem stallChannel_draw (s : State) (n : Channel) : (s.stallChannel n).draw = s.draw := rfl
@[simp] theorem stallChannel_trim (s : State) (n : Channel) : (s.stallChannel n).trim = s.trim := rfl
@[simp] theorem stallChannel_pwm (s : State) (n : Channel) : (s.stallChannel n).pwm = s.pwm := rfl
@[simp] theorem stallChannel_brk (s : State) (n : Channel) : (s.stallChannel n).brk = s.brk := rfl
@[simp] theorem stallChannel_log (s : State) (n : Channel) : (s.stallChannel n).log = s.log := rfl
@[simp] theorem stallChannel_port (s : State) (n : Channel) : (s.stallChannel n).port = s.port := rfl
@[simp] theorem stallChannel_pending (s : State) (n : Channel) : (s.stallChannel n).pending = s.pending := rfl
@[simp] theorem seeDir_now (s : State) (n : Channel) (b : Bool) : (s.seeDir n b).now = s.now := rfl
@[simp] theorem seeDir_power (s : State) (n : Channel) (b : Bool) : (s.seeDir n b).power = s.power := rfl
@[simp] theorem seeDir_station (s : State) (n : Channel) (b : Bool) : (s.seeDir n b).station = s.station := rfl
@[simp] theorem seeDir_config (s : State) (n : Channel) (b : Bool) : (s.seeDir n b).config = s.config := rfl
@[simp] theorem seeDir_line (s : State) (n : Channel) (b : Bool) : (s.seeDir n b).line = s.line := rfl
@[simp] theorem seeDir_round (s : State) (n : Channel) (b : Bool) : (s.seeDir n b).round = s.round := rfl
@[simp] theorem seeDir_link (s : State) (n : Channel) (b : Bool) : (s.seeDir n b).link = s.link := rfl
@[simp] theorem seeDir_roster (s : State) (n : Channel) (b : Bool) : (s.seeDir n b).roster = s.roster := rfl
@[simp] theorem seeDir_ownReport (s : State) (n : Channel) (b : Bool) : (s.seeDir n b).ownReport = s.ownReport := rfl
@[simp] theorem seeDir_trial (s : State) (n : Channel) (b : Bool) : (s.seeDir n b).trial = s.trial := rfl
@[simp] theorem seeDir_lastOutcome (s : State) (n : Channel) (b : Bool) : (s.seeDir n b).lastOutcome = s.lastOutcome := rfl
@[simp] theorem seeDir_seqCounter (s : State) (n : Channel) (b : Bool) : (s.seeDir n b).seqCounter = s.seqCounter := rfl
@[simp] theorem seeDir_inputs (s : State) (n : Channel) (b : Bool) : (s.seeDir n b).inputs = s.inputs := rfl
@[simp] theorem seeDir_counters (s : State) (n : Channel) (b : Bool) : (s.seeDir n b).counters = s.counters := rfl
@[simp] theorem seeDir_chans (s : State) (n : Channel) (b : Bool) : (s.seeDir n b).chans = s.chans := rfl
@[simp] theorem seeDir_meas (s : State) (n : Channel) (b : Bool) : (s.seeDir n b).meas = s.meas := rfl
@[simp] theorem seeDir_check (s : State) (n : Channel) (b : Bool) : (s.seeDir n b).check = s.check := rfl
@[simp] theorem seeDir_draw (s : State) (n : Channel) (b : Bool) : (s.seeDir n b).draw = s.draw := rfl
@[simp] theorem seeDir_trim (s : State) (n : Channel) (b : Bool) : (s.seeDir n b).trim = s.trim := rfl
@[simp] theorem seeDir_pwm (s : State) (n : Channel) (b : Bool) : (s.seeDir n b).pwm = s.pwm := rfl
@[simp] theorem seeDir_brk (s : State) (n : Channel) (b : Bool) : (s.seeDir n b).brk = s.brk := rfl
@[simp] theorem seeDir_log (s : State) (n : Channel) (b : Bool) : (s.seeDir n b).log = s.log := rfl
@[simp] theorem seeDir_port (s : State) (n : Channel) (b : Bool) : (s.seeDir n b).port = s.port := rfl
@[simp] theorem seeDir_pending (s : State) (n : Channel) (b : Bool) : (s.seeDir n b).pending = s.pending := rfl
@[simp] theorem sampleSlow_now (s : State) (v : SlowLevels) : (s.sampleSlow v).now = s.now := rfl
@[simp] theorem sampleSlow_power (s : State) (v : SlowLevels) : (s.sampleSlow v).power = s.power := rfl
@[simp] theorem sampleSlow_station (s : State) (v : SlowLevels) : (s.sampleSlow v).station = s.station := rfl
@[simp] theorem sampleSlow_config (s : State) (v : SlowLevels) : (s.sampleSlow v).config = s.config := rfl
@[simp] theorem sampleSlow_line (s : State) (v : SlowLevels) : (s.sampleSlow v).line = s.line := rfl
@[simp] theorem sampleSlow_round (s : State) (v : SlowLevels) : (s.sampleSlow v).round = s.round := rfl
@[simp] theorem sampleSlow_link (s : State) (v : SlowLevels) : (s.sampleSlow v).link = s.link := rfl
@[simp] theorem sampleSlow_roster (s : State) (v : SlowLevels) : (s.sampleSlow v).roster = s.roster := rfl
@[simp] theorem sampleSlow_ownReport (s : State) (v : SlowLevels) : (s.sampleSlow v).ownReport = s.ownReport := rfl
@[simp] theorem sampleSlow_trial (s : State) (v : SlowLevels) : (s.sampleSlow v).trial = s.trial := rfl
@[simp] theorem sampleSlow_lastOutcome (s : State) (v : SlowLevels) : (s.sampleSlow v).lastOutcome = s.lastOutcome := rfl
@[simp] theorem sampleSlow_seqCounter (s : State) (v : SlowLevels) : (s.sampleSlow v).seqCounter = s.seqCounter := rfl
@[simp] theorem sampleSlow_counters (s : State) (v : SlowLevels) : (s.sampleSlow v).counters = s.counters := rfl
@[simp] theorem sampleSlow_chans (s : State) (v : SlowLevels) : (s.sampleSlow v).chans = s.chans := rfl
@[simp] theorem sampleSlow_meas (s : State) (v : SlowLevels) : (s.sampleSlow v).meas = s.meas := rfl
@[simp] theorem sampleSlow_check (s : State) (v : SlowLevels) : (s.sampleSlow v).check = s.check := rfl
@[simp] theorem sampleSlow_draw (s : State) (v : SlowLevels) : (s.sampleSlow v).draw = s.draw := rfl
@[simp] theorem sampleSlow_trim (s : State) (v : SlowLevels) : (s.sampleSlow v).trim = s.trim := rfl
@[simp] theorem sampleSlow_pwm (s : State) (v : SlowLevels) : (s.sampleSlow v).pwm = s.pwm := rfl
@[simp] theorem sampleSlow_brk (s : State) (v : SlowLevels) : (s.sampleSlow v).brk = s.brk := rfl
@[simp] theorem sampleSlow_log (s : State) (v : SlowLevels) : (s.sampleSlow v).log = s.log := rfl
@[simp] theorem sampleSlow_port (s : State) (v : SlowLevels) : (s.sampleSlow v).port = s.port := rfl
@[simp] theorem sampleSlow_pending (s : State) (v : SlowLevels) : (s.sampleSlow v).pending = s.pending := rfl
@[simp] theorem setFalls_now (s : State) (k : Nat) : (s.setFalls k).now = s.now := rfl
@[simp] theorem setFalls_power (s : State) (k : Nat) : (s.setFalls k).power = s.power := rfl
@[simp] theorem setFalls_station (s : State) (k : Nat) : (s.setFalls k).station = s.station := rfl
@[simp] theorem setFalls_config (s : State) (k : Nat) : (s.setFalls k).config = s.config := rfl
@[simp] theorem setFalls_line (s : State) (k : Nat) : (s.setFalls k).line = s.line := rfl
@[simp] theorem setFalls_round (s : State) (k : Nat) : (s.setFalls k).round = s.round := rfl
@[simp] theorem setFalls_link (s : State) (k : Nat) : (s.setFalls k).link = s.link := rfl
@[simp] theorem setFalls_roster (s : State) (k : Nat) : (s.setFalls k).roster = s.roster := rfl
@[simp] theorem setFalls_ownReport (s : State) (k : Nat) : (s.setFalls k).ownReport = s.ownReport := rfl
@[simp] theorem setFalls_trial (s : State) (k : Nat) : (s.setFalls k).trial = s.trial := rfl
@[simp] theorem setFalls_lastOutcome (s : State) (k : Nat) : (s.setFalls k).lastOutcome = s.lastOutcome := rfl
@[simp] theorem setFalls_seqCounter (s : State) (k : Nat) : (s.setFalls k).seqCounter = s.seqCounter := rfl
@[simp] theorem setFalls_inputs (s : State) (k : Nat) : (s.setFalls k).inputs = s.inputs := rfl
@[simp] theorem setFalls_counters (s : State) (k : Nat) : (s.setFalls k).counters = s.counters := rfl
@[simp] theorem setFalls_chans (s : State) (k : Nat) : (s.setFalls k).chans = s.chans := rfl
@[simp] theorem setFalls_meas (s : State) (k : Nat) : (s.setFalls k).meas = s.meas := rfl
@[simp] theorem setFalls_check (s : State) (k : Nat) : (s.setFalls k).check = s.check := rfl
@[simp] theorem setFalls_draw (s : State) (k : Nat) : (s.setFalls k).draw = s.draw := rfl
@[simp] theorem setFalls_trim (s : State) (k : Nat) : (s.setFalls k).trim = s.trim := rfl
@[simp] theorem setFalls_pwm (s : State) (k : Nat) : (s.setFalls k).pwm = s.pwm := rfl
@[simp] theorem setFalls_brk (s : State) (k : Nat) : (s.setFalls k).brk = s.brk := rfl
@[simp] theorem setFalls_log (s : State) (k : Nat) : (s.setFalls k).log = s.log := rfl
@[simp] theorem setFalls_port (s : State) (k : Nat) : (s.setFalls k).port = s.port := rfl
@[simp] theorem setFalls_pending (s : State) (k : Nat) : (s.setFalls k).pending = s.pending := rfl
@[simp] theorem setFalls_pins (s : State) (k : Nat) : (s.setFalls k).pins = { s.pins with sckFalls := k } := rfl
@[simp] theorem removeHead_now (s : State) : (s.removeHead).now = s.now := rfl
@[simp] theorem removeHead_power (s : State) : (s.removeHead).power = s.power := rfl
@[simp] theorem removeHead_pins (s : State) : (s.removeHead).pins = s.pins := rfl
@[simp] theorem removeHead_station (s : State) : (s.removeHead).station = s.station := rfl
@[simp] theorem removeHead_config (s : State) : (s.removeHead).config = s.config := rfl
@[simp] theorem removeHead_line (s : State) : (s.removeHead).line = s.line := rfl
@[simp] theorem removeHead_round (s : State) : (s.removeHead).round = s.round := rfl
@[simp] theorem removeHead_link (s : State) : (s.removeHead).link = s.link := rfl
@[simp] theorem removeHead_roster (s : State) : (s.removeHead).roster = s.roster := rfl
@[simp] theorem removeHead_ownReport (s : State) : (s.removeHead).ownReport = s.ownReport := rfl
@[simp] theorem removeHead_trial (s : State) : (s.removeHead).trial = s.trial := rfl
@[simp] theorem removeHead_lastOutcome (s : State) : (s.removeHead).lastOutcome = s.lastOutcome := rfl
@[simp] theorem removeHead_seqCounter (s : State) : (s.removeHead).seqCounter = s.seqCounter := rfl
@[simp] theorem removeHead_inputs (s : State) : (s.removeHead).inputs = s.inputs := rfl
@[simp] theorem removeHead_counters (s : State) : (s.removeHead).counters = s.counters := rfl
@[simp] theorem removeHead_chans (s : State) : (s.removeHead).chans = s.chans := rfl
@[simp] theorem removeHead_meas (s : State) : (s.removeHead).meas = s.meas := rfl
@[simp] theorem removeHead_check (s : State) : (s.removeHead).check = s.check := rfl
@[simp] theorem removeHead_draw (s : State) : (s.removeHead).draw = s.draw := rfl
@[simp] theorem removeHead_trim (s : State) : (s.removeHead).trim = s.trim := rfl
@[simp] theorem removeHead_pwm (s : State) : (s.removeHead).pwm = s.pwm := rfl
@[simp] theorem removeHead_brk (s : State) : (s.removeHead).brk = s.brk := rfl
@[simp] theorem removeHead_port (s : State) : (s.removeHead).port = s.port := rfl
@[simp] theorem removeHead_pending (s : State) : (s.removeHead).pending = s.pending := rfl
@[simp] theorem acceptConfig_now (s : State) (c : ConfigRecord) : (s.acceptConfig c).now = s.now := rfl
@[simp] theorem acceptConfig_power (s : State) (c : ConfigRecord) : (s.acceptConfig c).power = s.power := rfl
@[simp] theorem acceptConfig_pins (s : State) (c : ConfigRecord) : (s.acceptConfig c).pins = s.pins := rfl
@[simp] theorem acceptConfig_station (s : State) (c : ConfigRecord) : (s.acceptConfig c).station = s.station := rfl
@[simp] theorem acceptConfig_line (s : State) (c : ConfigRecord) : (s.acceptConfig c).line = s.line := rfl
@[simp] theorem acceptConfig_roster (s : State) (c : ConfigRecord) : (s.acceptConfig c).roster = s.roster := rfl
@[simp] theorem acceptConfig_ownReport (s : State) (c : ConfigRecord) : (s.acceptConfig c).ownReport = s.ownReport := rfl
@[simp] theorem acceptConfig_trial (s : State) (c : ConfigRecord) : (s.acceptConfig c).trial = s.trial := rfl
@[simp] theorem acceptConfig_lastOutcome (s : State) (c : ConfigRecord) : (s.acceptConfig c).lastOutcome = s.lastOutcome := rfl
@[simp] theorem acceptConfig_seqCounter (s : State) (c : ConfigRecord) : (s.acceptConfig c).seqCounter = s.seqCounter := rfl
@[simp] theorem acceptConfig_meas (s : State) (c : ConfigRecord) : (s.acceptConfig c).meas = s.meas := rfl
@[simp] theorem acceptConfig_check (s : State) (c : ConfigRecord) : (s.acceptConfig c).check = s.check := rfl
@[simp] theorem acceptConfig_draw (s : State) (c : ConfigRecord) : (s.acceptConfig c).draw = s.draw := rfl
@[simp] theorem acceptConfig_trim (s : State) (c : ConfigRecord) : (s.acceptConfig c).trim = s.trim := rfl
@[simp] theorem acceptConfig_pwm (s : State) (c : ConfigRecord) : (s.acceptConfig c).pwm = s.pwm := rfl
@[simp] theorem acceptConfig_brk (s : State) (c : ConfigRecord) : (s.acceptConfig c).brk = s.brk := rfl
@[simp] theorem acceptConfig_log (s : State) (c : ConfigRecord) : (s.acceptConfig c).log = s.log := rfl
@[simp] theorem acceptConfig_port (s : State) (c : ConfigRecord) : (s.acceptConfig c).port = s.port := rfl
@[simp] theorem acceptConfig_pending (s : State) (c : ConfigRecord) : (s.acceptConfig c).pending = s.pending := rfl
@[simp] theorem resetBlocks_now (s : State) : (s.resetBlocks).now = s.now := rfl
@[simp] theorem resetBlocks_power (s : State) : (s.resetBlocks).power = s.power := rfl
@[simp] theorem resetBlocks_pins (s : State) : (s.resetBlocks).pins = s.pins := rfl
@[simp] theorem resetBlocks_station (s : State) : (s.resetBlocks).station = s.station := rfl
@[simp] theorem resetBlocks_seqCounter (s : State) : (s.resetBlocks).seqCounter = s.seqCounter := rfl
@[simp] theorem resetBlocks_pwm (s : State) : (s.resetBlocks).pwm = s.pwm := rfl
@[simp] theorem resetBlocks_pending (s : State) : (s.resetBlocks).pending = s.pending := rfl
@[simp] theorem holdReset_now (s : State) : (s.holdReset).now = s.now := rfl
@[simp] theorem holdReset_power (s : State) : (s.holdReset).power = s.power := rfl
@[simp] theorem holdReset_pins (s : State) : (s.holdReset).pins = s.pins := rfl
@[simp] theorem holdReset_station (s : State) : (s.holdReset).station = s.station := rfl
@[simp] theorem holdReset_pending (s : State) : (s.holdReset).pending = s.pending := rfl
@[simp] theorem endReset_now (s : State) (p : BitVec 4) : (s.endReset p).now = s.now := rfl
@[simp] theorem endReset_power (s : State) (p : BitVec 4) : (s.endReset p).power = s.power := rfl
@[simp] theorem endReset_pending (s : State) (p : BitVec 4) : (s.endReset p).pending = s.pending := rfl

end Sys2Proof.Machine
end

