-- ==== Sys2Proof/Laws/Frames.lean ====
section
/-! SUPPORT. What the composite operations of a boundary and of the line leave as it was, field by field. -/

namespace Sys2Proof.Machine

set_option Elab.async false

@[simp] theorem raiseIf_now (s : State) (p : Bool) (e : Event) : (s.raiseIf p e).now = s.now := by unfold State.raiseIf; split <;> rfl
@[simp] theorem raiseIf_power (s : State) (p : Bool) (e : Event) : (s.raiseIf p e).power = s.power := by unfold State.raiseIf; split <;> rfl
@[simp] theorem raiseIf_pins (s : State) (p : Bool) (e : Event) : (s.raiseIf p e).pins = s.pins := by unfold State.raiseIf; split <;> rfl
@[simp] theorem raiseIf_station (s : State) (p : Bool) (e : Event) : (s.raiseIf p e).station = s.station := by unfold State.raiseIf; split <;> rfl
@[simp] theorem raiseIf_config (s : State) (p : Bool) (e : Event) : (s.raiseIf p e).config = s.config := by unfold State.raiseIf; split <;> rfl
@[simp] theorem raiseIf_line (s : State) (p : Bool) (e : Event) : (s.raiseIf p e).line = s.line := by unfold State.raiseIf; split <;> rfl
@[simp] theorem raiseIf_round (s : State) (p : Bool) (e : Event) : (s.raiseIf p e).round = s.round := by unfold State.raiseIf; split <;> rfl
@[simp] theorem raiseIf_link (s : State) (p : Bool) (e : Event) : (s.raiseIf p e).link = s.link := by unfold State.raiseIf; split <;> rfl
@[simp] theorem raiseIf_roster (s : State) (p : Bool) (e : Event) : (s.raiseIf p e).roster = s.roster := by unfold State.raiseIf; split <;> rfl
@[simp] theorem raiseIf_ownReport (s : State) (p : Bool) (e : Event) : (s.raiseIf p e).ownReport = s.ownReport := by unfold State.raiseIf; split <;> rfl
@[simp] theorem raiseIf_trial (s : State) (p : Bool) (e : Event) : (s.raiseIf p e).trial = s.trial := by unfold State.raiseIf; split <;> rfl
@[simp] theorem raiseIf_lastOutcome (s : State) (p : Bool) (e : Event) : (s.raiseIf p e).lastOutcome = s.lastOutcome := by unfold State.raiseIf; split <;> rfl
@[simp] theorem raiseIf_seqCounter (s : State) (p : Bool) (e : Event) : (s.raiseIf p e).seqCounter = s.seqCounter := by unfold State.raiseIf; split <;> rfl
@[simp] theorem raiseIf_inputs (s : State) (p : Bool) (e : Event) : (s.raiseIf p e).inputs = s.inputs := by unfold State.raiseIf; split <;> rfl
@[simp] theorem raiseIf_counters (s : State) (p : Bool) (e : Event) : (s.raiseIf p e).counters = s.counters := by unfold State.raiseIf; split <;> rfl
@[simp] theorem raiseIf_chans (s : State) (p : Bool) (e : Event) : (s.raiseIf p e).chans = s.chans := by unfold State.raiseIf; split <;> rfl
@[simp] theorem raiseIf_meas (s : State) (p : Bool) (e : Event) : (s.raiseIf p e).meas = s.meas := by unfold State.raiseIf; split <;> rfl
@[simp] theorem raiseIf_check (s : State) (p : Bool) (e : Event) : (s.raiseIf p e).check = s.check := by unfold State.raiseIf; split <;> rfl
@[simp] theorem raiseIf_draw (s : State) (p : Bool) (e : Event) : (s.raiseIf p e).draw = s.draw := by unfold State.raiseIf; split <;> rfl
@[simp] theorem raiseIf_trim (s : State) (p : Bool) (e : Event) : (s.raiseIf p e).trim = s.trim := by unfold State.raiseIf; split <;> rfl
@[simp] theorem raiseIf_pwm (s : State) (p : Bool) (e : Event) : (s.raiseIf p e).pwm = s.pwm := by unfold State.raiseIf; split <;> rfl
@[simp] theorem raiseIf_brk (s : State) (p : Bool) (e : Event) : (s.raiseIf p e).brk = s.brk := by unfold State.raiseIf; split <;> rfl
@[simp] theorem raiseIf_log (s : State) (p : Bool) (e : Event) : (s.raiseIf p e).log = s.log := by unfold State.raiseIf; split <;> rfl
@[simp] theorem raiseIf_pending (s : State) (p : Bool) (e : Event) : (s.raiseIf p e).pending = s.pending := by unfold State.raiseIf; split <;> rfl
@[simp] theorem linkError_now (s : State) (e : LinkError) : (s.linkError e).now = s.now := by simp [State.linkError]
@[simp] theorem linkError_power (s : State) (e : LinkError) : (s.linkError e).power = s.power := by simp [State.linkError]
@[simp] theorem linkError_pins (s : State) (e : LinkError) : (s.linkError e).pins = s.pins := by simp [State.linkError]
@[simp] theorem linkError_station (s : State) (e : LinkError) : (s.linkError e).station = s.station := by simp [State.linkError]
@[simp] theorem linkError_config (s : State) (e : LinkError) : (s.linkError e).config = s.config := by simp [State.linkError]
@[simp] theorem linkError_round (s : State) (e : LinkError) : (s.linkError e).round = s.round := by simp [State.linkError]
@[simp] theorem linkError_link (s : State) (e : LinkError) : (s.linkError e).link = s.link := by simp [State.linkError]
@[simp] theorem linkError_roster (s : State) (e : LinkError) : (s.linkError e).roster = s.roster := by simp [State.linkError]
@[simp] theorem linkError_ownReport (s : State) (e : LinkError) : (s.linkError e).ownReport = s.ownReport := by simp [State.linkError]
@[simp] theorem linkError_trial (s : State) (e : LinkError) : (s.linkError e).trial = s.trial := by simp [State.linkError]
@[simp] theorem linkError_lastOutcome (s : State) (e : LinkError) : (s.linkError e).lastOutcome = s.lastOutcome := by simp [State.linkError]
@[simp] theorem linkError_seqCounter (s : State) (e : LinkError) : (s.linkError e).seqCounter = s.seqCounter := by simp [State.linkError]
@[simp] theorem linkError_inputs (s : State) (e : LinkError) : (s.linkError e).inputs = s.inputs := by simp [State.linkError]
@[simp] theorem linkError_counters (s : State) (e : LinkError) : (s.linkError e).counters = s.counters := by simp [State.linkError]
@[simp] theorem linkError_chans (s : State) (e : LinkError) : (s.linkError e).chans = s.chans := by simp [State.linkError]
@[simp] theorem linkError_meas (s : State) (e : LinkError) : (s.linkError e).meas = s.meas := by simp [State.linkError]
@[simp] theorem linkError_check (s : State) (e : LinkError) : (s.linkError e).check = s.check := by simp [State.linkError]
@[simp] theorem linkError_draw (s : State) (e : LinkError) : (s.linkError e).draw = s.draw := by simp [State.linkError]
@[simp] theorem linkError_trim (s : State) (e : LinkError) : (s.linkError e).trim = s.trim := by simp [State.linkError]
@[simp] theorem linkError_pwm (s : State) (e : LinkError) : (s.linkError e).pwm = s.pwm := by simp [State.linkError]
@[simp] theorem linkError_brk (s : State) (e : LinkError) : (s.linkError e).brk = s.brk := by simp [State.linkError]
@[simp] theorem linkError_log (s : State) (e : LinkError) : (s.linkError e).log = s.log := by simp [State.linkError]
@[simp] theorem linkError_pending (s : State) (e : LinkError) : (s.linkError e).pending = s.pending := by simp [State.linkError]
@[simp] theorem linkErrorIf_now (s : State) (p : Bool) (e : LinkError) : (s.linkErrorIf p e).now = s.now := by unfold State.linkErrorIf; split <;> simp
@[simp] theorem linkErrorIf_power (s : State) (p : Bool) (e : LinkError) : (s.linkErrorIf p e).power = s.power := by unfold State.linkErrorIf; split <;> simp
@[simp] theorem linkErrorIf_pins (s : State) (p : Bool) (e : LinkError) : (s.linkErrorIf p e).pins = s.pins := by unfold State.linkErrorIf; split <;> simp
@[simp] theorem linkErrorIf_station (s : State) (p : Bool) (e : LinkError) : (s.linkErrorIf p e).station = s.station := by unfold State.linkErrorIf; split <;> simp
@[simp] theorem linkErrorIf_config (s : State) (p : Bool) (e : LinkError) : (s.linkErrorIf p e).config = s.config := by unfold State.linkErrorIf; split <;> simp
@[simp] theorem linkErrorIf_round (s : State) (p : Bool) (e : LinkError) : (s.linkErrorIf p e).round = s.round := by unfold State.linkErrorIf; split <;> simp
@[simp] theorem linkErrorIf_link (s : State) (p : Bool) (e : LinkError) : (s.linkErrorIf p e).link = s.link := by unfold State.linkErrorIf; split <;> simp
@[simp] theorem linkErrorIf_roster (s : State) (p : Bool) (e : LinkError) : (s.linkErrorIf p e).roster = s.roster := by unfold State.linkErrorIf; split <;> simp
@[simp] theorem linkErrorIf_ownReport (s : State) (p : Bool) (e : LinkError) : (s.linkErrorIf p e).ownReport = s.ownReport := by unfold State.linkErrorIf; split <;> simp
@[simp] theorem linkErrorIf_trial (s : State) (p : Bool) (e : LinkError) : (s.linkErrorIf p e).trial = s.trial := by unfold State.linkErrorIf; split <;> simp
@[simp] theorem linkErrorIf_lastOutcome (s : State) (p : Bool) (e : LinkError) : (s.linkErrorIf p e).lastOutcome = s.lastOutcome := by unfold State.linkErrorIf; split <;> simp
@[simp] theorem linkErrorIf_seqCounter (s : State) (p : Bool) (e : LinkError) : (s.linkErrorIf p e).seqCounter = s.seqCounter := by unfold State.linkErrorIf; split <;> simp
@[simp] theorem linkErrorIf_inputs (s : State) (p : Bool) (e : LinkError) : (s.linkErrorIf p e).inputs = s.inputs := by unfold State.linkErrorIf; split <;> simp
@[simp] theorem linkErrorIf_counters (s : State) (p : Bool) (e : LinkError) : (s.linkErrorIf p e).counters = s.counters := by unfold State.linkErrorIf; split <;> simp
@[simp] theorem linkErrorIf_chans (s : State) (p : Bool) (e : LinkError) : (s.linkErrorIf p e).chans = s.chans := by unfold State.linkErrorIf; split <;> simp
@[simp] theorem linkErrorIf_meas (s : State) (p : Bool) (e : LinkError) : (s.linkErrorIf p e).meas = s.meas := by unfold State.linkErrorIf; split <;> simp
@[simp] theorem linkErrorIf_check (s : State) (p : Bool) (e : LinkError) : (s.linkErrorIf p e).check = s.check := by unfold State.linkErrorIf; split <;> simp
@[simp] theorem linkErrorIf_draw (s : State) (p : Bool) (e : LinkError) : (s.linkErrorIf p e).draw = s.draw := by unfold State.linkErrorIf; split <;> simp
@[simp] theorem linkErrorIf_trim (s : State) (p : Bool) (e : LinkError) : (s.linkErrorIf p e).trim = s.trim := by unfold State.linkErrorIf; split <;> simp
@[simp] theorem linkErrorIf_pwm (s : State) (p : Bool) (e : LinkError) : (s.linkErrorIf p e).pwm = s.pwm := by unfold State.linkErrorIf; split <;> simp
@[simp] theorem linkErrorIf_brk (s : State) (p : Bool) (e : LinkError) : (s.linkErrorIf p e).brk = s.brk := by unfold State.linkErrorIf; split <;> simp
@[simp] theorem linkErrorIf_log (s : State) (p : Bool) (e : LinkError) : (s.linkErrorIf p e).log = s.log := by unfold State.linkErrorIf; split <;> simp
@[simp] theorem linkErrorIf_pending (s : State) (p : Bool) (e : LinkError) : (s.linkErrorIf p e).pending = s.pending := by unfold State.linkErrorIf; split <;> simp
@[simp] theorem clearRoster_now (s : State) : (s.clearRoster).now = s.now := by simp [State.clearRoster]
@[simp] theorem clearRoster_power (s : State) : (s.clearRoster).power = s.power := by simp [State.clearRoster]
@[simp] theorem clearRoster_pins (s : State) : (s.clearRoster).pins = s.pins := by simp [State.clearRoster]
@[simp] theorem clearRoster_station (s : State) : (s.clearRoster).station = s.station := by simp [State.clearRoster]
@[simp] theorem clearRoster_config (s : State) : (s.clearRoster).config = s.config := by simp [State.clearRoster]
@[simp] theorem clearRoster_line (s : State) : (s.clearRoster).line = s.line := by simp [State.clearRoster]
@[simp] theorem clearRoster_round (s : State) : (s.clearRoster).round = s.round := by simp [State.clearRoster]
@[simp] theorem clearRoster_link (s : State) : (s.clearRoster).link = s.link := by simp [State.clearRoster]
@[simp] theorem clearRoster_ownReport (s : State) : (s.clearRoster).ownReport = s.ownReport := by simp [State.clearRoster]
@[simp] theorem clearRoster_trial (s : State) : (s.clearRoster).trial = s.trial := by simp [State.clearRoster]
@[simp] theorem clearRoster_lastOutcome (s : State) : (s.clearRoster).lastOutcome = s.lastOutcome := by simp [State.clearRoster]
@[simp] theorem clearRoster_seqCounter (s : State) : (s.clearRoster).seqCounter = s.seqCounter := by simp [State.clearRoster]
@[simp] theorem clearRoster_inputs (s : State) : (s.clearRoster).inputs = s.inputs := by simp [State.clearRoster]
@[simp] theorem clearRoster_counters (s : State) : (s.clearRoster).counters = s.counters := by simp [State.clearRoster]
@[simp] theorem clearRoster_chans (s : State) : (s.clearRoster).chans = s.chans := by simp [State.clearRoster]
@[simp] theorem clearRoster_meas (s : State) : (s.clearRoster).meas = s.meas := by simp [State.clearRoster]
@[simp] theorem clearRoster_check (s : State) : (s.clearRoster).check = s.check := by simp [State.clearRoster]
@[simp] theorem clearRoster_draw (s : State) : (s.clearRoster).draw = s.draw := by simp [State.clearRoster]
@[simp] theorem clearRoster_trim (s : State) : (s.clearRoster).trim = s.trim := by simp [State.clearRoster]
@[simp] theorem clearRoster_pwm (s : State) : (s.clearRoster).pwm = s.pwm := by simp [State.clearRoster]
@[simp] theorem clearRoster_brk (s : State) : (s.clearRoster).brk = s.brk := by simp [State.clearRoster]
@[simp] theorem clearRoster_log (s : State) : (s.clearRoster).log = s.log := by simp [State.clearRoster]
@[simp] theorem clearRoster_pending (s : State) : (s.clearRoster).pending = s.pending := by simp [State.clearRoster]
@[simp] theorem enterStandby_now (s : State) : (s.enterStandby).now = s.now := by simp [State.enterStandby]
@[simp] theorem enterStandby_power (s : State) : (s.enterStandby).power = s.power := by simp [State.enterStandby]
@[simp] theorem enterStandby_pins (s : State) : (s.enterStandby).pins = s.pins := by simp [State.enterStandby]
@[simp] theorem enterStandby_station (s : State) : (s.enterStandby).station = s.station := by simp [State.enterStandby]
@[simp] theorem enterStandby_config (s : State) : (s.enterStandby).config = s.config := by simp [State.enterStandby]
@[simp] theorem enterStandby_ownReport (s : State) : (s.enterStandby).ownReport = s.ownReport := by simp [State.enterStandby]
@[simp] theorem enterStandby_trial (s : State) : (s.enterStandby).trial = s.trial := by simp [State.enterStandby]
@[simp] theorem enterStandby_lastOutcome (s : State) : (s.enterStandby).lastOutcome = s.lastOutcome := by simp [State.enterStandby]
@[simp] theorem enterStandby_seqCounter (s : State) : (s.enterStandby).seqCounter = s.seqCounter := by simp [State.enterStandby]
@[simp] theorem enterStandby_inputs (s : State) : (s.enterStandby).inputs = s.inputs := by simp [State.enterStandby]
@[simp] theorem enterStandby_counters (s : State) : (s.enterStandby).counters = s.counters := by simp [State.enterStandby]
@[simp] theorem enterStandby_chans (s : State) : (s.enterStandby).chans = s.chans := by simp [State.enterStandby]
@[simp] theorem enterStandby_meas (s : State) : (s.enterStandby).meas = s.meas := by simp [State.enterStandby]
@[simp] theorem enterStandby_check (s : State) : (s.enterStandby).check = s.check := by simp [State.enterStandby]
@[simp] theorem enterStandby_draw (s : State) : (s.enterStandby).draw = s.draw := by simp [State.enterStandby]
@[simp] theorem enterStandby_trim (s : State) : (s.enterStandby).trim = s.trim := by simp [State.enterStandby]
@[simp] theorem enterStandby_pwm (s : State) : (s.enterStandby).pwm = s.pwm := by simp [State.enterStandby]
@[simp] theorem enterStandby_brk (s : State) : (s.enterStandby).brk = s.brk := by simp [State.enterStandby]
@[simp] theorem enterStandby_log (s : State) : (s.enterStandby).log = s.log := by simp [State.enterStandby]
@[simp] theorem enterStandby_pending (s : State) : (s.enterStandby).pending = s.pending := by simp [State.enterStandby]
@[simp] theorem leaveReady_now (s : State) (n : Channel) : (s.leaveReady n).now = s.now := by unfold State.leaveReady; split <;> simp
@[simp] theorem leaveReady_power (s : State) (n : Channel) : (s.leaveReady n).power = s.power := by unfold State.leaveReady; split <;> simp
@[simp] theorem leaveReady_pins (s : State) (n : Channel) : (s.leaveReady n).pins = s.pins := by unfold State.leaveReady; split <;> simp
@[simp] theorem leaveReady_station (s : State) (n : Channel) : (s.leaveReady n).station = s.station := by unfold State.leaveReady; split <;> simp
@[simp] theorem leaveReady_config (s : State) (n : Channel) : (s.leaveReady n).config = s.config := by unfold State.leaveReady; split <;> simp
@[simp] theorem leaveReady_line (s : State) (n : Channel) : (s.leaveReady n).line = s.line := by unfold State.leaveReady; split <;> simp
@[simp] theorem leaveReady_round (s : State) (n : Channel) : (s.leaveReady n).round = s.round := by unfold State.leaveReady; split <;> simp
@[simp] theorem leaveReady_link (s : State) (n : Channel) : (s.leaveReady n).link = s.link := by unfold State.leaveReady; split <;> simp
@[simp] theorem leaveReady_roster (s : State) (n : Channel) : (s.leaveReady n).roster = s.roster := by unfold State.leaveReady; split <;> simp
@[simp] theorem leaveReady_ownReport (s : State) (n : Channel) : (s.leaveReady n).ownReport = s.ownReport := by unfold State.leaveReady; split <;> simp
@[simp] theorem leaveReady_trial (s : State) (n : Channel) : (s.leaveReady n).trial = s.trial := by unfold State.leaveReady; split <;> simp
@[simp] theorem leaveReady_lastOutcome (s : State) (n : Channel) : (s.leaveReady n).lastOutcome = s.lastOutcome := by unfold State.leaveReady; split <;> simp
@[simp] theorem leaveReady_seqCounter (s : State) (n : Channel) : (s.leaveReady n).seqCounter = s.seqCounter := by unfold State.leaveReady; split <;> simp
@[simp] theorem leaveReady_inputs (s : State) (n : Channel) : (s.leaveReady n).inputs = s.inputs := by unfold State.leaveReady; split <;> simp
@[simp] theorem leaveReady_counters (s : State) (n : Channel) : (s.leaveReady n).counters = s.counters := by unfold State.leaveReady; split <;> simp
@[simp] theorem leaveReady_chans (s : State) (n : Channel) : (s.leaveReady n).chans = s.chans := by unfold State.leaveReady; split <;> simp
@[simp] theorem leaveReady_meas (s : State) (n : Channel) : (s.leaveReady n).meas = s.meas := by unfold State.leaveReady; split <;> simp
@[simp] theorem leaveReady_draw (s : State) (n : Channel) : (s.leaveReady n).draw = s.draw := by unfold State.leaveReady; split <;> simp
@[simp] theorem leaveReady_trim (s : State) (n : Channel) : (s.leaveReady n).trim = s.trim := by unfold State.leaveReady; split <;> simp
@[simp] theorem leaveReady_pwm (s : State) (n : Channel) : (s.leaveReady n).pwm = s.pwm := by unfold State.leaveReady; split <;> simp
@[simp] theorem leaveReady_brk (s : State) (n : Channel) : (s.leaveReady n).brk = s.brk := by unfold State.leaveReady; split <;> simp
@[simp] theorem leaveReady_log (s : State) (n : Channel) : (s.leaveReady n).log = s.log := by unfold State.leaveReady; split <;> simp
@[simp] theorem leaveReady_pending (s : State) (n : Channel) : (s.leaveReady n).pending = s.pending := by unfold State.leaveReady; split <;> simp
@[simp] theorem latchFault_now (s : State) (n : Channel) (c : FaultCause) : (s.latchFault n c).now = s.now := by simp [State.latchFault]
@[simp] theorem latchFault_power (s : State) (n : Channel) (c : FaultCause) : (s.latchFault n c).power = s.power := by simp [State.latchFault]
@[simp] theorem latchFault_pins (s : State) (n : Channel) (c : FaultCause) : (s.latchFault n c).pins = s.pins := by simp [State.latchFault]
@[simp] theorem latchFault_station (s : State) (n : Channel) (c : FaultCause) : (s.latchFault n c).station = s.station := by simp [State.latchFault]
@[simp] theorem latchFault_config (s : State) (n : Channel) (c : FaultCause) : (s.latchFault n c).config = s.config := by simp [State.latchFault]
@[simp] theorem latchFault_line (s : State) (n : Channel) (c : FaultCause) : (s.latchFault n c).line = s.line := by simp [State.latchFault]
@[simp] theorem latchFault_round (s : State) (n : Channel) (c : FaultCause) : (s.latchFault n c).round = s.round := by simp [State.latchFault]
@[simp] theorem latchFault_link (s : State) (n : Channel) (c : FaultCause) : (s.latchFault n c).link = s.link := by simp [State.latchFault]
@[simp] theorem latchFault_roster (s : State) (n : Channel) (c : FaultCause) : (s.latchFault n c).roster = s.roster := by simp [State.latchFault]
@[simp] theorem latchFault_ownReport (s : State) (n : Channel) (c : FaultCause) : (s.latchFault n c).ownReport = s.ownReport := by simp [State.latchFault]
@[simp] theorem latchFault_trial (s : State) (n : Channel) (c : FaultCause) : (s.latchFault n c).trial = s.trial := by simp [State.latchFault]
@[simp] theorem latchFault_lastOutcome (s : State) (n : Channel) (c : FaultCause) : (s.latchFault n c).lastOutcome = s.lastOutcome := by simp [State.latchFault]
@[simp] theorem latchFault_seqCounter (s : State) (n : Channel) (c : FaultCause) : (s.latchFault n c).seqCounter = s.seqCounter := by simp [State.latchFault]
@[simp] theorem latchFault_inputs (s : State) (n : Channel) (c : FaultCause) : (s.latchFault n c).inputs = s.inputs := by simp [State.latchFault]
@[simp] theorem latchFault_counters (s : State) (n : Channel) (c : FaultCause) : (s.latchFault n c).counters = s.counters := by simp [State.latchFault]
@[simp] theorem latchFault_meas (s : State) (n : Channel) (c : FaultCause) : (s.latchFault n c).meas = s.meas := by simp [State.latchFault]
@[simp] theorem latchFault_draw (s : State) (n : Channel) (c : FaultCause) : (s.latchFault n c).draw = s.draw := by simp [State.latchFault]
@[simp] theorem latchFault_trim (s : State) (n : Channel) (c : FaultCause) : (s.latchFault n c).trim = s.trim := by simp [State.latchFault]
@[simp] theorem latchFault_pwm (s : State) (n : Channel) (c : FaultCause) : (s.latchFault n c).pwm = s.pwm := by simp [State.latchFault]
@[simp] theorem latchFault_brk (s : State) (n : Channel) (c : FaultCause) : (s.latchFault n c).brk = s.brk := by simp [State.latchFault]
@[simp] theorem latchFault_log (s : State) (n : Channel) (c : FaultCause) : (s.latchFault n c).log = s.log := by simp [State.latchFault]
@[simp] theorem latchFault_pending (s : State) (n : Channel) (c : FaultCause) : (s.latchFault n c).pending = s.pending := by simp [State.latchFault]
@[simp] theorem appendRecord_now (s : State) (t : RecordType) (i : TrialId) (m : Sample) (o : TrialOutcome) (c : Byte) (g : Station) : (s.appendRecord t i m o c g).now = s.now := by unfold State.appendRecord; split <;> rfl
@[simp] theorem appendRecord_power (s : State) (t : RecordType) (i : TrialId) (m : Sample) (o : TrialOutcome) (c : Byte) (g : Station) : (s.appendRecord t i m o c g).power = s.power := by unfold State.appendRecord; split <;> rfl
@[simp] theorem appendRecord_pins (s : State) (t : RecordType) (i : TrialId) (m : Sample) (o : TrialOutcome) (c : Byte) (g : Station) : (s.appendRecord t i m o c g).pins = s.pins := by unfold State.appendRecord; split <;> rfl
@[simp] theorem appendRecord_station (s : State) (t : RecordType) (i : TrialId) (m : Sample) (o : TrialOutcome) (c : Byte) (g : Station) : (s.appendRecord t i m o c g).station = s.station := by unfold State.appendRecord; split <;> rfl
@[simp] theorem appendRecord_config (s : State) (t : RecordType) (i : TrialId) (m : Sample) (o : TrialOutcome) (c : Byte) (g : Station) : (s.appendRecord t i m o c g).config = s.config := by unfold State.appendRecord; split <;> rfl
@[simp] theorem appendRecord_line (s : State) (t : RecordType) (i : TrialId) (m : Sample) (o : TrialOutcome) (c : Byte) (g : Station) : (s.appendRecord t i m o c g).line = s.line := by unfold State.appendRecord; split <;> rfl
@[simp] theorem appendRecord_round (s : State) (t : RecordType) (i : TrialId) (m : Sample) (o : TrialOutcome) (c : Byte) (g : Station) : (s.appendRecord t i m o c g).round = s.round := by unfold State.appendRecord; split <;> rfl
@[simp] theorem appendRecord_link (s : State) (t : RecordType) (i : TrialId) (m : Sample) (o : TrialOutcome) (c : Byte) (g : Station) : (s.appendRecord t i m o c g).link = s.link := by unfold State.appendRecord; split <;> rfl
@[simp] theorem appendRecord_roster (s : State) (t : RecordType) (i : TrialId) (m : Sample) (o : TrialOutcome) (c : Byte) (g : Station) : (s.appendRecord t i m o c g).roster = s.roster := by unfold State.appendRecord; split <;> rfl
@[simp] theorem appendRecord_ownReport (s : State) (t : RecordType) (i : TrialId) (m : Sample) (o : TrialOutcome) (c : Byte) (g : Station) : (s.appendRecord t i m o c g).ownReport = s.ownReport := by unfold State.appendRecord; split <;> rfl
@[simp] theorem appendRecord_trial (s : State) (t : RecordType) (i : TrialId) (m : Sample) (o : TrialOutcome) (c : Byte) (g : Station) : (s.appendRecord t i m o c g).trial = s.trial := by unfold State.appendRecord; split <;> rfl
@[simp] theorem appendRecord_lastOutcome (s : State) (t : RecordType) (i : TrialId) (m : Sample) (o : TrialOutcome) (c : Byte) (g : Station) : (s.appendRecord t i m o c g).lastOutcome = s.lastOutcome := by unfold State.appendRecord; split <;> rfl
@[simp] theorem appendRecord_seqCounter (s : State) (t : RecordType) (i : TrialId) (m : Sample) (o : TrialOutcome) (c : Byte) (g : Station) : (s.appendRecord t i m o c g).seqCounter = s.seqCounter := by unfold State.appendRecord; split <;> rfl
@[simp] theorem appendRecord_inputs (s : State) (t : RecordType) (i : TrialId) (m : Sample) (o : TrialOutcome) (c : Byte) (g : Station) : (s.appendRecord t i m o c g).inputs = s.inputs := by unfold State.appendRecord; split <;> rfl
@[simp] theorem appendRecord_counters (s : State) (t : RecordType) (i : TrialId) (m : Sample) (o : TrialOutcome) (c : Byte) (g : Station) : (s.appendRecord t i m o c g).counters = s.counters := by unfold State.appendRecord; split <;> rfl
@[simp] theorem appendRecord_chans (s : State) (t : RecordType) (i : TrialId) (m : Sample) (o : TrialOutcome) (c : Byte) (g : Station) : (s.appendRecord t i m o c g).chans = s.chans := by unfold State.appendRecord; split <;> rfl
@[simp] theorem appendRecord_meas (s : State) (t : RecordType) (i : TrialId) (m : Sample) (o : TrialOutcome) (c : Byte) (g : Station) : (s.appendRecord t i m o c g).meas = s.meas := by unfold State.appendRecord; split <;> rfl
@[simp] theorem appendRecord_check (s : State) (t : RecordType) (i : TrialId) (m : Sample) (o : TrialOutcome) (c : Byte) (g : Station) : (s.appendRecord t i m o c g).check = s.check := by unfold State.appendRecord; split <;> rfl
@[simp] theorem appendRecord_draw (s : State) (t : RecordType) (i : TrialId) (m : Sample) (o : TrialOutcome) (c : Byte) (g : Station) : (s.appendRecord t i m o c g).draw = s.draw := by unfold State.appendRecord; split <;> rfl
@[simp] theorem appendRecord_trim (s : State) (t : RecordType) (i : TrialId) (m : Sample) (o : TrialOutcome) (c : Byte) (g : Station) : (s.appendRecord t i m o c g).trim = s.trim := by unfold State.appendRecord; split <;> rfl
@[simp] theorem appendRecord_pwm (s : State) (t : RecordType) (i : TrialId) (m : Sample) (o : TrialOutcome) (c : Byte) (g : Station) : (s.appendRecord t i m o c g).pwm = s.pwm := by unfold State.appendRecord; split <;> rfl
@[simp] theorem appendRecord_brk (s : State) (t : RecordType) (i : TrialId) (m : Sample) (o : TrialOutcome) (c : Byte) (g : Station) : (s.appendRecord t i m o c g).brk = s.brk := by unfold State.appendRecord; split <;> rfl
@[simp] theorem appendRecord_port (s : State) (t : RecordType) (i : TrialId) (m : Sample) (o : TrialOutcome) (c : Byte) (g : Station) : (s.appendRecord t i m o c g).port = s.port := by unfold State.appendRecord; split <;> rfl
@[simp] theorem appendRecord_pending (s : State) (t : RecordType) (i : TrialId) (m : Sample) (o : TrialOutcome) (c : Byte) (g : Station) : (s.appendRecord t i m o c g).pending = s.pending := by unfold State.appendRecord; split <;> rfl
@[simp] theorem appendClose_now (s : State) (i : TrialId) (o : TrialOutcome) (c : Byte) (g : Station) : (s.appendClose i o c g).now = s.now := by simp [State.appendClose]
@[simp] theorem appendClose_power (s : State) (i : TrialId) (o : TrialOutcome) (c : Byte) (g : Station) : (s.appendClose i o c g).power = s.power := by simp [State.appendClose]
@[simp] theorem appendClose_pins (s : State) (i : TrialId) (o : TrialOutcome) (c : Byte) (g : Station) : (s.appendClose i o c g).pins = s.pins := by simp [State.appendClose]
@[simp] theorem appendClose_station (s : State) (i : TrialId) (o : TrialOutcome) (c : Byte) (g : Station) : (s.appendClose i o c g).station = s.station := by simp [State.appendClose]
@[simp] theorem appendClose_config (s : State) (i : TrialId) (o : TrialOutcome) (c : Byte) (g : Station) : (s.appendClose i o c g).config = s.config := by simp [State.appendClose]
@[simp] theorem appendClose_line (s : State) (i : TrialId) (o : TrialOutcome) (c : Byte) (g : Station) : (s.appendClose i o c g).line = s.line := by simp [State.appendClose]
@[simp] theorem appendClose_round (s : State) (i : TrialId) (o : TrialOutcome) (c : Byte) (g : Station) : (s.appendClose i o c g).round = s.round := by simp [State.appendClose]
@[simp] theorem appendClose_link (s : State) (i : TrialId) (o : TrialOutcome) (c : Byte) (g : Station) : (s.appendClose i o c g).link = s.link := by simp [State.appendClose]
@[simp] theorem appendClose_roster (s : State) (i : TrialId) (o : TrialOutcome) (c : Byte) (g : Station) : (s.appendClose i o c g).roster = s.roster := by simp [State.appendClose]
@[simp] theorem appendClose_ownReport (s : State) (i : TrialId) (o : TrialOutcome) (c : Byte) (g : Station) : (s.appendClose i o c g).ownReport = s.ownReport := by simp [State.appendClose]
@[simp] theorem appendClose_trial (s : State) (i : TrialId) (o : TrialOutcome) (c : Byte) (g : Station) : (s.appendClose i o c g).trial = s.trial := by simp [State.appendClose]
@[simp] theorem appendClose_lastOutcome (s : State) (i : TrialId) (o : TrialOutcome) (c : Byte) (g : Station) : (s.appendClose i o c g).lastOutcome = s.lastOutcome := by simp [State.appendClose]
@[simp] theorem appendClose_seqCounter (s : State) (i : TrialId) (o : TrialOutcome) (c : Byte) (g : Station) : (s.appendClose i o c g).seqCounter = s.seqCounter := by simp [State.appendClose]
@[simp] theorem appendClose_inputs (s : State) (i : TrialId) (o : TrialOutcome) (c : Byte) (g : Station) : (s.appendClose i o c g).inputs = s.inputs := by simp [State.appendClose]
@[simp] theorem appendClose_counters (s : State) (i : TrialId) (o : TrialOutcome) (c : Byte) (g : Station) : (s.appendClose i o c g).counters = s.counters := by simp [State.appendClose]
@[simp] theorem appendClose_chans (s : State) (i : TrialId) (o : TrialOutcome) (c : Byte) (g : Station) : (s.appendClose i o c g).chans = s.chans := by simp [State.appendClose]
@[simp] theorem appendClose_meas (s : State) (i : TrialId) (o : TrialOutcome) (c : Byte) (g : Station) : (s.appendClose i o c g).meas = s.meas := by simp [State.appendClose]
@[simp] theorem appendClose_check (s : State) (i : TrialId) (o : TrialOutcome) (c : Byte) (g : Station) : (s.appendClose i o c g).check = s.check := by simp [State.appendClose]
@[simp] theorem appendClose_draw (s : State) (i : TrialId) (o : TrialOutcome) (c : Byte) (g : Station) : (s.appendClose i o c g).draw = s.draw := by simp [State.appendClose]
@[simp] theorem appendClose_trim (s : State) (i : TrialId) (o : TrialOutcome) (c : Byte) (g : Station) : (s.appendClose i o c g).trim = s.trim := by simp [State.appendClose]
@[simp] theorem appendClose_pwm (s : State) (i : TrialId) (o : TrialOutcome) (c : Byte) (g : Station) : (s.appendClose i o c g).pwm = s.pwm := by simp [State.appendClose]
@[simp] theorem appendClose_brk (s : State) (i : TrialId) (o : TrialOutcome) (c : Byte) (g : Station) : (s.appendClose i o c g).brk = s.brk := by simp [State.appendClose]
@[simp] theorem appendClose_pending (s : State) (i : TrialId) (o : TrialOutcome) (c : Byte) (g : Station) : (s.appendClose i o c g).pending = s.pending := by simp [State.appendClose]
@[simp] theorem appendRun_now (s : State) (i : TrialId) : (s.appendRun i).now = s.now := by simp [State.appendRun]
@[simp] theorem appendRun_power (s : State) (i : TrialId) : (s.appendRun i).power = s.power := by simp [State.appendRun]
@[simp] theorem appendRun_pins (s : State) (i : TrialId) : (s.appendRun i).pins = s.pins := by simp [State.appendRun]
@[simp] theorem appendRun_station (s : State) (i : TrialId) : (s.appendRun i).station = s.station := by simp [State.appendRun]
@[simp] theorem appendRun_config (s : State) (i : TrialId) : (s.appendRun i).config = s.config := by simp [State.appendRun]
@[simp] theorem appendRun_line (s : State) (i : TrialId) : (s.appendRun i).line = s.line := by simp [State.appendRun]
@[simp] theorem appendRun_round (s : State) (i : TrialId) : (s.appendRun i).round = s.round := by simp [State.appendRun]
@[simp] theorem appendRun_link (s : State) (i : TrialId) : (s.appendRun i).link = s.link := by simp [State.appendRun]
@[simp] theorem appendRun_roster (s : State) (i : TrialId) : (s.appendRun i).roster = s.roster := by simp [State.appendRun]
@[simp] theorem appendRun_ownReport (s : State) (i : TrialId) : (s.appendRun i).ownReport = s.ownReport := by simp [State.appendRun]
@[simp] theorem appendRun_trial (s : State) (i : TrialId) : (s.appendRun i).trial = s.trial := by simp [State.appendRun]
@[simp] theorem appendRun_lastOutcome (s : State) (i : TrialId) : (s.appendRun i).lastOutcome = s.lastOutcome := by simp [State.appendRun]
@[simp] theorem appendRun_seqCounter (s : State) (i : TrialId) : (s.appendRun i).seqCounter = s.seqCounter := by simp [State.appendRun]
@[simp] theorem appendRun_inputs (s : State) (i : TrialId) : (s.appendRun i).inputs = s.inputs := by simp [State.appendRun]
@[simp] theorem appendRun_counters (s : State) (i : TrialId) : (s.appendRun i).counters = s.counters := by simp [State.appendRun]
@[simp] theorem appendRun_chans (s : State) (i : TrialId) : (s.appendRun i).chans = s.chans := by simp [State.appendRun]
@[simp] theorem appendRun_meas (s : State) (i : TrialId) : (s.appendRun i).meas = s.meas := by simp [State.appendRun]
@[simp] theorem appendRun_check (s : State) (i : TrialId) : (s.appendRun i).check = s.check := by simp [State.appendRun]
@[simp] theorem appendRun_draw (s : State) (i : TrialId) : (s.appendRun i).draw = s.draw := by simp [State.appendRun]
@[simp] theorem appendRun_trim (s : State) (i : TrialId) : (s.appendRun i).trim = s.trim := by simp [State.appendRun]
@[simp] theorem appendRun_pwm (s : State) (i : TrialId) : (s.appendRun i).pwm = s.pwm := by simp [State.appendRun]
@[simp] theorem appendRun_brk (s : State) (i : TrialId) : (s.appendRun i).brk = s.brk := by simp [State.appendRun]
@[simp] theorem appendRun_port (s : State) (i : TrialId) : (s.appendRun i).port = s.port := by simp [State.appendRun]
@[simp] theorem appendRun_pending (s : State) (i : TrialId) : (s.appendRun i).pending = s.pending := by simp [State.appendRun]
@[simp] theorem moveRing_now (s : State) (i : TrialId) : (s.moveRing i).now = s.now := by simp [State.moveRing, foldl_keeps]
@[simp] theorem moveRing_power (s : State) (i : TrialId) : (s.moveRing i).power = s.power := by simp [State.moveRing, foldl_keeps]
@[simp] theorem moveRing_pins (s : State) (i : TrialId) : (s.moveRing i).pins = s.pins := by simp [State.moveRing, foldl_keeps]
@[simp] theorem moveRing_station (s : State) (i : TrialId) : (s.moveRing i).station = s.station := by simp [State.moveRing, foldl_keeps]
@[simp] theorem moveRing_config (s : State) (i : TrialId) : (s.moveRing i).config = s.config := by simp [State.moveRing, foldl_keeps]
@[simp] theorem moveRing_line (s : State) (i : TrialId) : (s.moveRing i).line = s.line := by simp [State.moveRing, foldl_keeps]
@[simp] theorem moveRing_round (s : State) (i : TrialId) : (s.moveRing i).round = s.round := by simp [State.moveRing, foldl_keeps]
@[simp] theorem moveRing_link (s : State) (i : TrialId) : (s.moveRing i).link = s.link := by simp [State.moveRing, foldl_keeps]
@[simp] theorem moveRing_roster (s : State) (i : TrialId) : (s.moveRing i).roster = s.roster := by simp [State.moveRing, foldl_keeps]
@[simp] theorem moveRing_ownReport (s : State) (i : TrialId) : (s.moveRing i).ownReport = s.ownReport := by simp [State.moveRing, foldl_keeps]
@[simp] theorem moveRing_trial (s : State) (i : TrialId) : (s.moveRing i).trial = s.trial := by simp [State.moveRing, foldl_keeps]
@[simp] theorem moveRing_lastOutcome (s : State) (i : TrialId) : (s.moveRing i).lastOutcome = s.lastOutcome := by simp [State.moveRing, foldl_keeps]
@[simp] theorem moveRing_seqCounter (s : State) (i : TrialId) : (s.moveRing i).seqCounter = s.seqCounter := by simp [State.moveRing, foldl_keeps]
@[simp] theorem moveRing_inputs (s : State) (i : TrialId) : (s.moveRing i).inputs = s.inputs := by simp [State.moveRing, foldl_keeps]
@[simp] theorem moveRing_counters (s : State) (i : TrialId) : (s.moveRing i).counters = s.counters := by simp [State.moveRing, foldl_keeps]
@[simp] theorem moveRing_chans (s : State) (i : TrialId) : (s.moveRing i).chans = s.chans := by simp [State.moveRing, foldl_keeps]
@[simp] theorem moveRing_meas (s : State) (i : TrialId) : (s.moveRing i).meas = s.meas := by simp [State.moveRing, foldl_keeps]
@[simp] theorem moveRing_check (s : State) (i : TrialId) : (s.moveRing i).check = s.check := by simp [State.moveRing, foldl_keeps]
@[simp] theorem moveRing_draw (s : State) (i : TrialId) : (s.moveRing i).draw = s.draw := by simp [State.moveRing, foldl_keeps]
@[simp] theorem moveRing_trim (s : State) (i : TrialId) : (s.moveRing i).trim = s.trim := by simp [State.moveRing, foldl_keeps]
@[simp] theorem moveRing_pwm (s : State) (i : TrialId) : (s.moveRing i).pwm = s.pwm := by simp [State.moveRing, foldl_keeps]
@[simp] theorem moveRing_brk (s : State) (i : TrialId) : (s.moveRing i).brk = s.brk := by simp [State.moveRing, foldl_keeps]
@[simp] theorem moveRing_port (s : State) (i : TrialId) : (s.moveRing i).port = s.port := by simp [State.moveRing, foldl_keeps]
@[simp] theorem moveRing_pending (s : State) (i : TrialId) : (s.moveRing i).pending = s.pending := by simp [State.moveRing, foldl_keeps]
@[simp] theorem ageRoster_now (s : State) : (s.ageRoster).now = s.now := by simp [State.ageRoster]
@[simp] theorem ageRoster_power (s : State) : (s.ageRoster).power = s.power := by simp [State.ageRoster]
@[simp] theorem ageRoster_pins (s : State) : (s.ageRoster).pins = s.pins := by simp [State.ageRoster]
@[simp] theorem ageRoster_station (s : State) : (s.ageRoster).station = s.station := by simp [State.ageRoster]
@[simp] theorem ageRoster_config (s : State) : (s.ageRoster).config = s.config := by simp [State.ageRoster]
@[simp] theorem ageRoster_line (s : State) : (s.ageRoster).line = s.line := by simp [State.ageRoster]
@[simp] theorem ageRoster_round (s : State) : (s.ageRoster).round = s.round := by simp [State.ageRoster]
@[simp] theorem ageRoster_link (s : State) : (s.ageRoster).link = s.link := by simp [State.ageRoster]
@[simp] theorem ageRoster_ownReport (s : State) : (s.ageRoster).ownReport = s.ownReport := by simp [State.ageRoster]
@[simp] theorem ageRoster_trial (s : State) : (s.ageRoster).trial = s.trial := by simp [State.ageRoster]
@[simp] theorem ageRoster_lastOutcome (s : State) : (s.ageRoster).lastOutcome = s.lastOutcome := by simp [State.ageRoster]
@[simp] theorem ageRoster_seqCounter (s : State) : (s.ageRoster).seqCounter = s.seqCounter := by simp [State.ageRoster]
@[simp] theorem ageRoster_inputs (s : State) : (s.ageRoster).inputs = s.inputs := by simp [State.ageRoster]
@[simp] theorem ageRoster_counters (s : State) : (s.ageRoster).counters = s.counters := by simp [State.ageRoster]
@[simp] theorem ageRoster_chans (s : State) : (s.ageRoster).chans = s.chans := by simp [State.ageRoster]
@[simp] theorem ageRoster_meas (s : State) : (s.ageRoster).meas = s.meas := by simp [State.ageRoster]
@[simp] theorem ageRoster_check (s : State) : (s.ageRoster).check = s.check := by simp [State.ageRoster]
@[simp] theorem ageRoster_draw (s : State) : (s.ageRoster).draw = s.draw := by simp [State.ageRoster]
@[simp] theorem ageRoster_trim (s : State) : (s.ageRoster).trim = s.trim := by simp [State.ageRoster]
@[simp] theorem ageRoster_pwm (s : State) : (s.ageRoster).pwm = s.pwm := by simp [State.ageRoster]
@[simp] theorem ageRoster_brk (s : State) : (s.ageRoster).brk = s.brk := by simp [State.ageRoster]
@[simp] theorem ageRoster_log (s : State) : (s.ageRoster).log = s.log := by simp [State.ageRoster]
@[simp] theorem ageRoster_pending (s : State) : (s.ageRoster).pending = s.pending := by simp [State.ageRoster]
@[simp] theorem storeReport_now (s : State) (t : Station) (r : Report) : (s.storeReport t r).now = s.now := by unfold State.storeReport; dsimp only; split <;> simp
@[simp] theorem storeReport_power (s : State) (t : Station) (r : Report) : (s.storeReport t r).power = s.power := by unfold State.storeReport; dsimp only; split <;> simp
@[simp] theorem storeReport_pins (s : State) (t : Station) (r : Report) : (s.storeReport t r).pins = s.pins := by unfold State.storeReport; dsimp only; split <;> simp
@[simp] theorem storeReport_station (s : State) (t : Station) (r : Report) : (s.storeReport t r).station = s.station := by unfold State.storeReport; dsimp only; split <;> simp
@[simp] theorem storeReport_config (s : State) (t : Station) (r : Report) : (s.storeReport t r).config = s.config := by unfold State.storeReport; dsimp only; split <;> simp
@[simp] theorem storeReport_line (s : State) (t : Station) (r : Report) : (s.storeReport t r).line = s.line := by unfold State.storeReport; dsimp only; split <;> simp
@[simp] theorem storeReport_round (s : State) (t : Station) (r : Report) : (s.storeReport t r).round = s.round := by unfold State.storeReport; dsimp only; split <;> simp
@[simp] theorem storeReport_link (s : State) (t : Station) (r : Report) : (s.storeReport t r).link = s.link := by unfold State.storeReport; dsimp only; split <;> simp
@[simp] theorem storeReport_ownReport (s : State) (t : Station) (r : Report) : (s.storeReport t r).ownReport = s.ownReport := by unfold State.storeReport; dsimp only; split <;> simp
@[simp] theorem storeReport_trial (s : State) (t : Station) (r : Report) : (s.storeReport t r).trial = s.trial := by unfold State.storeReport; dsimp only; split <;> simp
@[simp] theorem storeReport_lastOutcome (s : State) (t : Station) (r : Report) : (s.storeReport t r).lastOutcome = s.lastOutcome := by unfold State.storeReport; dsimp only; split <;> simp
@[simp] theorem storeReport_seqCounter (s : State) (t : Station) (r : Report) : (s.storeReport t r).seqCounter = s.seqCounter := by unfold State.storeReport; dsimp only; split <;> simp
@[simp] theorem storeReport_inputs (s : State) (t : Station) (r : Report) : (s.storeReport t r).inputs = s.inputs := by unfold State.storeReport; dsimp only; split <;> simp
@[simp] theorem storeReport_counters (s : State) (t : Station) (r : Report) : (s.storeReport t r).counters = s.counters := by unfold State.storeReport; dsimp only; split <;> simp
@[simp] theorem storeReport_chans (s : State) (t : Station) (r : Report) : (s.storeReport t r).chans = s.chans := by unfold State.storeReport; dsimp only; split <;> simp
@[simp] theorem storeReport_meas (s : State) (t : Station) (r : Report) : (s.storeReport t r).meas = s.meas := by unfold State.storeReport; dsimp only; split <;> simp
@[simp] theorem storeReport_check (s : State) (t : Station) (r : Report) : (s.storeReport t r).check = s.check := by unfold State.storeReport; dsimp only; split <;> simp
@[simp] theorem storeReport_draw (s : State) (t : Station) (r : Report) : (s.storeReport t r).draw = s.draw := by unfold State.storeReport; dsimp only; split <;> simp
@[simp] theorem storeReport_trim (s : State) (t : Station) (r : Report) : (s.storeReport t r).trim = s.trim := by unfold State.storeReport; dsimp only; split <;> simp
@[simp] theorem storeReport_pwm (s : State) (t : Station) (r : Report) : (s.storeReport t r).pwm = s.pwm := by unfold State.storeReport; dsimp only; split <;> simp
@[simp] theorem storeReport_brk (s : State) (t : Station) (r : Report) : (s.storeReport t r).brk = s.brk := by unfold State.storeReport; dsimp only; split <;> simp
@[simp] theorem storeReport_log (s : State) (t : Station) (r : Report) : (s.storeReport t r).log = s.log := by unfold State.storeReport; dsimp only; split <;> simp
@[simp] theorem storeReport_pending (s : State) (t : Station) (r : Report) : (s.storeReport t r).pending = s.pending := by unfold State.storeReport; dsimp only; split <;> simp
@[simp] theorem deliver_now (s : State) (t : Station) (f : List Byte) : (s.deliver t f).now = s.now := by unfold State.deliver; split <;> simp
@[simp] theorem deliver_power (s : State) (t : Station) (f : List Byte) : (s.deliver t f).power = s.power := by unfold State.deliver; split <;> simp
@[simp] theorem deliver_pins (s : State) (t : Station) (f : List Byte) : (s.deliver t f).pins = s.pins := by unfold State.deliver; split <;> simp
@[simp] theorem deliver_station (s : State) (t : Station) (f : List Byte) : (s.deliver t f).station = s.station := by unfold State.deliver; split <;> simp
@[simp] theorem deliver_config (s : State) (t : Station) (f : List Byte) : (s.deliver t f).config = s.config := by unfold State.deliver; split <;> simp
@[simp] theorem deliver_line (s : State) (t : Station) (f : List Byte) : (s.deliver t f).line = s.line := by unfold State.deliver; split <;> simp
@[simp] theorem deliver_round (s : State) (t : Station) (f : List Byte) : (s.deliver t f).round = s.round := by unfold State.deliver; split <;> simp
@[simp] theorem deliver_link (s : State) (t : Station) (f : List Byte) : (s.deliver t f).link = s.link := by unfold State.deliver; split <;> simp
@[simp] theorem deliver_ownReport (s : State) (t : Station) (f : List Byte) : (s.deliver t f).ownReport = s.ownReport := by unfold State.deliver; split <;> simp
@[simp] theorem deliver_trial (s : State) (t : Station) (f : List Byte) : (s.deliver t f).trial = s.trial := by unfold State.deliver; split <;> simp
@[simp] theorem deliver_lastOutcome (s : State) (t : Station) (f : List Byte) : (s.deliver t f).lastOutcome = s.lastOutcome := by unfold State.deliver; split <;> simp
@[simp] theorem deliver_seqCounter (s : State) (t : Station) (f : List Byte) : (s.deliver t f).seqCounter = s.seqCounter := by unfold State.deliver; split <;> simp
@[simp] theorem deliver_inputs (s : State) (t : Station) (f : List Byte) : (s.deliver t f).inputs = s.inputs := by unfold State.deliver; split <;> simp
@[simp] theorem deliver_counters (s : State) (t : Station) (f : List Byte) : (s.deliver t f).counters = s.counters := by unfold State.deliver; split <;> simp
@[simp] theorem deliver_chans (s : State) (t : Station) (f : List Byte) : (s.deliver t f).chans = s.chans := by unfold State.deliver; split <;> simp
@[simp] theorem deliver_meas (s : State) (t : Station) (f : List Byte) : (s.deliver t f).meas = s.meas := by unfold State.deliver; split <;> simp
@[simp] theorem deliver_check (s : State) (t : Station) (f : List Byte) : (s.deliver t f).check = s.check := by unfold State.deliver; split <;> simp
@[simp] theorem deliver_draw (s : State) (t : Station) (f : List Byte) : (s.deliver t f).draw = s.draw := by unfold State.deliver; split <;> simp
@[simp] theorem deliver_trim (s : State) (t : Station) (f : List Byte) : (s.deliver t f).trim = s.trim := by unfold State.deliver; split <;> simp
@[simp] theorem deliver_pwm (s : State) (t : Station) (f : List Byte) : (s.deliver t f).pwm = s.pwm := by unfold State.deliver; split <;> simp
@[simp] theorem deliver_brk (s : State) (t : Station) (f : List Byte) : (s.deliver t f).brk = s.brk := by unfold State.deliver; split <;> simp
@[simp] theorem deliver_log (s : State) (t : Station) (f : List Byte) : (s.deliver t f).log = s.log := by unfold State.deliver; split <;> simp
@[simp] theorem deliver_pending (s : State) (t : Station) (f : List Byte) : (s.deliver t f).pending = s.pending := by unfold State.deliver; split <;> simp
@[simp] theorem ownFrameDone_now (s : State) (r : Report) : (s.ownFrameDone r).now = s.now := by unfold State.ownFrameDone; dsimp only; split <;> split <;> rfl
@[simp] theorem ownFrameDone_power (s : State) (r : Report) : (s.ownFrameDone r).power = s.power := by unfold State.ownFrameDone; dsimp only; split <;> split <;> rfl
@[simp] theorem ownFrameDone_pins (s : State) (r : Report) : (s.ownFrameDone r).pins = s.pins := by unfold State.ownFrameDone; dsimp only; split <;> split <;> rfl
@[simp] theorem ownFrameDone_station (s : State) (r : Report) : (s.ownFrameDone r).station = s.station := by unfold State.ownFrameDone; dsimp only; split <;> split <;> rfl
@[simp] theorem ownFrameDone_config (s : State) (r : Report) : (s.ownFrameDone r).config = s.config := by unfold State.ownFrameDone; dsimp only; split <;> split <;> rfl
@[simp] theorem ownFrameDone_line (s : State) (r : Report) : (s.ownFrameDone r).line = s.line := by unfold State.ownFrameDone; dsimp only; split <;> split <;> rfl
@[simp] theorem ownFrameDone_round (s : State) (r : Report) : (s.ownFrameDone r).round = s.round := by unfold State.ownFrameDone; dsimp only; split <;> split <;> rfl
@[simp] theorem ownFrameDone_ownReport (s : State) (r : Report) : (s.ownFrameDone r).ownReport = s.ownReport := by unfold State.ownFrameDone; dsimp only; split <;> split <;> rfl
@[simp] theorem ownFrameDone_lastOutcome (s : State) (r : Report) : (s.ownFrameDone r).lastOutcome = s.lastOutcome := by unfold State.ownFrameDone; dsimp only; split <;> split <;> rfl
@[simp] theorem ownFrameDone_seqCounter (s : State) (r : Report) : (s.ownFrameDone r).seqCounter = s.seqCounter := by unfold State.ownFrameDone; dsimp only; split <;> split <;> rfl
@[simp] theorem ownFrameDone_inputs (s : State) (r : Report) : (s.ownFrameDone r).inputs = s.inputs := by unfold State.ownFrameDone; dsimp only; split <;> split <;> rfl
@[simp] theorem ownFrameDone_counters (s : State) (r : Report) : (s.ownFrameDone r).counters = s.counters := by unfold State.ownFrameDone; dsimp only; split <;> split <;> rfl
@[simp] theorem ownFrameDone_chans (s : State) (r : Report) : (s.ownFrameDone r).chans = s.chans := by unfold State.ownFrameDone; dsimp only; split <;> split <;> rfl
@[simp] theorem ownFrameDone_meas (s : State) (r : Report) : (s.ownFrameDone r).meas = s.meas := by unfold State.ownFrameDone; dsimp only; split <;> split <;> rfl
@[simp] theorem ownFrameDone_check (s : State) (r : Report) : (s.ownFrameDone r).check = s.check := by unfold State.ownFrameDone; dsimp only; split <;> split <;> rfl
@[simp] theorem ownFrameDone_draw (s : State) (r : Report) : (s.ownFrameDone r).draw = s.draw := by unfold State.ownFrameDone; dsimp only; split <;> split <;> rfl
@[simp] theorem ownFrameDone_trim (s : State) (r : Report) : (s.ownFrameDone r).trim = s.trim := by unfold State.ownFrameDone; dsimp only; split <;> split <;> rfl
@[simp] theorem ownFrameDone_pwm (s : State) (r : Report) : (s.ownFrameDone r).pwm = s.pwm := by unfold State.ownFrameDone; dsimp only; split <;> split <;> rfl
@[simp] theorem ownFrameDone_brk (s : State) (r : Report) : (s.ownFrameDone r).brk = s.brk := by unfold State.ownFrameDone; dsimp only; split <;> split <;> rfl
@[simp] theorem ownFrameDone_log (s : State) (r : Report) : (s.ownFrameDone r).log = s.log := by unfold State.ownFrameDone; dsimp only; split <;> split <;> rfl
@[simp] theorem ownFrameDone_port (s : State) (r : Report) : (s.ownFrameDone r).port = s.port := by unfold State.ownFrameDone; dsimp only; split <;> split <;> rfl
@[simp] theorem ownFrameDone_pending (s : State) (r : Report) : (s.ownFrameDone r).pending = s.pending := by unfold State.ownFrameDone; dsimp only; split <;> split <;> rfl
@[simp] theorem countBoundary_now (s : State) (k : BoundaryKind) (o : SlotObservation) : (s.countBoundary k o).now = s.now := by unfold State.countBoundary; dsimp only; split <;> rfl
@[simp] theorem countBoundary_power (s : State) (k : BoundaryKind) (o : SlotObservation) : (s.countBoundary k o).power = s.power := by unfold State.countBoundary; dsimp only; split <;> rfl
@[simp] theorem countBoundary_pins (s : State) (k : BoundaryKind) (o : SlotObservation) : (s.countBoundary k o).pins = s.pins := by unfold State.countBoundary; dsimp only; split <;> rfl
@[simp] theorem countBoundary_station (s : State) (k : BoundaryKind) (o : SlotObservation) : (s.countBoundary k o).station = s.station := by unfold State.countBoundary; dsimp only; split <;> rfl
@[simp] theorem countBoundary_config (s : State) (k : BoundaryKind) (o : SlotObservation) : (s.countBoundary k o).config = s.config := by unfold State.countBoundary; dsimp only; split <;> rfl
@[simp] theorem countBoundary_line (s : State) (k : BoundaryKind) (o : SlotObservation) : (s.countBoundary k o).line = s.line := by unfold State.countBoundary; dsimp only; split <;> rfl
@[simp] theorem countBoundary_round (s : State) (k : BoundaryKind) (o : SlotObservation) : (s.countBoundary k o).round = s.round := by unfold State.countBoundary; dsimp only; split <;> rfl
@[simp] theorem countBoundary_roster (s : State) (k : BoundaryKind) (o : SlotObservation) : (s.countBoundary k o).roster = s.roster := by unfold State.countBoundary; dsimp only; split <;> rfl
@[simp] theorem countBoundary_ownReport (s : State) (k : BoundaryKind) (o : SlotObservation) : (s.countBoundary k o).ownReport = s.ownReport := by unfold State.countBoundary; dsimp only; split <;> rfl
@[simp] theorem countBoundary_trial (s : State) (k : BoundaryKind) (o : SlotObservation) : (s.countBoundary k o).trial = s.trial := by unfold State.countBoundary; dsimp only; split <;> rfl
@[simp] theorem countBoundary_lastOutcome (s : State) (k : BoundaryKind) (o : SlotObservation) : (s.countBoundary k o).lastOutcome = s.lastOutcome := by unfold State.countBoundary; dsimp only; split <;> rfl
@[simp] theorem countBoundary_seqCounter (s : State) (k : BoundaryKind) (o : SlotObservation) : (s.countBoundary k o).seqCounter = s.seqCounter := by unfold State.countBoundary; dsimp only; split <;> rfl
@[simp] theorem countBoundary_inputs (s : State) (k : BoundaryKind) (o : SlotObservation) : (s.countBoundary k o).inputs = s.inputs := by unfold State.countBoundary; dsimp only; split <;> rfl
@[simp] theorem countBoundary_counters (s : State) (k : BoundaryKind) (o : SlotObservation) : (s.countBoundary k o).counters = s.counters := by unfold State.countBoundary; dsimp only; split <;> rfl
@[simp] theorem countBoundary_chans (s : State) (k : BoundaryKind) (o : SlotObservation) : (s.countBoundary k o).chans = s.chans := by unfold State.countBoundary; dsimp only; split <;> rfl
@[simp] theorem countBoundary_meas (s : State) (k : BoundaryKind) (o : SlotObservation) : (s.countBoundary k o).meas = s.meas := by unfold State.countBoundary; dsimp only; split <;> rfl
@[simp] theorem countBoundary_check (s : State) (k : BoundaryKind) (o : SlotObservation) : (s.countBoundary k o).check = s.check := by unfold State.countBoundary; dsimp only; split <;> rfl
@[simp] theorem countBoundary_draw (s : State) (k : BoundaryKind) (o : SlotObservation) : (s.countBoundary k o).draw = s.draw := by unfold State.countBoundary; dsimp only; split <;> rfl
@[simp] theorem countBoundary_trim (s : State) (k : BoundaryKind) (o : SlotObservation) : (s.countBoundary k o).trim = s.trim := by unfold State.countBoundary; dsimp only; split <;> rfl
@[simp] theorem countBoundary_pwm (s : State) (k : BoundaryKind) (o : SlotObservation) : (s.countBoundary k o).pwm = s.pwm := by unfold State.countBoundary; dsimp only; split <;> rfl
@[simp] theorem countBoundary_brk (s : State) (k : BoundaryKind) (o : SlotObservation) : (s.countBoundary k o).brk = s.brk := by unfold State.countBoundary; dsimp only; split <;> rfl
@[simp] theorem countBoundary_log (s : State) (k : BoundaryKind) (o : SlotObservation) : (s.countBoundary k o).log = s.log := by unfold State.countBoundary; dsimp only; split <;> rfl
@[simp] theorem countBoundary_pending (s : State) (k : BoundaryKind) (o : SlotObservation) : (s.countBoundary k o).pending = s.pending := by unfold State.countBoundary; dsimp only; split <;> rfl
@[simp] theorem completeLeave_now (s : State) : (s.completeLeave).now = s.now := by simp [State.completeLeave]
@[simp] theorem completeLeave_power (s : State) : (s.completeLeave).power = s.power := by simp [State.completeLeave]
@[simp] theorem completeLeave_pins (s : State) : (s.completeLeave).pins = s.pins := by simp [State.completeLeave]
@[simp] theorem completeLeave_station (s : State) : (s.completeLeave).station = s.station := by simp [State.completeLeave]
@[simp] theorem completeLeave_config (s : State) : (s.completeLeave).config = s.config := by simp [State.completeLeave]
@[simp] theorem completeLeave_ownReport (s : State) : (s.completeLeave).ownReport = s.ownReport := by simp [State.completeLeave]
@[simp] theorem completeLeave_trial (s : State) : (s.completeLeave).trial = s.trial := by simp [State.completeLeave]
@[simp] theorem completeLeave_lastOutcome (s : State) : (s.completeLeave).lastOutcome = s.lastOutcome := by simp [State.completeLeave]
@[simp] theorem completeLeave_seqCounter (s : State) : (s.completeLeave).seqCounter = s.seqCounter := by simp [State.completeLeave]
@[simp] theorem completeLeave_inputs (s : State) : (s.completeLeave).inputs = s.inputs := by simp [State.completeLeave]
@[simp] theorem completeLeave_counters (s : State) : (s.completeLeave).counters = s.counters := by simp [State.completeLeave]
@[simp] theorem completeLeave_chans (s : State) : (s.completeLeave).chans = s.chans := by simp [State.completeLeave]
@[simp] theorem completeLeave_meas (s : State) : (s.completeLeave).meas = s.meas := by simp [State.completeLeave]
@[simp] theorem completeLeave_check (s : State) : (s.completeLeave).check = s.check := by simp [State.completeLeave]
@[simp] theorem completeLeave_draw (s : State) : (s.completeLeave).draw = s.draw := by simp [State.completeLeave]
@[simp] theorem completeLeave_trim (s : State) : (s.completeLeave).trim = s.trim := by simp [State.completeLeave]
@[simp] theorem completeLeave_pwm (s : State) : (s.completeLeave).pwm = s.pwm := by simp [State.completeLeave]
@[simp] theorem completeLeave_brk (s : State) : (s.completeLeave).brk = s.brk := by simp [State.completeLeave]
@[simp] theorem completeLeave_log (s : State) : (s.completeLeave).log = s.log := by simp [State.completeLeave]
@[simp] theorem completeLeave_pending (s : State) : (s.completeLeave).pending = s.pending := by simp [State.completeLeave]
@[simp] theorem judgeChannels_now (s : State) : (s.judgeChannels).now = s.now := foldl_keeps _ (·.now) (fun t n => by split <;> simp) _ _
@[simp] theorem judgeChannels_power (s : State) : (s.judgeChannels).power = s.power := foldl_keeps _ (·.power) (fun t n => by split <;> simp) _ _
@[simp] theorem judgeChannels_pins (s : State) : (s.judgeChannels).pins = s.pins := foldl_keeps _ (·.pins) (fun t n => by split <;> simp) _ _
@[simp] theorem judgeChannels_station (s : State) : (s.judgeChannels).station = s.station := foldl_keeps _ (·.station) (fun t n => by split <;> simp) _ _
@[simp] theorem judgeChannels_config (s : State) : (s.judgeChannels).config = s.config := foldl_keeps _ (·.config) (fun t n => by split <;> simp) _ _
@[simp] theorem judgeChannels_line (s : State) : (s.judgeChannels).line = s.line := foldl_keeps _ (·.line) (fun t n => by split <;> simp) _ _
@[simp] theorem judgeChannels_round (s : State) : (s.judgeChannels).round = s.round := foldl_keeps _ (·.round) (fun t n => by split <;> simp) _ _
@[simp] theorem judgeChannels_link (s : State) : (s.judgeChannels).link = s.link := foldl_keeps _ (·.link) (fun t n => by split <;> simp) _ _
@[simp] theorem judgeChannels_roster (s : State) : (s.judgeChannels).roster = s.roster := foldl_keeps _ (·.roster) (fun t n => by split <;> simp) _ _
@[simp] theorem judgeChannels_ownReport (s : State) : (s.judgeChannels).ownReport = s.ownReport := foldl_keeps _ (·.ownReport) (fun t n => by split <;> simp) _ _
@[simp] theorem judgeChannels_trial (s : State) : (s.judgeChannels).trial = s.trial := foldl_keeps _ (·.trial) (fun t n => by split <;> simp) _ _
@[simp] theorem judgeChannels_lastOutcome (s : State) : (s.judgeChannels).lastOutcome = s.lastOutcome := foldl_keeps _ (·.lastOutcome) (fun t n => by split <;> simp) _ _
@[simp] theorem judgeChannels_seqCounter (s : State) : (s.judgeChannels).seqCounter = s.seqCounter := foldl_keeps _ (·.seqCounter) (fun t n => by split <;> simp) _ _
@[simp] theorem judgeChannels_inputs (s : State) : (s.judgeChannels).inputs = s.inputs := foldl_keeps _ (·.inputs) (fun t n => by split <;> simp) _ _
@[simp] theorem judgeChannels_counters (s : State) : (s.judgeChannels).counters = s.counters := foldl_keeps _ (·.counters) (fun t n => by split <;> simp) _ _
@[simp] theorem judgeChannels_draw (s : State) : (s.judgeChannels).draw = s.draw := foldl_keeps _ (·.draw) (fun t n => by split <;> simp) _ _
@[simp] theorem judgeChannels_trim (s : State) : (s.judgeChannels).trim = s.trim := foldl_keeps _ (·.trim) (fun t n => by split <;> simp) _ _
@[simp] theorem judgeChannels_pwm (s : State) : (s.judgeChannels).pwm = s.pwm := foldl_keeps _ (·.pwm) (fun t n => by split <;> simp) _ _
@[simp] theorem judgeChannels_brk (s : State) : (s.judgeChannels).brk = s.brk := foldl_keeps _ (·.brk) (fun t n => by split <;> simp) _ _
@[simp] theorem judgeChannels_log (s : State) : (s.judgeChannels).log = s.log := foldl_keeps _ (·.log) (fun t n => by split <;> simp) _ _
@[simp] theorem judgeChannels_pending (s : State) : (s.judgeChannels).pending = s.pending := foldl_keeps _ (·.pending) (fun t n => by split <;> simp) _ _
@[simp] theorem judgeShares_now (s : State) : (s.judgeShares).now = s.now := by unfold State.judgeShares; dsimp only; split <;> simp
@[simp] theorem judgeShares_power (s : State) : (s.judgeShares).power = s.power := by unfold State.judgeShares; dsimp only; split <;> simp
@[simp] theorem judgeShares_pins (s : State) : (s.judgeShares).pins = s.pins := by unfold State.judgeShares; dsimp only; split <;> simp
@[simp] theorem judgeShares_station (s : State) : (s.judgeShares).station = s.station := by unfold State.judgeShares; dsimp only; split <;> simp
@[simp] theorem judgeShares_config (s : State) : (s.judgeShares).config = s.config := by unfold State.judgeShares; dsimp only; split <;> simp
@[simp] theorem judgeShares_line (s : State) : (s.judgeShares).line = s.line := by unfold State.judgeShares; dsimp only; split <;> simp
@[simp] theorem judgeShares_round (s : State) : (s.judgeShares).round = s.round := by unfold State.judgeShares; dsimp only; split <;> simp
@[simp] theorem judgeShares_link (s : State) : (s.judgeShares).link = s.link := by unfold State.judgeShares; dsimp only; split <;> simp
@[simp] theorem judgeShares_roster (s : State) : (s.judgeShares).roster = s.roster := by unfold State.judgeShares; dsimp only; split <;> simp
@[simp] theorem judgeShares_ownReport (s : State) : (s.judgeShares).ownReport = s.ownReport := by unfold State.judgeShares; dsimp only; split <;> simp
@[simp] theorem judgeShares_trial (s : State) : (s.judgeShares).trial = s.trial := by unfold State.judgeShares; dsimp only; split <;> simp
@[simp] theorem judgeShares_lastOutcome (s : State) : (s.judgeShares).lastOutcome = s.lastOutcome := by unfold State.judgeShares; dsimp only; split <;> simp
@[simp] theorem judgeShares_seqCounter (s : State) : (s.judgeShares).seqCounter = s.seqCounter := by unfold State.judgeShares; dsimp only; split <;> simp
@[simp] theorem judgeShares_inputs (s : State) : (s.judgeShares).inputs = s.inputs := by unfold State.judgeShares; dsimp only; split <;> simp
@[simp] theorem judgeShares_counters (s : State) : (s.judgeShares).counters = s.counters := by unfold State.judgeShares; dsimp only; split <;> simp
@[simp] theorem judgeShares_chans (s : State) : (s.judgeShares).chans = s.chans := by unfold State.judgeShares; dsimp only; split <;> simp
@[simp] theorem judgeShares_check (s : State) : (s.judgeShares).check = s.check := by unfold State.judgeShares; dsimp only; split <;> simp
@[simp] theorem judgeShares_draw (s : State) : (s.judgeShares).draw = s.draw := by unfold State.judgeShares; dsimp only; split <;> simp
@[simp] theorem judgeShares_trim (s : State) : (s.judgeShares).trim = s.trim := by unfold State.judgeShares; dsimp only; split <;> simp
@[simp] theorem judgeShares_pwm (s : State) : (s.judgeShares).pwm = s.pwm := by unfold State.judgeShares; dsimp only; split <;> simp
@[simp] theorem judgeShares_brk (s : State) : (s.judgeShares).brk = s.brk := by unfold State.judgeShares; dsimp only; split <;> simp
@[simp] theorem judgeShares_log (s : State) : (s.judgeShares).log = s.log := by unfold State.judgeShares; dsimp only; split <;> simp
@[simp] theorem judgeShares_pending (s : State) : (s.judgeShares).pending = s.pending := by unfold State.judgeShares; dsimp only; split <;> simp
@[simp] theorem measure_now (s : State) (T : Nat) : (s.measure T).now = s.now := by simp [State.measure]
@[simp] theorem measure_power (s : State) (T : Nat) : (s.measure T).power = s.power := by simp [State.measure]
@[simp] theorem measure_pins (s : State) (T : Nat) : (s.measure T).pins = s.pins := by simp [State.measure]
@[simp] theorem measure_station (s : State) (T : Nat) : (s.measure T).station = s.station := by simp [State.measure]
@[simp] theorem measure_config (s : State) (T : Nat) : (s.measure T).config = s.config := by simp [State.measure]
@[simp] theorem measure_line (s : State) (T : Nat) : (s.measure T).line = s.line := by simp [State.measure]
@[simp] theorem measure_round (s : State) (T : Nat) : (s.measure T).round = s.round := by simp [State.measure]
@[simp] theorem measure_link (s : State) (T : Nat) : (s.measure T).link = s.link := by simp [State.measure]
@[simp] theorem measure_roster (s : State) (T : Nat) : (s.measure T).roster = s.roster := by simp [State.measure]
@[simp] theorem measure_ownReport (s : State) (T : Nat) : (s.measure T).ownReport = s.ownReport := by simp [State.measure]
@[simp] theorem measure_trial (s : State) (T : Nat) : (s.measure T).trial = s.trial := by simp [State.measure]
@[simp] theorem measure_lastOutcome (s : State) (T : Nat) : (s.measure T).lastOutcome = s.lastOutcome := by simp [State.measure]
@[simp] theorem measure_seqCounter (s : State) (T : Nat) : (s.measure T).seqCounter = s.seqCounter := by simp [State.measure]
@[simp] theorem measure_inputs (s : State) (T : Nat) : (s.measure T).inputs = s.inputs := by simp [State.measure]
@[simp] theorem measure_draw (s : State) (T : Nat) : (s.measure T).draw = s.draw := by simp [State.measure]
@[simp] theorem measure_trim (s : State) (T : Nat) : (s.measure T).trim = s.trim := by simp [State.measure]
@[simp] theorem measure_pwm (s : State) (T : Nat) : (s.measure T).pwm = s.pwm := by simp [State.measure]
@[simp] theorem measure_brk (s : State) (T : Nat) : (s.measure T).brk = s.brk := by simp [State.measure]
@[simp] theorem measure_log (s : State) (T : Nat) : (s.measure T).log = s.log := by simp [State.measure]
@[simp] theorem measure_pending (s : State) (T : Nat) : (s.measure T).pending = s.pending := by simp [State.measure]
@[simp] theorem measureDraw_now (s : State) : (s.measureDraw).now = s.now := by unfold State.measureDraw; dsimp only; split <;> simp
@[simp] theorem measureDraw_power (s : State) : (s.measureDraw).power = s.power := by unfold State.measureDraw; dsimp only; split <;> simp
@[simp] theorem measureDraw_pins (s : State) : (s.measureDraw).pins = s.pins := by unfold State.measureDraw; dsimp only; split <;> simp
@[simp] theorem measureDraw_station (s : State) : (s.measureDraw).station = s.station := by unfold State.measureDraw; dsimp only; split <;> simp
@[simp] theorem measureDraw_config (s : State) : (s.measureDraw).config = s.config := by unfold State.measureDraw; dsimp only; split <;> simp
@[simp] theorem measureDraw_line (s : State) : (s.measureDraw).line = s.line := by unfold State.measureDraw; dsimp only; split <;> simp
@[simp] theorem measureDraw_round (s : State) : (s.measureDraw).round = s.round := by unfold State.measureDraw; dsimp only; split <;> simp
@[simp] theorem measureDraw_link (s : State) : (s.measureDraw).link = s.link := by unfold State.measureDraw; dsimp only; split <;> simp
@[simp] theorem measureDraw_roster (s : State) : (s.measureDraw).roster = s.roster := by unfold State.measureDraw; dsimp only; split <;> simp
@[simp] theorem measureDraw_ownReport (s : State) : (s.measureDraw).ownReport = s.ownReport := by unfold State.measureDraw; dsimp only; split <;> simp
@[simp] theorem measureDraw_trial (s : State) : (s.measureDraw).trial = s.trial := by unfold State.measureDraw; dsimp only; split <;> simp
@[simp] theorem measureDraw_lastOutcome (s : State) : (s.measureDraw).lastOutcome = s.lastOutcome := by unfold State.measureDraw; dsimp only; split <;> simp
@[simp] theorem measureDraw_seqCounter (s : State) : (s.measureDraw).seqCounter = s.seqCounter := by unfold State.measureDraw; dsimp only; split <;> simp
@[simp] theorem measureDraw_inputs (s : State) : (s.measureDraw).inputs = s.inputs := by unfold State.measureDraw; dsimp only; split <;> simp
@[simp] theorem measureDraw_counters (s : State) : (s.measureDraw).counters = s.counters := by unfold State.measureDraw; dsimp only; split <;> simp
@[simp] theorem measureDraw_chans (s : State) : (s.measureDraw).chans = s.chans := by unfold State.measureDraw; dsimp only; split <;> simp
@[simp] theorem measureDraw_meas (s : State) : (s.measureDraw).meas = s.meas := by unfold State.measureDraw; dsimp only; split <;> simp
@[simp] theorem measureDraw_check (s : State) : (s.measureDraw).check = s.check := by unfold State.measureDraw; dsimp only; split <;> simp
@[simp] theorem measureDraw_trim (s : State) : (s.measureDraw).trim = s.trim := by unfold State.measureDraw; dsimp only; split <;> simp
@[simp] theorem measureDraw_pwm (s : State) : (s.measureDraw).pwm = s.pwm := by unfold State.measureDraw; dsimp only; split <;> simp
@[simp] theorem measureDraw_brk (s : State) : (s.measureDraw).brk = s.brk := by unfold State.measureDraw; dsimp only; split <;> simp
@[simp] theorem measureDraw_log (s : State) : (s.measureDraw).log = s.log := by unfold State.measureDraw; dsimp only; split <;> simp
@[simp] theorem measureDraw_pending (s : State) : (s.measureDraw).pending = s.pending := by unfold State.measureDraw; dsimp only; split <;> simp
@[simp] theorem abortTrial_now (s : State) (k : Nat) (c : Byte) (o : Station) : (s.abortTrial k c o).now = s.now := by unfold State.abortTrial; dsimp only; split <;> simp
@[simp] theorem abortTrial_power (s : State) (k : Nat) (c : Byte) (o : Station) : (s.abortTrial k c o).power = s.power := by unfold State.abortTrial; dsimp only; split <;> simp
@[simp] theorem abortTrial_pins (s : State) (k : Nat) (c : Byte) (o : Station) : (s.abortTrial k c o).pins = s.pins := by unfold State.abortTrial; dsimp only; split <;> simp
@[simp] theorem abortTrial_station (s : State) (k : Nat) (c : Byte) (o : Station) : (s.abortTrial k c o).station = s.station := by unfold State.abortTrial; dsimp only; split <;> simp
@[simp] theorem abortTrial_config (s : State) (k : Nat) (c : Byte) (o : Station) : (s.abortTrial k c o).config = s.config := by unfold State.abortTrial; dsimp only; split <;> simp
@[simp] theorem abortTrial_line (s : State) (k : Nat) (c : Byte) (o : Station) : (s.abortTrial k c o).line = s.line := by unfold State.abortTrial; dsimp only; split <;> simp
@[simp] theorem abortTrial_round (s : State) (k : Nat) (c : Byte) (o : Station) : (s.abortTrial k c o).round = s.round := by unfold State.abortTrial; dsimp only; split <;> simp
@[simp] theorem abortTrial_link (s : State) (k : Nat) (c : Byte) (o : Station) : (s.abortTrial k c o).link = s.link := by unfold State.abortTrial; dsimp only; split <;> simp
@[simp] theorem abortTrial_roster (s : State) (k : Nat) (c : Byte) (o : Station) : (s.abortTrial k c o).roster = s.roster := by unfold State.abortTrial; dsimp only; split <;> simp
@[simp] theorem abortTrial_ownReport (s : State) (k : Nat) (c : Byte) (o : Station) : (s.abortTrial k c o).ownReport = s.ownReport := by unfold State.abortTrial; dsimp only; split <;> simp
@[simp] theorem abortTrial_seqCounter (s : State) (k : Nat) (c : Byte) (o : Station) : (s.abortTrial k c o).seqCounter = s.seqCounter := by unfold State.abortTrial; dsimp only; split <;> simp
@[simp] theorem abortTrial_inputs (s : State) (k : Nat) (c : Byte) (o : Station) : (s.abortTrial k c o).inputs = s.inputs := by unfold State.abortTrial; dsimp only; split <;> simp
@[simp] theorem abortTrial_counters (s : State) (k : Nat) (c : Byte) (o : Station) : (s.abortTrial k c o).counters = s.counters := by unfold State.abortTrial; dsimp only; split <;> simp
@[simp] theorem abortTrial_chans (s : State) (k : Nat) (c : Byte) (o : Station) : (s.abortTrial k c o).chans = s.chans := by unfold State.abortTrial; dsimp only; split <;> simp
@[simp] theorem abortTrial_meas (s : State) (k : Nat) (c : Byte) (o : Station) : (s.abortTrial k c o).meas = s.meas := by unfold State.abortTrial; dsimp only; split <;> simp
@[simp] theorem abortTrial_check (s : State) (k : Nat) (c : Byte) (o : Station) : (s.abortTrial k c o).check = s.check := by unfold State.abortTrial; dsimp only; split <;> simp
@[simp] theorem abortTrial_draw (s : State) (k : Nat) (c : Byte) (o : Station) : (s.abortTrial k c o).draw = s.draw := by unfold State.abortTrial; dsimp only; split <;> simp
@[simp] theorem abortTrial_pwm (s : State) (k : Nat) (c : Byte) (o : Station) : (s.abortTrial k c o).pwm = s.pwm := by unfold State.abortTrial; dsimp only; split <;> simp
@[simp] theorem abortTrial_brk (s : State) (k : Nat) (c : Byte) (o : Station) : (s.abortTrial k c o).brk = s.brk := by unfold State.abortTrial; dsimp only; split <;> simp
@[simp] theorem abortTrial_pending (s : State) (k : Nat) (c : Byte) (o : Station) : (s.abortTrial k c o).pending = s.pending := by unfold State.abortTrial; dsimp only; split <;> simp
@[simp] theorem abortOwn_now (s : State) (r : Reason) : (s.abortOwn r).now = s.now := by simp [State.abortOwn]
@[simp] theorem abortOwn_power (s : State) (r : Reason) : (s.abortOwn r).power = s.power := by simp [State.abortOwn]
@[simp] theorem abortOwn_pins (s : State) (r : Reason) : (s.abortOwn r).pins = s.pins := by simp [State.abortOwn]
@[simp] theorem abortOwn_station (s : State) (r : Reason) : (s.abortOwn r).station = s.station := by simp [State.abortOwn]
@[simp] theorem abortOwn_config (s : State) (r : Reason) : (s.abortOwn r).config = s.config := by simp [State.abortOwn]
@[simp] theorem abortOwn_line (s : State) (r : Reason) : (s.abortOwn r).line = s.line := by simp [State.abortOwn]
@[simp] theorem abortOwn_round (s : State) (r : Reason) : (s.abortOwn r).round = s.round := by simp [State.abortOwn]
@[simp] theorem abortOwn_link (s : State) (r : Reason) : (s.abortOwn r).link = s.link := by simp [State.abortOwn]
@[simp] theorem abortOwn_roster (s : State) (r : Reason) : (s.abortOwn r).roster = s.roster := by simp [State.abortOwn]
@[simp] theorem abortOwn_ownReport (s : State) (r : Reason) : (s.abortOwn r).ownReport = s.ownReport := by simp [State.abortOwn]
@[simp] theorem abortOwn_seqCounter (s : State) (r : Reason) : (s.abortOwn r).seqCounter = s.seqCounter := by simp [State.abortOwn]
@[simp] theorem abortOwn_inputs (s : State) (r : Reason) : (s.abortOwn r).inputs = s.inputs := by simp [State.abortOwn]
@[simp] theorem abortOwn_counters (s : State) (r : Reason) : (s.abortOwn r).counters = s.counters := by simp [State.abortOwn]
@[simp] theorem abortOwn_chans (s : State) (r : Reason) : (s.abortOwn r).chans = s.chans := by simp [State.abortOwn]
@[simp] theorem abortOwn_meas (s : State) (r : Reason) : (s.abortOwn r).meas = s.meas := by simp [State.abortOwn]
@[simp] theorem abortOwn_check (s : State) (r : Reason) : (s.abortOwn r).check = s.check := by simp [State.abortOwn]
@[simp] theorem abortOwn_draw (s : State) (r : Reason) : (s.abortOwn r).draw = s.draw := by simp [State.abortOwn]
@[simp] theorem abortOwn_pwm (s : State) (r : Reason) : (s.abortOwn r).pwm = s.pwm := by simp [State.abortOwn]
@[simp] theorem abortOwn_brk (s : State) (r : Reason) : (s.abortOwn r).brk = s.brk := by simp [State.abortOwn]
@[simp] theorem abortOwn_pending (s : State) (r : Reason) : (s.abortOwn r).pending = s.pending := by simp [State.abortOwn]
@[simp] theorem abortHeard_now (s : State) (p : ParamBytes) : (s.abortHeard p).now = s.now := by simp [State.abortHeard]
@[simp] theorem abortHeard_power (s : State) (p : ParamBytes) : (s.abortHeard p).power = s.power := by simp [State.abortHeard]
@[simp] theorem abortHeard_pins (s : State) (p : ParamBytes) : (s.abortHeard p).pins = s.pins := by simp [State.abortHeard]
@[simp] theorem abortHeard_station (s : State) (p : ParamBytes) : (s.abortHeard p).station = s.station := by simp [State.abortHeard]
@[simp] theorem abortHeard_config (s : State) (p : ParamBytes) : (s.abortHeard p).config = s.config := by simp [State.abortHeard]
@[simp] theorem abortHeard_line (s : State) (p : ParamBytes) : (s.abortHeard p).line = s.line := by simp [State.abortHeard]
@[simp] theorem abortHeard_round (s : State) (p : ParamBytes) : (s.abortHeard p).round = s.round := by simp [State.abortHeard]
@[simp] theorem abortHeard_link (s : State) (p : ParamBytes) : (s.abortHeard p).link = s.link := by simp [State.abortHeard]
@[simp] theorem abortHeard_roster (s : State) (p : ParamBytes) : (s.abortHeard p).roster = s.roster := by simp [State.abortHeard]
@[simp] theorem abortHeard_ownReport (s : State) (p : ParamBytes) : (s.abortHeard p).ownReport = s.ownReport := by simp [State.abortHeard]
@[simp] theorem abortHeard_seqCounter (s : State) (p : ParamBytes) : (s.abortHeard p).seqCounter = s.seqCounter := by simp [State.abortHeard]
@[simp] theorem abortHeard_inputs (s : State) (p : ParamBytes) : (s.abortHeard p).inputs = s.inputs := by simp [State.abortHeard]
@[simp] theorem abortHeard_counters (s : State) (p : ParamBytes) : (s.abortHeard p).counters = s.counters := by simp [State.abortHeard]
@[simp] theorem abortHeard_chans (s : State) (p : ParamBytes) : (s.abortHeard p).chans = s.chans := by simp [State.abortHeard]
@[simp] theorem abortHeard_meas (s : State) (p : ParamBytes) : (s.abortHeard p).meas = s.meas := by simp [State.abortHeard]
@[simp] theorem abortHeard_check (s : State) (p : ParamBytes) : (s.abortHeard p).check = s.check := by simp [State.abortHeard]
@[simp] theorem abortHeard_draw (s : State) (p : ParamBytes) : (s.abortHeard p).draw = s.draw := by simp [State.abortHeard]
@[simp] theorem abortHeard_pwm (s : State) (p : ParamBytes) : (s.abortHeard p).pwm = s.pwm := by simp [State.abortHeard]
@[simp] theorem abortHeard_brk (s : State) (p : ParamBytes) : (s.abortHeard p).brk = s.brk := by simp [State.abortHeard]
@[simp] theorem abortHeard_pending (s : State) (p : ParamBytes) : (s.abortHeard p).pending = s.pending := by simp [State.abortHeard]
@[simp] theorem completeTrial_now (s : State) : (s.completeTrial).now = s.now := by unfold State.completeTrial; dsimp only; split <;> simp
@[simp] theorem completeTrial_power (s : State) : (s.completeTrial).power = s.power := by unfold State.completeTrial; dsimp only; split <;> simp
@[simp] theorem completeTrial_pins (s : State) : (s.completeTrial).pins = s.pins := by unfold State.completeTrial; dsimp only; split <;> simp
@[simp] theorem completeTrial_station (s : State) : (s.completeTrial).station = s.station := by unfold State.completeTrial; dsimp only; split <;> simp
@[simp] theorem completeTrial_config (s : State) : (s.completeTrial).config = s.config := by unfold State.completeTrial; dsimp only; split <;> simp
@[simp] theorem completeTrial_line (s : State) : (s.completeTrial).line = s.line := by unfold State.completeTrial; dsimp only; split <;> simp
@[simp] theorem completeTrial_round (s : State) : (s.completeTrial).round = s.round := by unfold State.completeTrial; dsimp only; split <;> simp
@[simp] theorem completeTrial_link (s : State) : (s.completeTrial).link = s.link := by unfold State.completeTrial; dsimp only; split <;> simp
@[simp] theorem completeTrial_roster (s : State) : (s.completeTrial).roster = s.roster := by unfold State.completeTrial; dsimp only; split <;> simp
@[simp] theorem completeTrial_ownReport (s : State) : (s.completeTrial).ownReport = s.ownReport := by unfold State.completeTrial; dsimp only; split <;> simp
@[simp] theorem completeTrial_seqCounter (s : State) : (s.completeTrial).seqCounter = s.seqCounter := by unfold State.completeTrial; dsimp only; split <;> simp
@[simp] theorem completeTrial_inputs (s : State) : (s.completeTrial).inputs = s.inputs := by unfold State.completeTrial; dsimp only; split <;> simp
@[simp] theorem completeTrial_counters (s : State) : (s.completeTrial).counters = s.counters := by unfold State.completeTrial; dsimp only; split <;> simp
@[simp] theorem completeTrial_chans (s : State) : (s.completeTrial).chans = s.chans := by unfold State.completeTrial; dsimp only; split <;> simp
@[simp] theorem completeTrial_meas (s : State) : (s.completeTrial).meas = s.meas := by unfold State.completeTrial; dsimp only; split <;> simp
@[simp] theorem completeTrial_check (s : State) : (s.completeTrial).check = s.check := by unfold State.completeTrial; dsimp only; split <;> simp
@[simp] theorem completeTrial_draw (s : State) : (s.completeTrial).draw = s.draw := by unfold State.completeTrial; dsimp only; split <;> simp
@[simp] theorem completeTrial_pwm (s : State) : (s.completeTrial).pwm = s.pwm := by unfold State.completeTrial; dsimp only; split <;> simp
@[simp] theorem completeTrial_brk (s : State) : (s.completeTrial).brk = s.brk := by unfold State.completeTrial; dsimp only; split <;> simp
@[simp] theorem completeTrial_pending (s : State) : (s.completeTrial).pending = s.pending := by unfold State.completeTrial; dsimp only; split <;> simp
@[simp] theorem adoptHeard_now (s : State) : (s.adoptHeard).now = s.now := by
  unfold State.adoptHeard; repeat' split
  all_goals simp
@[simp] theorem adoptHeard_power (s : State) : (s.adoptHeard).power = s.power := by
  unfold State.adoptHeard; repeat' split
  all_goals simp
@[simp] theorem adoptHeard_pins (s : State) : (s.adoptHeard).pins = s.pins := by
  unfold State.adoptHeard; repeat' split
  all_goals simp
@[simp] theorem adoptHeard_station (s : State) : (s.adoptHeard).station = s.station := by
  unfold State.adoptHeard; repeat' split
  all_goals simp
@[simp] theorem adoptHeard_config (s : State) : (s.adoptHeard).config = s.config := by
  unfold State.adoptHeard; repeat' split
  all_goals simp
@[simp] theorem adoptHeard_line (s : State) : (s.adoptHeard).line = s.line := by
  unfold State.adoptHeard; repeat' split
  all_goals simp
@[simp] theorem adoptHeard_round (s : State) : (s.adoptHeard).round = s.round := by
  unfold State.adoptHeard; repeat' split
  all_goals simp
@[simp] theorem adoptHeard_link (s : State) : (s.adoptHeard).link = s.link := by
  unfold State.adoptHeard; repeat' split
  all_goals simp
@[simp] theorem adoptHeard_roster (s : State) : (s.adoptHeard).roster = s.roster := by
  unfold State.adoptHeard; repeat' split
  all_goals simp
@[simp] theorem adoptHeard_ownReport (s : State) : (s.adoptHeard).ownReport = s.ownReport := by
  unfold State.adoptHeard; repeat' split
  all_goals simp
@[simp] theorem adoptHeard_lastOutcome (s : State) : (s.adoptHeard).lastOutcome = s.lastOutcome := by
  unfold State.adoptHeard; repeat' split
  all_goals simp
@[simp] theorem adoptHeard_seqCounter (s : State) : (s.adoptHeard).seqCounter = s.seqCounter := by
  unfold State.adoptHeard; repeat' split
  all_goals simp
@[simp] theorem adoptHeard_inputs (s : State) : (s.adoptHeard).inputs = s.inputs := by
  unfold State.adoptHeard; repeat' split
  all_goals simp
@[simp] theorem adoptHeard_counters (s : State) : (s.adoptHeard).counters = s.counters := by
  unfold State.adoptHeard; repeat' split
  all_goals simp
@[simp] theorem adoptHeard_chans (s : State) : (s.adoptHeard).chans = s.chans := by
  unfold State.adoptHeard; repeat' split
  all_goals simp
@[simp] theorem adoptHeard_meas (s : State) : (s.adoptHeard).meas = s.meas := by
  unfold State.adoptHeard; repeat' split
  all_goals simp
@[simp] theorem adoptHeard_check (s : State) : (s.adoptHeard).check = s.check := by
  unfold State.adoptHeard; repeat' split
  all_goals simp
@[simp] theorem adoptHeard_draw (s : State) : (s.adoptHeard).draw = s.draw := by
  unfold State.adoptHeard; repeat' split
  all_goals simp
@[simp] theorem adoptHeard_trim (s : State) : (s.adoptHeard).trim = s.trim := by
  unfold State.adoptHeard; repeat' split
  all_goals simp
@[simp] theorem adoptHeard_pwm (s : State) : (s.adoptHeard).pwm = s.pwm := by
  unfold State.adoptHeard; repeat' split
  all_goals simp
@[simp] theorem adoptHeard_brk (s : State) : (s.adoptHeard).brk = s.brk := by
  unfold State.adoptHeard; repeat' split
  all_goals simp
@[simp] theorem adoptHeard_log (s : State) : (s.adoptHeard).log = s.log := by
  unfold State.adoptHeard; repeat' split
  all_goals simp
@[simp] theorem adoptHeard_pending (s : State) : (s.adoptHeard).pending = s.pending := by
  unfold State.adoptHeard; repeat' split
  all_goals simp
@[simp] theorem claimBoundary_now (s : State) (i : TrialId) (p : TrialParams) : (s.claimBoundary i p).now = s.now := by
  unfold State.claimBoundary; dsimp only; repeat' split
  all_goals simp
@[simp] theorem claimBoundary_power (s : State) (i : TrialId) (p : TrialParams) : (s.claimBoundary i p).power = s.power := by
  unfold State.claimBoundary; dsimp only; repeat' split
  all_goals simp
@[simp] theorem claimBoundary_pins (s : State) (i : TrialId) (p : TrialParams) : (s.claimBoundary i p).pins = s.pins := by
  unfold State.claimBoundary; dsimp only; repeat' split
  all_goals simp
@[simp] theorem claimBoundary_station (s : State) (i : TrialId) (p : TrialParams) : (s.claimBoundary i p).station = s.station := by
  unfold State.claimBoundary; dsimp only; repeat' split
  all_goals simp
@[simp] theorem claimBoundary_config (s : State) (i : TrialId) (p : TrialParams) : (s.claimBoundary i p).config = s.config := by
  unfold State.claimBoundary; dsimp only; repeat' split
  all_goals simp
@[simp] theorem claimBoundary_line (s : State) (i : TrialId) (p : TrialParams) : (s.claimBoundary i p).line = s.line := by
  unfold State.claimBoundary; dsimp only; repeat' split
  all_goals simp
@[simp] theorem claimBoundary_round (s : State) (i : TrialId) (p : TrialParams) : (s.claimBoundary i p).round = s.round := by
  unfold State.claimBoundary; dsimp only; repeat' split
  all_goals simp
@[simp] theorem claimBoundary_link (s : State) (i : TrialId) (p : TrialParams) : (s.claimBoundary i p).link = s.link := by
  unfold State.claimBoundary; dsimp only; repeat' split
  all_goals simp
@[simp] theorem claimBoundary_roster (s : State) (i : TrialId) (p : TrialParams) : (s.claimBoundary i p).roster = s.roster := by
  unfold State.claimBoundary; dsimp only; repeat' split
  all_goals simp
@[simp] theorem claimBoundary_ownReport (s : State) (i : TrialId) (p : TrialParams) : (s.claimBoundary i p).ownReport = s.ownReport := by
  unfold State.claimBoundary; dsimp only; repeat' split
  all_goals simp
@[simp] theorem claimBoundary_seqCounter (s : State) (i : TrialId) (p : TrialParams) : (s.claimBoundary i p).seqCounter = s.seqCounter := by
  unfold State.claimBoundary; dsimp only; repeat' split
  all_goals simp
@[simp] theorem claimBoundary_inputs (s : State) (i : TrialId) (p : TrialParams) : (s.claimBoundary i p).inputs = s.inputs := by
  unfold State.claimBoundary; dsimp only; repeat' split
  all_goals simp
@[simp] theorem claimBoundary_counters (s : State) (i : TrialId) (p : TrialParams) : (s.claimBoundary i p).counters = s.counters := by
  unfold State.claimBoundary; dsimp only; repeat' split
  all_goals simp
@[simp] theorem claimBoundary_chans (s : State) (i : TrialId) (p : TrialParams) : (s.claimBoundary i p).chans = s.chans := by
  unfold State.claimBoundary; dsimp only; repeat' split
  all_goals simp
@[simp] theorem claimBoundary_meas (s : State) (i : TrialId) (p : TrialParams) : (s.claimBoundary i p).meas = s.meas := by
  unfold State.claimBoundary; dsimp only; repeat' split
  all_goals simp
@[simp] theorem claimBoundary_check (s : State) (i : TrialId) (p : TrialParams) : (s.claimBoundary i p).check = s.check := by
  unfold State.claimBoundary; dsimp only; repeat' split
  all_goals simp
@[simp] theorem claimBoundary_draw (s : State) (i : TrialId) (p : TrialParams) : (s.claimBoundary i p).draw = s.draw := by
  unfold State.claimBoundary; dsimp only; repeat' split
  all_goals simp
@[simp] theorem claimBoundary_trim (s : State) (i : TrialId) (p : TrialParams) : (s.claimBoundary i p).trim = s.trim := by
  unfold State.claimBoundary; dsimp only; repeat' split
  all_goals simp
@[simp] theorem claimBoundary_pwm (s : State) (i : TrialId) (p : TrialParams) : (s.claimBoundary i p).pwm = s.pwm := by
  unfold State.claimBoundary; dsimp only; repeat' split
  all_goals simp
@[simp] theorem claimBoundary_brk (s : State) (i : TrialId) (p : TrialParams) : (s.claimBoundary i p).brk = s.brk := by
  unfold State.claimBoundary; dsimp only; repeat' split
  all_goals simp
@[simp] theorem claimBoundary_log (s : State) (i : TrialId) (p : TrialParams) : (s.claimBoundary i p).log = s.log := by
  unfold State.claimBoundary; dsimp only; repeat' split
  all_goals simp
@[simp] theorem claimBoundary_pending (s : State) (i : TrialId) (p : TrialParams) : (s.claimBoundary i p).pending = s.pending := by
  unfold State.claimBoundary; dsimp only; repeat' split
  all_goals simp
@[simp] theorem gatherAcceptances_now (s : State) : (s.gatherAcceptances).now = s.now := by unfold State.gatherAcceptances; dsimp only; split <;> split <;> simp
@[simp] theorem gatherAcceptances_power (s : State) : (s.gatherAcceptances).power = s.power := by unfold State.gatherAcceptances; dsimp only; split <;> split <;> simp
@[simp] theorem gatherAcceptances_pins (s : State) : (s.gatherAcceptances).pins = s.pins := by unfold State.gatherAcceptances; dsimp only; split <;> split <;> simp
@[simp] theorem gatherAcceptances_station (s : State) : (s.gatherAcceptances).station = s.station := by unfold State.gatherAcceptances; dsimp only; split <;> split <;> simp
@[simp] theorem gatherAcceptances_config (s : State) : (s.gatherAcceptances).config = s.config := by unfold State.gatherAcceptances; dsimp only; split <;> split <;> simp
@[simp] theorem gatherAcceptances_line (s : State) : (s.gatherAcceptances).line = s.line := by unfold State.gatherAcceptances; dsimp only; split <;> split <;> simp
@[simp] theorem gatherAcceptances_round (s : State) : (s.gatherAcceptances).round = s.round := by unfold State.gatherAcceptances; dsimp only; split <;> split <;> simp
@[simp] theorem gatherAcceptances_link (s : State) : (s.gatherAcceptances).link = s.link := by unfold State.gatherAcceptances; dsimp only; split <;> split <;> simp
@[simp] theorem gatherAcceptances_roster (s : State) : (s.gatherAcceptances).roster = s.roster := by unfold State.gatherAcceptances; dsimp only; split <;> split <;> simp
@[simp] theorem gatherAcceptances_ownReport (s : State) : (s.gatherAcceptances).ownReport = s.ownReport := by unfold State.gatherAcceptances; dsimp only; split <;> split <;> simp
@[simp] theorem gatherAcceptances_seqCounter (s : State) : (s.gatherAcceptances).seqCounter = s.seqCounter := by unfold State.gatherAcceptances; dsimp only; split <;> split <;> simp
@[simp] theorem gatherAcceptances_inputs (s : State) : (s.gatherAcceptances).inputs = s.inputs := by unfold State.gatherAcceptances; dsimp only; split <;> split <;> simp
@[simp] theorem gatherAcceptances_counters (s : State) : (s.gatherAcceptances).counters = s.counters := by unfold State.gatherAcceptances; dsimp only; split <;> split <;> simp
@[simp] theorem gatherAcceptances_chans (s : State) : (s.gatherAcceptances).chans = s.chans := by unfold State.gatherAcceptances; dsimp only; split <;> split <;> simp
@[simp] theorem gatherAcceptances_meas (s : State) : (s.gatherAcceptances).meas = s.meas := by unfold State.gatherAcceptances; dsimp only; split <;> split <;> simp
@[simp] theorem gatherAcceptances_check (s : State) : (s.gatherAcceptances).check = s.check := by unfold State.gatherAcceptances; dsimp only; split <;> split <;> simp
@[simp] theorem gatherAcceptances_draw (s : State) : (s.gatherAcceptances).draw = s.draw := by unfold State.gatherAcceptances; dsimp only; split <;> split <;> simp
@[simp] theorem gatherAcceptances_pwm (s : State) : (s.gatherAcceptances).pwm = s.pwm := by unfold State.gatherAcceptances; dsimp only; split <;> split <;> simp
@[simp] theorem gatherAcceptances_brk (s : State) : (s.gatherAcceptances).brk = s.brk := by unfold State.gatherAcceptances; dsimp only; split <;> split <;> simp
@[simp] theorem gatherAcceptances_log (s : State) : (s.gatherAcceptances).log = s.log := by unfold State.gatherAcceptances; dsimp only; split <;> split <;> simp
@[simp] theorem gatherAcceptances_pending (s : State) : (s.gatherAcceptances).pending = s.pending := by unfold State.gatherAcceptances; dsimp only; split <;> split <;> simp
@[simp] theorem startTrial_now (s : State) : (s.startTrial).now = s.now := by
  unfold State.startTrial; dsimp only; repeat' split
  all_goals simp
@[simp] theorem startTrial_power (s : State) : (s.startTrial).power = s.power := by
  unfold State.startTrial; dsimp only; repeat' split
  all_goals simp
@[simp] theorem startTrial_pins (s : State) : (s.startTrial).pins = s.pins := by
  unfold State.startTrial; dsimp only; repeat' split
  all_goals simp
@[simp] theorem startTrial_station (s : State) : (s.startTrial).station = s.station := by
  unfold State.startTrial; dsimp only; repeat' split
  all_goals simp
@[simp] theorem startTrial_config (s : State) : (s.startTrial).config = s.config := by
  unfold State.startTrial; dsimp only; repeat' split
  all_goals simp
@[simp] theorem startTrial_line (s : State) : (s.startTrial).line = s.line := by
  unfold State.startTrial; dsimp only; repeat' split
  all_goals simp
@[simp] theorem startTrial_round (s : State) : (s.startTrial).round = s.round := by
  unfold State.startTrial; dsimp only; repeat' split
  all_goals simp
@[simp] theorem startTrial_link (s : State) : (s.startTrial).link = s.link := by
  unfold State.startTrial; dsimp only; repeat' split
  all_goals simp
@[simp] theorem startTrial_roster (s : State) : (s.startTrial).roster = s.roster := by
  unfold State.startTrial; dsimp only; repeat' split
  all_goals simp
@[simp] theorem startTrial_ownReport (s : State) : (s.startTrial).ownReport = s.ownReport := by
  unfold State.startTrial; dsimp only; repeat' split
  all_goals simp
@[simp] theorem startTrial_lastOutcome (s : State) : (s.startTrial).lastOutcome = s.lastOutcome := by
  unfold State.startTrial; dsimp only; repeat' split
  all_goals simp
@[simp] theorem startTrial_seqCounter (s : State) : (s.startTrial).seqCounter = s.seqCounter := by
  unfold State.startTrial; dsimp only; repeat' split
  all_goals simp
@[simp] theorem startTrial_inputs (s : State) : (s.startTrial).inputs = s.inputs := by
  unfold State.startTrial; dsimp only; repeat' split
  all_goals simp
@[simp] theorem startTrial_counters (s : State) : (s.startTrial).counters = s.counters := by
  unfold State.startTrial; dsimp only; repeat' split
  all_goals simp
@[simp] theorem startTrial_chans (s : State) : (s.startTrial).chans = s.chans := by
  unfold State.startTrial; dsimp only; repeat' split
  all_goals simp
@[simp] theorem startTrial_meas (s : State) : (s.startTrial).meas = s.meas := by
  unfold State.startTrial; dsimp only; repeat' split
  all_goals simp
@[simp] theorem startTrial_check (s : State) : (s.startTrial).check = s.check := by
  unfold State.startTrial; dsimp only; repeat' split
  all_goals simp
@[simp] theorem startTrial_draw (s : State) : (s.startTrial).draw = s.draw := by
  unfold State.startTrial; dsimp only; repeat' split
  all_goals simp
@[simp] theorem startTrial_pwm (s : State) : (s.startTrial).pwm = s.pwm := by
  unfold State.startTrial; dsimp only; repeat' split
  all_goals simp
@[simp] theorem startTrial_brk (s : State) : (s.startTrial).brk = s.brk := by
  unfold State.startTrial; dsimp only; repeat' split
  all_goals simp
@[simp] theorem startTrial_pending (s : State) : (s.startTrial).pending = s.pending := by
  unfold State.startTrial; dsimp only; repeat' split
  all_goals simp
@[simp] theorem awaitStart_now (s : State) : (s.awaitStart).now = s.now := by unfold State.awaitStart; split <;> simp
@[simp] theorem awaitStart_power (s : State) : (s.awaitStart).power = s.power := by unfold State.awaitStart; split <;> simp
@[simp] theorem awaitStart_pins (s : State) : (s.awaitStart).pins = s.pins := by unfold State.awaitStart; split <;> simp
@[simp] theorem awaitStart_station (s : State) : (s.awaitStart).station = s.station := by unfold State.awaitStart; split <;> simp
@[simp] theorem awaitStart_config (s : State) : (s.awaitStart).config = s.config := by unfold State.awaitStart; split <;> simp
@[simp] theorem awaitStart_line (s : State) : (s.awaitStart).line = s.line := by unfold State.awaitStart; split <;> simp
@[simp] theorem awaitStart_round (s : State) : (s.awaitStart).round = s.round := by unfold State.awaitStart; split <;> simp
@[simp] theorem awaitStart_link (s : State) : (s.awaitStart).link = s.link := by unfold State.awaitStart; split <;> simp
@[simp] theorem awaitStart_roster (s : State) : (s.awaitStart).roster = s.roster := by unfold State.awaitStart; split <;> simp
@[simp] theorem awaitStart_ownReport (s : State) : (s.awaitStart).ownReport = s.ownReport := by unfold State.awaitStart; split <;> simp
@[simp] theorem awaitStart_lastOutcome (s : State) : (s.awaitStart).lastOutcome = s.lastOutcome := by unfold State.awaitStart; split <;> simp
@[simp] theorem awaitStart_seqCounter (s : State) : (s.awaitStart).seqCounter = s.seqCounter := by unfold State.awaitStart; split <;> simp
@[simp] theorem awaitStart_inputs (s : State) : (s.awaitStart).inputs = s.inputs := by unfold State.awaitStart; split <;> simp
@[simp] theorem awaitStart_counters (s : State) : (s.awaitStart).counters = s.counters := by unfold State.awaitStart; split <;> simp
@[simp] theorem awaitStart_chans (s : State) : (s.awaitStart).chans = s.chans := by unfold State.awaitStart; split <;> simp
@[simp] theorem awaitStart_meas (s : State) : (s.awaitStart).meas = s.meas := by unfold State.awaitStart; split <;> simp
@[simp] theorem awaitStart_check (s : State) : (s.awaitStart).check = s.check := by unfold State.awaitStart; split <;> simp
@[simp] theorem awaitStart_draw (s : State) : (s.awaitStart).draw = s.draw := by unfold State.awaitStart; split <;> simp
@[simp] theorem awaitStart_pwm (s : State) : (s.awaitStart).pwm = s.pwm := by unfold State.awaitStart; split <;> simp
@[simp] theorem awaitStart_brk (s : State) : (s.awaitStart).brk = s.brk := by unfold State.awaitStart; split <;> simp
@[simp] theorem awaitStart_pending (s : State) : (s.awaitStart).pending = s.pending := by unfold State.awaitStart; split <;> simp
@[simp] theorem countDown_now (s : State) : (s.countDown).now = s.now := by
  unfold State.countDown; dsimp only; repeat' split
  all_goals simp
@[simp] theorem countDown_power (s : State) : (s.countDown).power = s.power := by
  unfold State.countDown; dsimp only; repeat' split
  all_goals simp
@[simp] theorem countDown_pins (s : State) : (s.countDown).pins = s.pins := by
  unfold State.countDown; dsimp only; repeat' split
  all_goals simp
@[simp] theorem countDown_station (s : State) : (s.countDown).station = s.station := by
  unfold State.countDown; dsimp only; repeat' split
  all_goals simp
@[simp] theorem countDown_config (s : State) : (s.countDown).config = s.config := by
  unfold State.countDown; dsimp only; repeat' split
  all_goals simp
@[simp] theorem countDown_line (s : State) : (s.countDown).line = s.line := by
  unfold State.countDown; dsimp only; repeat' split
  all_goals simp
@[simp] theorem countDown_round (s : State) : (s.countDown).round = s.round := by
  unfold State.countDown; dsimp only; repeat' split
  all_goals simp
@[simp] theorem countDown_link (s : State) : (s.countDown).link = s.link := by
  unfold State.countDown; dsimp only; repeat' split
  all_goals simp
@[simp] theorem countDown_roster (s : State) : (s.countDown).roster = s.roster := by
  unfold State.countDown; dsimp only; repeat' split
  all_goals simp
@[simp] theorem countDown_ownReport (s : State) : (s.countDown).ownReport = s.ownReport := by
  unfold State.countDown; dsimp only; repeat' split
  all_goals simp
@[simp] theorem countDown_seqCounter (s : State) : (s.countDown).seqCounter = s.seqCounter := by
  unfold State.countDown; dsimp only; repeat' split
  all_goals simp
@[simp] theorem countDown_inputs (s : State) : (s.countDown).inputs = s.inputs := by
  unfold State.countDown; dsimp only; repeat' split
  all_goals simp
@[simp] theorem countDown_counters (s : State) : (s.countDown).counters = s.counters := by
  unfold State.countDown; dsimp only; repeat' split
  all_goals simp
@[simp] theorem countDown_chans (s : State) : (s.countDown).chans = s.chans := by
  unfold State.countDown; dsimp only; repeat' split
  all_goals simp
@[simp] theorem countDown_meas (s : State) : (s.countDown).meas = s.meas := by
  unfold State.countDown; dsimp only; repeat' split
  all_goals simp
@[simp] theorem countDown_check (s : State) : (s.countDown).check = s.check := by
  unfold State.countDown; dsimp only; repeat' split
  all_goals simp
@[simp] theorem countDown_draw (s : State) : (s.countDown).draw = s.draw := by
  unfold State.countDown; dsimp only; repeat' split
  all_goals simp
@[simp] theorem countDown_pwm (s : State) : (s.countDown).pwm = s.pwm := by
  unfold State.countDown; dsimp only; repeat' split
  all_goals simp
@[simp] theorem countDown_brk (s : State) : (s.countDown).brk = s.brk := by
  unfold State.countDown; dsimp only; repeat' split
  all_goals simp
@[simp] theorem countDown_pending (s : State) : (s.countDown).pending = s.pending := by
  unfold State.countDown; dsimp only; repeat' split
  all_goals simp
@[simp] theorem takeGo_now (s : State) (g : BitVec 8) : (s.takeGo g).now = s.now := by
  unfold State.takeGo; dsimp only; repeat' split
  all_goals simp
@[simp] theorem takeGo_power (s : State) (g : BitVec 8) : (s.takeGo g).power = s.power := by
  unfold State.takeGo; dsimp only; repeat' split
  all_goals simp
@[simp] theorem takeGo_pins (s : State) (g : BitVec 8) : (s.takeGo g).pins = s.pins := by
  unfold State.takeGo; dsimp only; repeat' split
  all_goals simp
@[simp] theorem takeGo_station (s : State) (g : BitVec 8) : (s.takeGo g).station = s.station := by
  unfold State.takeGo; dsimp only; repeat' split
  all_goals simp
@[simp] theorem takeGo_config (s : State) (g : BitVec 8) : (s.takeGo g).config = s.config := by
  unfold State.takeGo; dsimp only; repeat' split
  all_goals simp
@[simp] theorem takeGo_line (s : State) (g : BitVec 8) : (s.takeGo g).line = s.line := by
  unfold State.takeGo; dsimp only; repeat' split
  all_goals simp
@[simp] theorem takeGo_round (s : State) (g : BitVec 8) : (s.takeGo g).round = s.round := by
  unfold State.takeGo; dsimp only; repeat' split
  all_goals simp
@[simp] theorem takeGo_link (s : State) (g : BitVec 8) : (s.takeGo g).link = s.link := by
  unfold State.takeGo; dsimp only; repeat' split
  all_goals simp
@[simp] theorem takeGo_roster (s : State) (g : BitVec 8) : (s.takeGo g).roster = s.roster := by
  unfold State.takeGo; dsimp only; repeat' split
  all_goals simp
@[simp] theorem takeGo_ownReport (s : State) (g : BitVec 8) : (s.takeGo g).ownReport = s.ownReport := by
  unfold State.takeGo; dsimp only; repeat' split
  all_goals simp
@[simp] theorem takeGo_seqCounter (s : State) (g : BitVec 8) : (s.takeGo g).seqCounter = s.seqCounter := by
  unfold State.takeGo; dsimp only; repeat' split
  all_goals simp
@[simp] theorem takeGo_inputs (s : State) (g : BitVec 8) : (s.takeGo g).inputs = s.inputs := by
  unfold State.takeGo; dsimp only; repeat' split
  all_goals simp
@[simp] theorem takeGo_counters (s : State) (g : BitVec 8) : (s.takeGo g).counters = s.counters := by
  unfold State.takeGo; dsimp only; repeat' split
  all_goals simp
@[simp] theorem takeGo_chans (s : State) (g : BitVec 8) : (s.takeGo g).chans = s.chans := by
  unfold State.takeGo; dsimp only; repeat' split
  all_goals simp
@[simp] theorem takeGo_meas (s : State) (g : BitVec 8) : (s.takeGo g).meas = s.meas := by
  unfold State.takeGo; dsimp only; repeat' split
  all_goals simp
@[simp] theorem takeGo_check (s : State) (g : BitVec 8) : (s.takeGo g).check = s.check := by
  unfold State.takeGo; dsimp only; repeat' split
  all_goals simp
@[simp] theorem takeGo_draw (s : State) (g : BitVec 8) : (s.takeGo g).draw = s.draw := by
  unfold State.takeGo; dsimp only; repeat' split
  all_goals simp
@[simp] theorem takeGo_pwm (s : State) (g : BitVec 8) : (s.takeGo g).pwm = s.pwm := by
  unfold State.takeGo; dsimp only; repeat' split
  all_goals simp
@[simp] theorem takeGo_brk (s : State) (g : BitVec 8) : (s.takeGo g).brk = s.brk := by
  unfold State.takeGo; dsimp only; repeat' split
  all_goals simp
@[simp] theorem takeGo_pending (s : State) (g : BitVec 8) : (s.takeGo g).pending = s.pending := by
  unfold State.takeGo; dsimp only; repeat' split
  all_goals simp
@[simp] theorem acceptingGoes_now (s : State) : (s.acceptingGoes).now = s.now := by
  unfold State.acceptingGoes; repeat' split
  all_goals simp
@[simp] theorem acceptingGoes_power (s : State) : (s.acceptingGoes).power = s.power := by
  unfold State.acceptingGoes; repeat' split
  all_goals simp
@[simp] theorem acceptingGoes_pins (s : State) : (s.acceptingGoes).pins = s.pins := by
  unfold State.acceptingGoes; repeat' split
  all_goals simp
@[simp] theorem acceptingGoes_station (s : State) : (s.acceptingGoes).station = s.station := by
  unfold State.acceptingGoes; repeat' split
  all_goals simp
@[simp] theorem acceptingGoes_config (s : State) : (s.acceptingGoes).config = s.config := by
  unfold State.acceptingGoes; repeat' split
  all_goals simp
@[simp] theorem acceptingGoes_line (s : State) : (s.acceptingGoes).line = s.line := by
  unfold State.acceptingGoes; repeat' split
  all_goals simp
@[simp] theorem acceptingGoes_round (s : State) : (s.acceptingGoes).round = s.round := by
  unfold State.acceptingGoes; repeat' split
  all_goals simp
@[simp] theorem acceptingGoes_link (s : State) : (s.acceptingGoes).link = s.link := by
  unfold State.acceptingGoes; repeat' split
  all_goals simp
@[simp] theorem acceptingGoes_roster (s : State) : (s.acceptingGoes).roster = s.roster := by
  unfold State.acceptingGoes; repeat' split
  all_goals simp
@[simp] theorem acceptingGoes_ownReport (s : State) : (s.acceptingGoes).ownReport = s.ownReport := by
  unfold State.acceptingGoes; repeat' split
  all_goals simp
@[simp] theorem acceptingGoes_seqCounter (s : State) : (s.acceptingGoes).seqCounter = s.seqCounter := by
  unfold State.acceptingGoes; repeat' split
  all_goals simp
@[simp] theorem acceptingGoes_inputs (s : State) : (s.acceptingGoes).inputs = s.inputs := by
  unfold State.acceptingGoes; repeat' split
  all_goals simp
@[simp] theorem acceptingGoes_counters (s : State) : (s.acceptingGoes).counters = s.counters := by
  unfold State.acceptingGoes; repeat' split
  all_goals simp
@[simp] theorem acceptingGoes_chans (s : State) : (s.acceptingGoes).chans = s.chans := by
  unfold State.acceptingGoes; repeat' split
  all_goals simp
@[simp] theorem acceptingGoes_meas (s : State) : (s.acceptingGoes).meas = s.meas := by
  unfold State.acceptingGoes; repeat' split
  all_goals simp
@[simp] theorem acceptingGoes_check (s : State) : (s.acceptingGoes).check = s.check := by
  unfold State.acceptingGoes; repeat' split
  all_goals simp
@[simp] theorem acceptingGoes_draw (s : State) : (s.acceptingGoes).draw = s.draw := by
  unfold State.acceptingGoes; repeat' split
  all_goals simp
@[simp] theorem acceptingGoes_pwm (s : State) : (s.acceptingGoes).pwm = s.pwm := by
  unfold State.acceptingGoes; repeat' split
  all_goals simp
@[simp] theorem acceptingGoes_brk (s : State) : (s.acceptingGoes).brk = s.brk := by
  unfold State.acceptingGoes; repeat' split
  all_goals simp
@[simp] theorem acceptingGoes_pending (s : State) : (s.acceptingGoes).pending = s.pending := by
  unfold State.acceptingGoes; repeat' split
  all_goals simp
@[simp] theorem acceptingStep_now (s : State) : (s.acceptingStep).now = s.now := by
  unfold State.acceptingStep; repeat' split
  all_goals simp
@[simp] theorem acceptingStep_power (s : State) : (s.acceptingStep).power = s.power := by
  unfold State.acceptingStep; repeat' split
  all_goals simp
@[simp] theorem acceptingStep_pins (s : State) : (s.acceptingStep).pins = s.pins := by
  unfold State.acceptingStep; repeat' split
  all_goals simp
@[simp] theorem acceptingStep_station (s : State) : (s.acceptingStep).station = s.station := by
  unfold State.acceptingStep; repeat' split
  all_goals simp
@[simp] theorem acceptingStep_config (s : State) : (s.acceptingStep).config = s.config := by
  unfold State.acceptingStep; repeat' split
  all_goals simp
@[simp] theorem acceptingStep_line (s : State) : (s.acceptingStep).line = s.line := by
  unfold State.acceptingStep; repeat' split
  all_goals simp
@[simp] theorem acceptingStep_round (s : State) : (s.acceptingStep).round = s.round := by
  unfold State.acceptingStep; repeat' split
  all_goals simp
@[simp] theorem acceptingStep_link (s : State) : (s.acceptingStep).link = s.link := by
  unfold State.acceptingStep; repeat' split
  all_goals simp
@[simp] theorem acceptingStep_roster (s : State) : (s.acceptingStep).roster = s.roster := by
  unfold State.acceptingStep; repeat' split
  all_goals simp
@[simp] theorem acceptingStep_ownReport (s : State) : (s.acceptingStep).ownReport = s.ownReport := by
  unfold State.acceptingStep; repeat' split
  all_goals simp
@[simp] theorem acceptingStep_seqCounter (s : State) : (s.acceptingStep).seqCounter = s.seqCounter := by
  unfold State.acceptingStep; repeat' split
  all_goals simp
@[simp] theorem acceptingStep_inputs (s : State) : (s.acceptingStep).inputs = s.inputs := by
  unfold State.acceptingStep; repeat' split
  all_goals simp
@[simp] theorem acceptingStep_counters (s : State) : (s.acceptingStep).counters = s.counters := by
  unfold State.acceptingStep; repeat' split
  all_goals simp
@[simp] theorem acceptingStep_chans (s : State) : (s.acceptingStep).chans = s.chans := by
  unfold State.acceptingStep; repeat' split
  all_goals simp
@[simp] theorem acceptingStep_meas (s : State) : (s.acceptingStep).meas = s.meas := by
  unfold State.acceptingStep; repeat' split
  all_goals simp
@[simp] theorem acceptingStep_check (s : State) : (s.acceptingStep).check = s.check := by
  unfold State.acceptingStep; repeat' split
  all_goals simp
@[simp] theorem acceptingStep_draw (s : State) : (s.acceptingStep).draw = s.draw := by
  unfold State.acceptingStep; repeat' split
  all_goals simp
@[simp] theorem acceptingStep_pwm (s : State) : (s.acceptingStep).pwm = s.pwm := by
  unfold State.acceptingStep; repeat' split
  all_goals simp
@[simp] theorem acceptingStep_brk (s : State) : (s.acceptingStep).brk = s.brk := by
  unfold State.acceptingStep; repeat' split
  all_goals simp
@[simp] theorem acceptingStep_pending (s : State) : (s.acceptingStep).pending = s.pending := by
  unfold State.acceptingStep; repeat' split
  all_goals simp
@[simp] theorem proposingStep_now (s : State) : (s.proposingStep).now = s.now := by
  unfold State.proposingStep; repeat' split
  all_goals simp
@[simp] theorem proposingStep_power (s : State) : (s.proposingStep).power = s.power := by
  unfold State.proposingStep; repeat' split
  all_goals simp
@[simp] theorem proposingStep_pins (s : State) : (s.proposingStep).pins = s.pins := by
  unfold State.proposingStep; repeat' split
  all_goals simp
@[simp] theorem proposingStep_station (s : State) : (s.proposingStep).station = s.station := by
  unfold State.proposingStep; repeat' split
  all_goals simp
@[simp] theorem proposingStep_config (s : State) : (s.proposingStep).config = s.config := by
  unfold State.proposingStep; repeat' split
  all_goals simp
@[simp] theorem proposingStep_line (s : State) : (s.proposingStep).line = s.line := by
  unfold State.proposingStep; repeat' split
  all_goals simp
@[simp] theorem proposingStep_round (s : State) : (s.proposingStep).round = s.round := by
  unfold State.proposingStep; repeat' split
  all_goals simp
@[simp] theorem proposingStep_link (s : State) : (s.proposingStep).link = s.link := by
  unfold State.proposingStep; repeat' split
  all_goals simp
@[simp] theorem proposingStep_roster (s : State) : (s.proposingStep).roster = s.roster := by
  unfold State.proposingStep; repeat' split
  all_goals simp
@[simp] theorem proposingStep_ownReport (s : State) : (s.proposingStep).ownReport = s.ownReport := by
  unfold State.proposingStep; repeat' split
  all_goals simp
@[simp] theorem proposingStep_seqCounter (s : State) : (s.proposingStep).seqCounter = s.seqCounter := by
  unfold State.proposingStep; repeat' split
  all_goals simp
@[simp] theorem proposingStep_inputs (s : State) : (s.proposingStep).inputs = s.inputs := by
  unfold State.proposingStep; repeat' split
  all_goals simp
@[simp] theorem proposingStep_counters (s : State) : (s.proposingStep).counters = s.counters := by
  unfold State.proposingStep; repeat' split
  all_goals simp
@[simp] theorem proposingStep_chans (s : State) : (s.proposingStep).chans = s.chans := by
  unfold State.proposingStep; repeat' split
  all_goals simp
@[simp] theorem proposingStep_meas (s : State) : (s.proposingStep).meas = s.meas := by
  unfold State.proposingStep; repeat' split
  all_goals simp
@[simp] theorem proposingStep_check (s : State) : (s.proposingStep).check = s.check := by
  unfold State.proposingStep; repeat' split
  all_goals simp
@[simp] theorem proposingStep_draw (s : State) : (s.proposingStep).draw = s.draw := by
  unfold State.proposingStep; repeat' split
  all_goals simp
@[simp] theorem proposingStep_pwm (s : State) : (s.proposingStep).pwm = s.pwm := by
  unfold State.proposingStep; repeat' split
  all_goals simp
@[simp] theorem proposingStep_brk (s : State) : (s.proposingStep).brk = s.brk := by
  unfold State.proposingStep; repeat' split
  all_goals simp
@[simp] theorem proposingStep_pending (s : State) : (s.proposingStep).pending = s.pending := by
  unfold State.proposingStep; repeat' split
  all_goals simp
@[simp] theorem idleStep_now (s : State) : (s.idleStep).now = s.now := by unfold State.idleStep; split <;> simp
@[simp] theorem idleStep_power (s : State) : (s.idleStep).power = s.power := by unfold State.idleStep; split <;> simp
@[simp] theorem idleStep_pins (s : State) : (s.idleStep).pins = s.pins := by unfold State.idleStep; split <;> simp
@[simp] theorem idleStep_station (s : State) : (s.idleStep).station = s.station := by unfold State.idleStep; split <;> simp
@[simp] theorem idleStep_config (s : State) : (s.idleStep).config = s.config := by unfold State.idleStep; split <;> simp
@[simp] theorem idleStep_line (s : State) : (s.idleStep).line = s.line := by unfold State.idleStep; split <;> simp
@[simp] theorem idleStep_round (s : State) : (s.idleStep).round = s.round := by unfold State.idleStep; split <;> simp
@[simp] theorem idleStep_link (s : State) : (s.idleStep).link = s.link := by unfold State.idleStep; split <;> simp
@[simp] theorem idleStep_roster (s : State) : (s.idleStep).roster = s.roster := by unfold State.idleStep; split <;> simp
@[simp] theorem idleStep_ownReport (s : State) : (s.idleStep).ownReport = s.ownReport := by unfold State.idleStep; split <;> simp
@[simp] theorem idleStep_seqCounter (s : State) : (s.idleStep).seqCounter = s.seqCounter := by unfold State.idleStep; split <;> simp
@[simp] theorem idleStep_inputs (s : State) : (s.idleStep).inputs = s.inputs := by unfold State.idleStep; split <;> simp
@[simp] theorem idleStep_counters (s : State) : (s.idleStep).counters = s.counters := by unfold State.idleStep; split <;> simp
@[simp] theorem idleStep_chans (s : State) : (s.idleStep).chans = s.chans := by unfold State.idleStep; split <;> simp
@[simp] theorem idleStep_meas (s : State) : (s.idleStep).meas = s.meas := by unfold State.idleStep; split <;> simp
@[simp] theorem idleStep_check (s : State) : (s.idleStep).check = s.check := by unfold State.idleStep; split <;> simp
@[simp] theorem idleStep_draw (s : State) : (s.idleStep).draw = s.draw := by unfold State.idleStep; split <;> simp
@[simp] theorem idleStep_trim (s : State) : (s.idleStep).trim = s.trim := by unfold State.idleStep; split <;> simp
@[simp] theorem idleStep_pwm (s : State) : (s.idleStep).pwm = s.pwm := by unfold State.idleStep; split <;> simp
@[simp] theorem idleStep_brk (s : State) : (s.idleStep).brk = s.brk := by unfold State.idleStep; split <;> simp
@[simp] theorem idleStep_log (s : State) : (s.idleStep).log = s.log := by unfold State.idleStep; split <;> simp
@[simp] theorem idleStep_pending (s : State) : (s.idleStep).pending = s.pending := by unfold State.idleStep; split <;> simp
@[simp] theorem closeLink_now (s : State) : (s.closeLink).now = s.now := by unfold State.closeLink; dsimp only; split <;> simp
@[simp] theorem closeLink_power (s : State) : (s.closeLink).power = s.power := by unfold State.closeLink; dsimp only; split <;> simp
@[simp] theorem closeLink_pins (s : State) : (s.closeLink).pins = s.pins := by unfold State.closeLink; dsimp only; split <;> simp
@[simp] theorem closeLink_station (s : State) : (s.closeLink).station = s.station := by unfold State.closeLink; dsimp only; split <;> simp
@[simp] theorem closeLink_config (s : State) : (s.closeLink).config = s.config := by unfold State.closeLink; dsimp only; split <;> simp
@[simp] theorem closeLink_line (s : State) : (s.closeLink).line = s.line := by unfold State.closeLink; dsimp only; split <;> simp
@[simp] theorem closeLink_round (s : State) : (s.closeLink).round = s.round := by unfold State.closeLink; dsimp only; split <;> simp
@[simp] theorem closeLink_link (s : State) : (s.closeLink).link = s.link := by unfold State.closeLink; dsimp only; split <;> simp
@[simp] theorem closeLink_roster (s : State) : (s.closeLink).roster = s.roster := by unfold State.closeLink; dsimp only; split <;> simp
@[simp] theorem closeLink_ownReport (s : State) : (s.closeLink).ownReport = s.ownReport := by unfold State.closeLink; dsimp only; split <;> simp
@[simp] theorem closeLink_lastOutcome (s : State) : (s.closeLink).lastOutcome = s.lastOutcome := by unfold State.closeLink; dsimp only; split <;> simp
@[simp] theorem closeLink_seqCounter (s : State) : (s.closeLink).seqCounter = s.seqCounter := by unfold State.closeLink; dsimp only; split <;> simp
@[simp] theorem closeLink_inputs (s : State) : (s.closeLink).inputs = s.inputs := by unfold State.closeLink; dsimp only; split <;> simp
@[simp] theorem closeLink_counters (s : State) : (s.closeLink).counters = s.counters := by unfold State.closeLink; dsimp only; split <;> simp
@[simp] theorem closeLink_chans (s : State) : (s.closeLink).chans = s.chans := by unfold State.closeLink; dsimp only; split <;> simp
@[simp] theorem closeLink_meas (s : State) : (s.closeLink).meas = s.meas := by unfold State.closeLink; dsimp only; split <;> simp
@[simp] theorem closeLink_check (s : State) : (s.closeLink).check = s.check := by unfold State.closeLink; dsimp only; split <;> simp
@[simp] theorem closeLink_draw (s : State) : (s.closeLink).draw = s.draw := by unfold State.closeLink; dsimp only; split <;> simp
@[simp] theorem closeLink_trim (s : State) : (s.closeLink).trim = s.trim := by unfold State.closeLink; dsimp only; split <;> simp
@[simp] theorem closeLink_pwm (s : State) : (s.closeLink).pwm = s.pwm := by unfold State.closeLink; dsimp only; split <;> simp
@[simp] theorem closeLink_brk (s : State) : (s.closeLink).brk = s.brk := by unfold State.closeLink; dsimp only; split <;> simp
@[simp] theorem closeLink_pending (s : State) : (s.closeLink).pending = s.pending := by unfold State.closeLink; dsimp only; split <;> simp
@[simp] theorem countBoundaries_now (s : State) : (s.countBoundaries).now = s.now := by unfold State.countBoundaries; split <;> rfl
@[simp] theorem countBoundaries_power (s : State) : (s.countBoundaries).power = s.power := by unfold State.countBoundaries; split <;> rfl
@[simp] theorem countBoundaries_pins (s : State) : (s.countBoundaries).pins = s.pins := by unfold State.countBoundaries; split <;> rfl
@[simp] theorem countBoundaries_station (s : State) : (s.countBoundaries).station = s.station := by unfold State.countBoundaries; split <;> rfl
@[simp] theorem countBoundaries_config (s : State) : (s.countBoundaries).config = s.config := by unfold State.countBoundaries; split <;> rfl
@[simp] theorem countBoundaries_line (s : State) : (s.countBoundaries).line = s.line := by unfold State.countBoundaries; split <;> rfl
@[simp] theorem countBoundaries_round (s : State) : (s.countBoundaries).round = s.round := by unfold State.countBoundaries; split <;> rfl
@[simp] theorem countBoundaries_link (s : State) : (s.countBoundaries).link = s.link := by unfold State.countBoundaries; split <;> rfl
@[simp] theorem countBoundaries_roster (s : State) : (s.countBoundaries).roster = s.roster := by unfold State.countBoundaries; split <;> rfl
@[simp] theorem countBoundaries_ownReport (s : State) : (s.countBoundaries).ownReport = s.ownReport := by unfold State.countBoundaries; split <;> rfl
@[simp] theorem countBoundaries_lastOutcome (s : State) : (s.countBoundaries).lastOutcome = s.lastOutcome := by unfold State.countBoundaries; split <;> rfl
@[simp] theorem countBoundaries_seqCounter (s : State) : (s.countBoundaries).seqCounter = s.seqCounter := by unfold State.countBoundaries; split <;> rfl
@[simp] theorem countBoundaries_inputs (s : State) : (s.countBoundaries).inputs = s.inputs := by unfold State.countBoundaries; split <;> rfl
@[simp] theorem countBoundaries_counters (s : State) : (s.countBoundaries).counters = s.counters := by unfold State.countBoundaries; split <;> rfl
@[simp] theorem countBoundaries_chans (s : State) : (s.countBoundaries).chans = s.chans := by unfold State.countBoundaries; split <;> rfl
@[simp] theorem countBoundaries_meas (s : State) : (s.countBoundaries).meas = s.meas := by unfold State.countBoundaries; split <;> rfl
@[simp] theorem countBoundaries_check (s : State) : (s.countBoundaries).check = s.check := by unfold State.countBoundaries; split <;> rfl
@[simp] theorem countBoundaries_draw (s : State) : (s.countBoundaries).draw = s.draw := by unfold State.countBoundaries; split <;> rfl
@[simp] theorem countBoundaries_trim (s : State) : (s.countBoundaries).trim = s.trim := by unfold State.countBoundaries; split <;> rfl
@[simp] theorem countBoundaries_pwm (s : State) : (s.countBoundaries).pwm = s.pwm := by unfold State.countBoundaries; split <;> rfl
@[simp] theorem countBoundaries_brk (s : State) : (s.countBoundaries).brk = s.brk := by unfold State.countBoundaries; split <;> rfl
@[simp] theorem countBoundaries_log (s : State) : (s.countBoundaries).log = s.log := by unfold State.countBoundaries; split <;> rfl
@[simp] theorem countBoundaries_port (s : State) : (s.countBoundaries).port = s.port := by unfold State.countBoundaries; split <;> rfl
@[simp] theorem countBoundaries_pending (s : State) : (s.countBoundaries).pending = s.pending := by unfold State.countBoundaries; split <;> rfl
/-- What a guarded SCHEDULED or RUNNING record keeps. -/
theorem guarded_keeps {β : Type} (p : State → β) {go : State → State} (hgo : ∀ t : State, p (go t) = p t)
    (hset : ∀ (t : State) (m : ChannelSet), p { t with trial := { t.trial with readySet := m } } = p t)
    (hown : ∀ (t : State) (r : Reason), p (t.abortOwn r) = p t)
    (hheard : ∀ (t : State) (b : ParamBytes), p (t.abortHeard b) = p t) (s : State) : p (s.guarded go) = p s := by
  unfold State.guarded
  split
  · exact hown _ _
  · split
    · rw [hheard]; exact hset _ _
    · rw [hgo]; exact hset _ _
@[simp] theorem atDecision_now (s : State) : (s.atDecision).now = s.now := by simp [State.atDecision]
@[simp] theorem atDecision_power (s : State) : (s.atDecision).power = s.power := by simp [State.atDecision]
@[simp] theorem atDecision_pins (s : State) : (s.atDecision).pins = s.pins := by simp [State.atDecision]
@[simp] theorem atDecision_station (s : State) : (s.atDecision).station = s.station := by simp [State.atDecision]
@[simp] theorem atDecision_config (s : State) : (s.atDecision).config = s.config := by simp [State.atDecision]
@[simp] theorem atDecision_line (s : State) : (s.atDecision).line = s.line := by simp [State.atDecision]
@[simp] theorem atDecision_round (s : State) : (s.atDecision).round = s.round := by simp [State.atDecision]
@[simp] theorem atDecision_link (s : State) : (s.atDecision).link = s.link := by simp [State.atDecision]
@[simp] theorem atDecision_roster (s : State) : (s.atDecision).roster = s.roster := by simp [State.atDecision]
@[simp] theorem atDecision_ownReport (s : State) : (s.atDecision).ownReport = s.ownReport := by simp [State.atDecision]
@[simp] theorem atDecision_lastOutcome (s : State) : (s.atDecision).lastOutcome = s.lastOutcome := by simp [State.atDecision]
@[simp] theorem atDecision_seqCounter (s : State) : (s.atDecision).seqCounter = s.seqCounter := by simp [State.atDecision]
@[simp] theorem atDecision_inputs (s : State) : (s.atDecision).inputs = s.inputs := by simp [State.atDecision]
@[simp] theorem atDecision_counters (s : State) : (s.atDecision).counters = s.counters := by simp [State.atDecision]
@[simp] theorem atDecision_chans (s : State) : (s.atDecision).chans = s.chans := by simp [State.atDecision]
@[simp] theorem atDecision_meas (s : State) : (s.atDecision).meas = s.meas := by simp [State.atDecision]
@[simp] theorem atDecision_check (s : State) : (s.atDecision).check = s.check := by simp [State.atDecision]
@[simp] theorem atDecision_draw (s : State) : (s.atDecision).draw = s.draw := by simp [State.atDecision]
@[simp] theorem atDecision_trim (s : State) : (s.atDecision).trim = s.trim := by simp [State.atDecision]
@[simp] theorem atDecision_pwm (s : State) : (s.atDecision).pwm = s.pwm := by simp [State.atDecision]
@[simp] theorem atDecision_brk (s : State) : (s.atDecision).brk = s.brk := by simp [State.atDecision]
@[simp] theorem atDecision_pending (s : State) : (s.atDecision).pending = s.pending := by simp [State.atDecision]
@[simp] theorem decidePhase_now (s : State) : (s.decidePhase).now = s.now := by
  unfold State.decidePhase; split
  · simp
  · simp
  · simp
  · exact guarded_keeps (·.now) awaitStart_now (fun _ _ => rfl) abortOwn_now abortHeard_now _
  · exact guarded_keeps (·.now) countDown_now (fun _ _ => rfl) abortOwn_now abortHeard_now _
  · rfl
@[simp] theorem decidePhase_power (s : State) : (s.decidePhase).power = s.power := by
  unfold State.decidePhase; split
  · simp
  · simp
  · simp
  · exact guarded_keeps (·.power) awaitStart_power (fun _ _ => rfl) abortOwn_power abortHeard_power _
  · exact guarded_keeps (·.power) countDown_power (fun _ _ => rfl) abortOwn_power abortHeard_power _
  · rfl
@[simp] theorem decidePhase_pins (s : State) : (s.decidePhase).pins = s.pins := by
  unfold State.decidePhase; split
  · simp
  · simp
  · simp
  · exact guarded_keeps (·.pins) awaitStart_pins (fun _ _ => rfl) abortOwn_pins abortHeard_pins _
  · exact guarded_keeps (·.pins) countDown_pins (fun _ _ => rfl) abortOwn_pins abortHeard_pins _
  · rfl
@[simp] theorem decidePhase_station (s : State) : (s.decidePhase).station = s.station := by
  unfold State.decidePhase; split
  · simp
  · simp
  · simp
  · exact guarded_keeps (·.station) awaitStart_station (fun _ _ => rfl) abortOwn_station abortHeard_station _
  · exact guarded_keeps (·.station) countDown_station (fun _ _ => rfl) abortOwn_station abortHeard_station _
  · rfl
@[simp] theorem decidePhase_config (s : State) : (s.decidePhase).config = s.config := by
  unfold State.decidePhase; split
  · simp
  · simp
  · simp
  · exact guarded_keeps (·.config) awaitStart_config (fun _ _ => rfl) abortOwn_config abortHeard_config _
  · exact guarded_keeps (·.config) countDown_config (fun _ _ => rfl) abortOwn_config abortHeard_config _
  · rfl
@[simp] theorem decidePhase_line (s : State) : (s.decidePhase).line = s.line := by
  unfold State.decidePhase; split
  · simp
  · simp
  · simp
  · exact guarded_keeps (·.line) awaitStart_line (fun _ _ => rfl) abortOwn_line abortHeard_line _
  · exact guarded_keeps (·.line) countDown_line (fun _ _ => rfl) abortOwn_line abortHeard_line _
  · rfl
@[simp] theorem decidePhase_round (s : State) : (s.decidePhase).round = s.round := by
  unfold State.decidePhase; split
  · simp
  · simp
  · simp
  · exact guarded_keeps (·.round) awaitStart_round (fun _ _ => rfl) abortOwn_round abortHeard_round _
  · exact guarded_keeps (·.round) countDown_round (fun _ _ => rfl) abortOwn_round abortHeard_round _
  · rfl
@[simp] theorem decidePhase_link (s : State) : (s.decidePhase).link = s.link := by
  unfold State.decidePhase; split
  · simp
  · simp
  · simp
  · exact guarded_keeps (·.link) awaitStart_link (fun _ _ => rfl) abortOwn_link abortHeard_link _
  · exact guarded_keeps (·.link) countDown_link (fun _ _ => rfl) abortOwn_link abortHeard_link _
  · rfl
@[simp] theorem decidePhase_roster (s : State) : (s.decidePhase).roster = s.roster := by
  unfold State.decidePhase; split
  · simp
  · simp
  · simp
  · exact guarded_keeps (·.roster) awaitStart_roster (fun _ _ => rfl) abortOwn_roster abortHeard_roster _
  · exact guarded_keeps (·.roster) countDown_roster (fun _ _ => rfl) abortOwn_roster abortHeard_roster _
  · rfl
@[simp] theorem decidePhase_ownReport (s : State) : (s.decidePhase).ownReport = s.ownReport := by
  unfold State.decidePhase; split
  · simp
  · simp
  · simp
  · exact guarded_keeps (·.ownReport) awaitStart_ownReport (fun _ _ => rfl) abortOwn_ownReport abortHeard_ownReport _
  · exact guarded_keeps (·.ownReport) countDown_ownReport (fun _ _ => rfl) abortOwn_ownReport abortHeard_ownReport _
  · rfl
@[simp] theorem decidePhase_seqCounter (s : State) : (s.decidePhase).seqCounter = s.seqCounter := by
  unfold State.decidePhase; split
  · simp
  · simp
  · simp
  · exact guarded_keeps (·.seqCounter) awaitStart_seqCounter (fun _ _ => rfl) abortOwn_seqCounter abortHeard_seqCounter _
  · exact guarded_keeps (·.seqCounter) countDown_seqCounter (fun _ _ => rfl) abortOwn_seqCounter abortHeard_seqCounter _
  · rfl
@[simp] theorem decidePhase_inputs (s : State) : (s.decidePhase).inputs = s.inputs := by
  unfold State.decidePhase; split
  · simp
  · simp
  · simp
  · exact guarded_keeps (·.inputs) awaitStart_inputs (fun _ _ => rfl) abortOwn_inputs abortHeard_inputs _
  · exact guarded_keeps (·.inputs) countDown_inputs (fun _ _ => rfl) abortOwn_inputs abortHeard_inputs _
  · rfl
@[simp] theorem decidePhase_counters (s : State) : (s.decidePhase).counters = s.counters := by
  unfold State.decidePhase; split
  · simp
  · simp
  · simp
  · exact guarded_keeps (·.counters) awaitStart_counters (fun _ _ => rfl) abortOwn_counters abortHeard_counters _
  · exact guarded_keeps (·.counters) countDown_counters (fun _ _ => rfl) abortOwn_counters abortHeard_counters _
  · rfl
@[simp] theorem decidePhase_chans (s : State) : (s.decidePhase).chans = s.chans := by
  unfold State.decidePhase; split
  · simp
  · simp
  · simp
  · exact guarded_keeps (·.chans) awaitStart_chans (fun _ _ => rfl) abortOwn_chans abortHeard_chans _
  · exact guarded_keeps (·.chans) countDown_chans (fun _ _ => rfl) abortOwn_chans abortHeard_chans _
  · rfl
@[simp] theorem decidePhase_meas (s : State) : (s.decidePhase).meas = s.meas := by
  unfold State.decidePhase; split
  · simp
  · simp
  · simp
  · exact guarded_keeps (·.meas) awaitStart_meas (fun _ _ => rfl) abortOwn_meas abortHeard_meas _
  · exact guarded_keeps (·.meas) countDown_meas (fun _ _ => rfl) abortOwn_meas abortHeard_meas _
  · rfl
@[simp] theorem decidePhase_check (s : State) : (s.decidePhase).check = s.check := by
  unfold State.decidePhase; split
  · simp
  · simp
  · simp
  · exact guarded_keeps (·.check) awaitStart_check (fun _ _ => rfl) abortOwn_check abortHeard_check _
  · exact guarded_keeps (·.check) countDown_check (fun _ _ => rfl) abortOwn_check abortHeard_check _
  · rfl
@[simp] theorem decidePhase_draw (s : State) : (s.decidePhase).draw = s.draw := by
  unfold State.decidePhase; split
  · simp
  · simp
  · simp
  · exact guarded_keeps (·.draw) awaitStart_draw (fun _ _ => rfl) abortOwn_draw abortHeard_draw _
  · exact guarded_keeps (·.draw) countDown_draw (fun _ _ => rfl) abortOwn_draw abortHeard_draw _
  · rfl
@[simp] theorem decidePhase_pwm (s : State) : (s.decidePhase).pwm = s.pwm := by
  unfold State.decidePhase; split
  · simp
  · simp
  · simp
  · exact guarded_keeps (·.pwm) awaitStart_pwm (fun _ _ => rfl) abortOwn_pwm abortHeard_pwm _
  · exact guarded_keeps (·.pwm) countDown_pwm (fun _ _ => rfl) abortOwn_pwm abortHeard_pwm _
  · rfl
@[simp] theorem decidePhase_brk (s : State) : (s.decidePhase).brk = s.brk := by
  unfold State.decidePhase; split
  · simp
  · simp
  · simp
  · exact guarded_keeps (·.brk) awaitStart_brk (fun _ _ => rfl) abortOwn_brk abortHeard_brk _
  · exact guarded_keeps (·.brk) countDown_brk (fun _ _ => rfl) abortOwn_brk abortHeard_brk _
  · rfl
@[simp] theorem decidePhase_pending (s : State) : (s.decidePhase).pending = s.pending := by
  unfold State.decidePhase; split
  · simp
  · simp
  · simp
  · exact guarded_keeps (·.pending) awaitStart_pending (fun _ _ => rfl) abortOwn_pending abortHeard_pending _
  · exact guarded_keeps (·.pending) countDown_pending (fun _ _ => rfl) abortOwn_pending abortHeard_pending _
  · rfl
@[simp] theorem decide_now (s : State) : (s.decide).now = s.now := by simp [State.decide]
@[simp] theorem decide_power (s : State) : (s.decide).power = s.power := by simp [State.decide]
@[simp] theorem decide_pins (s : State) : (s.decide).pins = s.pins := by simp [State.decide]
@[simp] theorem decide_station (s : State) : (s.decide).station = s.station := by simp [State.decide]
@[simp] theorem decide_config (s : State) : (s.decide).config = s.config := by simp [State.decide]
@[simp] theorem decide_line (s : State) : (s.decide).line = s.line := by simp [State.decide]
@[simp] theorem decide_round (s : State) : (s.decide).round = s.round := by simp [State.decide]
@[simp] theorem decide_link (s : State) : (s.decide).link = s.link := by simp [State.decide]
@[simp] theorem decide_roster (s : State) : (s.decide).roster = s.roster := by simp [State.decide]
@[simp] theorem decide_ownReport (s : State) : (s.decide).ownReport = s.ownReport := by simp [State.decide]
@[simp] theorem decide_seqCounter (s : State) : (s.decide).seqCounter = s.seqCounter := by simp [State.decide]
@[simp] theorem decide_inputs (s : State) : (s.decide).inputs = s.inputs := by simp [State.decide]
@[simp] theorem decide_counters (s : State) : (s.decide).counters = s.counters := by simp [State.decide]
@[simp] theorem decide_chans (s : State) : (s.decide).chans = s.chans := by simp [State.decide]
@[simp] theorem decide_meas (s : State) : (s.decide).meas = s.meas := by simp [State.decide]
@[simp] theorem decide_check (s : State) : (s.decide).check = s.check := by simp [State.decide]
@[simp] theorem decide_draw (s : State) : (s.decide).draw = s.draw := by simp [State.decide]
@[simp] theorem decide_pwm (s : State) : (s.decide).pwm = s.pwm := by simp [State.decide]
@[simp] theorem decide_brk (s : State) : (s.decide).brk = s.brk := by simp [State.decide]
@[simp] theorem decide_pending (s : State) : (s.decide).pending = s.pending := by simp [State.decide]
@[simp] theorem testIdle_now (s : State) (b : Bool) : (s.testIdle b).now = s.now := by unfold State.testIdle; split <;> simp
@[simp] theorem testIdle_power (s : State) (b : Bool) : (s.testIdle b).power = s.power := by unfold State.testIdle; split <;> simp
@[simp] theorem testIdle_pins (s : State) (b : Bool) : (s.testIdle b).pins = s.pins := by unfold State.testIdle; split <;> simp
@[simp] theorem testIdle_station (s : State) (b : Bool) : (s.testIdle b).station = s.station := by unfold State.testIdle; split <;> simp
@[simp] theorem testIdle_config (s : State) (b : Bool) : (s.testIdle b).config = s.config := by unfold State.testIdle; split <;> simp
@[simp] theorem testIdle_line (s : State) (b : Bool) : (s.testIdle b).line = s.line := by unfold State.testIdle; split <;> simp
@[simp] theorem testIdle_round (s : State) (b : Bool) : (s.testIdle b).round = s.round := by unfold State.testIdle; split <;> simp
@[simp] theorem testIdle_link (s : State) (b : Bool) : (s.testIdle b).link = s.link := by unfold State.testIdle; split <;> simp
@[simp] theorem testIdle_roster (s : State) (b : Bool) : (s.testIdle b).roster = s.roster := by unfold State.testIdle; split <;> simp
@[simp] theorem testIdle_ownReport (s : State) (b : Bool) : (s.testIdle b).ownReport = s.ownReport := by unfold State.testIdle; split <;> simp
@[simp] theorem testIdle_lastOutcome (s : State) (b : Bool) : (s.testIdle b).lastOutcome = s.lastOutcome := by unfold State.testIdle; split <;> simp
@[simp] theorem testIdle_seqCounter (s : State) (b : Bool) : (s.testIdle b).seqCounter = s.seqCounter := by unfold State.testIdle; split <;> simp
@[simp] theorem testIdle_inputs (s : State) (b : Bool) : (s.testIdle b).inputs = s.inputs := by unfold State.testIdle; split <;> simp
@[simp] theorem testIdle_counters (s : State) (b : Bool) : (s.testIdle b).counters = s.counters := by unfold State.testIdle; split <;> simp
@[simp] theorem testIdle_chans (s : State) (b : Bool) : (s.testIdle b).chans = s.chans := by unfold State.testIdle; split <;> simp
@[simp] theorem testIdle_meas (s : State) (b : Bool) : (s.testIdle b).meas = s.meas := by unfold State.testIdle; split <;> simp
@[simp] theorem testIdle_check (s : State) (b : Bool) : (s.testIdle b).check = s.check := by unfold State.testIdle; split <;> simp
@[simp] theorem testIdle_draw (s : State) (b : Bool) : (s.testIdle b).draw = s.draw := by unfold State.testIdle; split <;> simp
@[simp] theorem testIdle_trim (s : State) (b : Bool) : (s.testIdle b).trim = s.trim := by unfold State.testIdle; split <;> simp
@[simp] theorem testIdle_pwm (s : State) (b : Bool) : (s.testIdle b).pwm = s.pwm := by unfold State.testIdle; split <;> simp
@[simp] theorem testIdle_brk (s : State) (b : Bool) : (s.testIdle b).brk = s.brk := by unfold State.testIdle; split <;> simp
@[simp] theorem testIdle_log (s : State) (b : Bool) : (s.testIdle b).log = s.log := by unfold State.testIdle; split <;> simp
@[simp] theorem testIdle_pending (s : State) (b : Bool) : (s.testIdle b).pending = s.pending := by unfold State.testIdle; split <;> simp
@[simp] theorem trialAndTrims_now (s : State) : (s.trialAndTrims).now = s.now := by simp [State.trialAndTrims]
@[simp] theorem trialAndTrims_power (s : State) : (s.trialAndTrims).power = s.power := by simp [State.trialAndTrims]
@[simp] theorem trialAndTrims_pins (s : State) : (s.trialAndTrims).pins = s.pins := by simp [State.trialAndTrims]
@[simp] theorem trialAndTrims_station (s : State) : (s.trialAndTrims).station = s.station := by simp [State.trialAndTrims]
@[simp] theorem trialAndTrims_config (s : State) : (s.trialAndTrims).config = s.config := by simp [State.trialAndTrims]
@[simp] theorem trialAndTrims_line (s : State) : (s.trialAndTrims).line = s.line := by simp [State.trialAndTrims]
@[simp] theorem trialAndTrims_round (s : State) : (s.trialAndTrims).round = s.round := by simp [State.trialAndTrims]
@[simp] theorem trialAndTrims_link (s : State) : (s.trialAndTrims).link = s.link := by simp [State.trialAndTrims]
@[simp] theorem trialAndTrims_roster (s : State) : (s.trialAndTrims).roster = s.roster := by simp [State.trialAndTrims]
@[simp] theorem trialAndTrims_seqCounter (s : State) : (s.trialAndTrims).seqCounter = s.seqCounter := by simp [State.trialAndTrims]
@[simp] theorem trialAndTrims_inputs (s : State) : (s.trialAndTrims).inputs = s.inputs := by simp [State.trialAndTrims]
@[simp] theorem trialAndTrims_counters (s : State) : (s.trialAndTrims).counters = s.counters := by simp [State.trialAndTrims]
@[simp] theorem trialAndTrims_chans (s : State) : (s.trialAndTrims).chans = s.chans := by simp [State.trialAndTrims]
@[simp] theorem trialAndTrims_meas (s : State) : (s.trialAndTrims).meas = s.meas := by simp [State.trialAndTrims]
@[simp] theorem trialAndTrims_check (s : State) : (s.trialAndTrims).check = s.check := by simp [State.trialAndTrims]
@[simp] theorem trialAndTrims_draw (s : State) : (s.trialAndTrims).draw = s.draw := by simp [State.trialAndTrims]
@[simp] theorem trialAndTrims_brk (s : State) : (s.trialAndTrims).brk = s.brk := by simp [State.trialAndTrims]
@[simp] theorem trialAndTrims_pending (s : State) : (s.trialAndTrims).pending = s.pending := by simp [State.trialAndTrims]
@[simp] theorem dropAttempt_now (s : State) : (s.dropAttempt).now = s.now := by unfold State.dropAttempt; split <;> simp
@[simp] theorem dropAttempt_power (s : State) : (s.dropAttempt).power = s.power := by unfold State.dropAttempt; split <;> simp
@[simp] theorem dropAttempt_pins (s : State) : (s.dropAttempt).pins = s.pins := by unfold State.dropAttempt; split <;> simp
@[simp] theorem dropAttempt_station (s : State) : (s.dropAttempt).station = s.station := by unfold State.dropAttempt; split <;> simp
@[simp] theorem dropAttempt_config (s : State) : (s.dropAttempt).config = s.config := by unfold State.dropAttempt; split <;> simp
@[simp] theorem dropAttempt_round (s : State) : (s.dropAttempt).round = s.round := by unfold State.dropAttempt; split <;> simp
@[simp] theorem dropAttempt_link (s : State) : (s.dropAttempt).link = s.link := by unfold State.dropAttempt; split <;> simp
@[simp] theorem dropAttempt_roster (s : State) : (s.dropAttempt).roster = s.roster := by unfold State.dropAttempt; split <;> simp
@[simp] theorem dropAttempt_ownReport (s : State) : (s.dropAttempt).ownReport = s.ownReport := by unfold State.dropAttempt; split <;> simp
@[simp] theorem dropAttempt_trial (s : State) : (s.dropAttempt).trial = s.trial := by unfold State.dropAttempt; split <;> simp
@[simp] theorem dropAttempt_lastOutcome (s : State) : (s.dropAttempt).lastOutcome = s.lastOutcome := by unfold State.dropAttempt; split <;> simp
@[simp] theorem dropAttempt_seqCounter (s : State) : (s.dropAttempt).seqCounter = s.seqCounter := by unfold State.dropAttempt; split <;> simp
@[simp] theorem dropAttempt_inputs (s : State) : (s.dropAttempt).inputs = s.inputs := by unfold State.dropAttempt; split <;> simp
@[simp] theorem dropAttempt_counters (s : State) : (s.dropAttempt).counters = s.counters := by unfold State.dropAttempt; split <;> simp
@[simp] theorem dropAttempt_chans (s : State) : (s.dropAttempt).chans = s.chans := by unfold State.dropAttempt; split <;> simp
@[simp] theorem dropAttempt_meas (s : State) : (s.dropAttempt).meas = s.meas := by unfold State.dropAttempt; split <;> simp
@[simp] theorem dropAttempt_check (s : State) : (s.dropAttempt).check = s.check := by unfold State.dropAttempt; split <;> simp
@[simp] theorem dropAttempt_draw (s : State) : (s.dropAttempt).draw = s.draw := by unfold State.dropAttempt; split <;> simp
@[simp] theorem dropAttempt_trim (s : State) : (s.dropAttempt).trim = s.trim := by unfold State.dropAttempt; split <;> simp
@[simp] theorem dropAttempt_pwm (s : State) : (s.dropAttempt).pwm = s.pwm := by unfold State.dropAttempt; split <;> simp
@[simp] theorem dropAttempt_brk (s : State) : (s.dropAttempt).brk = s.brk := by unfold State.dropAttempt; split <;> simp
@[simp] theorem dropAttempt_log (s : State) : (s.dropAttempt).log = s.log := by unfold State.dropAttempt; split <;> simp
@[simp] theorem dropAttempt_pending (s : State) : (s.dropAttempt).pending = s.pending := by unfold State.dropAttempt; split <;> simp
@[simp] theorem enterOwnEntry_now (s : State) (l : LinkState) : (s.enterOwnEntry l).now = s.now := by unfold State.enterOwnEntry; split <;> simp
@[simp] theorem enterOwnEntry_power (s : State) (l : LinkState) : (s.enterOwnEntry l).power = s.power := by unfold State.enterOwnEntry; split <;> simp
@[simp] theorem enterOwnEntry_pins (s : State) (l : LinkState) : (s.enterOwnEntry l).pins = s.pins := by unfold State.enterOwnEntry; split <;> simp
@[simp] theorem enterOwnEntry_station (s : State) (l : LinkState) : (s.enterOwnEntry l).station = s.station := by unfold State.enterOwnEntry; split <;> simp
@[simp] theorem enterOwnEntry_config (s : State) (l : LinkState) : (s.enterOwnEntry l).config = s.config := by unfold State.enterOwnEntry; split <;> simp
@[simp] theorem enterOwnEntry_line (s : State) (l : LinkState) : (s.enterOwnEntry l).line = s.line := by unfold State.enterOwnEntry; split <;> simp
@[simp] theorem enterOwnEntry_round (s : State) (l : LinkState) : (s.enterOwnEntry l).round = s.round := by unfold State.enterOwnEntry; split <;> simp
@[simp] theorem enterOwnEntry_link (s : State) (l : LinkState) : (s.enterOwnEntry l).link = s.link := by unfold State.enterOwnEntry; split <;> simp
@[simp] theorem enterOwnEntry_ownReport (s : State) (l : LinkState) : (s.enterOwnEntry l).ownReport = s.ownReport := by unfold State.enterOwnEntry; split <;> simp
@[simp] theorem enterOwnEntry_trial (s : State) (l : LinkState) : (s.enterOwnEntry l).trial = s.trial := by unfold State.enterOwnEntry; split <;> simp
@[simp] theorem enterOwnEntry_lastOutcome (s : State) (l : LinkState) : (s.enterOwnEntry l).lastOutcome = s.lastOutcome := by unfold State.enterOwnEntry; split <;> simp
@[simp] theorem enterOwnEntry_seqCounter (s : State) (l : LinkState) : (s.enterOwnEntry l).seqCounter = s.seqCounter := by unfold State.enterOwnEntry; split <;> simp
@[simp] theorem enterOwnEntry_inputs (s : State) (l : LinkState) : (s.enterOwnEntry l).inputs = s.inputs := by unfold State.enterOwnEntry; split <;> simp
@[simp] theorem enterOwnEntry_counters (s : State) (l : LinkState) : (s.enterOwnEntry l).counters = s.counters := by unfold State.enterOwnEntry; split <;> simp
@[simp] theorem enterOwnEntry_chans (s : State) (l : LinkState) : (s.enterOwnEntry l).chans = s.chans := by unfold State.enterOwnEntry; split <;> simp
@[simp] theorem enterOwnEntry_meas (s : State) (l : LinkState) : (s.enterOwnEntry l).meas = s.meas := by unfold State.enterOwnEntry; split <;> simp
@[simp] theorem enterOwnEntry_check (s : State) (l : LinkState) : (s.enterOwnEntry l).check = s.check := by unfold State.enterOwnEntry; split <;> simp
@[simp] theorem enterOwnEntry_draw (s : State) (l : LinkState) : (s.enterOwnEntry l).draw = s.draw := by unfold State.enterOwnEntry; split <;> simp
@[simp] theorem enterOwnEntry_trim (s : State) (l : LinkState) : (s.enterOwnEntry l).trim = s.trim := by unfold State.enterOwnEntry; split <;> simp
@[simp] theorem enterOwnEntry_pwm (s : State) (l : LinkState) : (s.enterOwnEntry l).pwm = s.pwm := by unfold State.enterOwnEntry; split <;> simp
@[simp] theorem enterOwnEntry_brk (s : State) (l : LinkState) : (s.enterOwnEntry l).brk = s.brk := by unfold State.enterOwnEntry; split <;> simp
@[simp] theorem enterOwnEntry_log (s : State) (l : LinkState) : (s.enterOwnEntry l).log = s.log := by unfold State.enterOwnEntry; split <;> simp
@[simp] theorem enterOwnEntry_port (s : State) (l : LinkState) : (s.enterOwnEntry l).port = s.port := by unfold State.enterOwnEntry; split <;> simp
@[simp] theorem enterOwnEntry_pending (s : State) (l : LinkState) : (s.enterOwnEntry l).pending = s.pending := by unfold State.enterOwnEntry; split <;> simp
@[simp] theorem endLeave_now (s : State) : (s.endLeave).now = s.now := by unfold State.endLeave; split <;> simp
@[simp] theorem endLeave_power (s : State) : (s.endLeave).power = s.power := by unfold State.endLeave; split <;> simp
@[simp] theorem endLeave_pins (s : State) : (s.endLeave).pins = s.pins := by unfold State.endLeave; split <;> simp
@[simp] theorem endLeave_station (s : State) : (s.endLeave).station = s.station := by unfold State.endLeave; split <;> simp
@[simp] theorem endLeave_config (s : State) : (s.endLeave).config = s.config := by unfold State.endLeave; split <;> simp
@[simp] theorem endLeave_ownReport (s : State) : (s.endLeave).ownReport = s.ownReport := by unfold State.endLeave; split <;> simp
@[simp] theorem endLeave_trial (s : State) : (s.endLeave).trial = s.trial := by unfold State.endLeave; split <;> simp
@[simp] theorem endLeave_lastOutcome (s : State) : (s.endLeave).lastOutcome = s.lastOutcome := by unfold State.endLeave; split <;> simp
@[simp] theorem endLeave_seqCounter (s : State) : (s.endLeave).seqCounter = s.seqCounter := by unfold State.endLeave; split <;> simp
@[simp] theorem endLeave_inputs (s : State) : (s.endLeave).inputs = s.inputs := by unfold State.endLeave; split <;> simp
@[simp] theorem endLeave_counters (s : State) : (s.endLeave).counters = s.counters := by unfold State.endLeave; split <;> simp
@[simp] theorem endLeave_chans (s : State) : (s.endLeave).chans = s.chans := by unfold State.endLeave; split <;> simp
@[simp] theorem endLeave_meas (s : State) : (s.endLeave).meas = s.meas := by unfold State.endLeave; split <;> simp
@[simp] theorem endLeave_check (s : State) : (s.endLeave).check = s.check := by unfold State.endLeave; split <;> simp
@[simp] theorem endLeave_draw (s : State) : (s.endLeave).draw = s.draw := by unfold State.endLeave; split <;> simp
@[simp] theorem endLeave_trim (s : State) : (s.endLeave).trim = s.trim := by unfold State.endLeave; split <;> simp
@[simp] theorem endLeave_pwm (s : State) : (s.endLeave).pwm = s.pwm := by unfold State.endLeave; split <;> simp
@[simp] theorem endLeave_brk (s : State) : (s.endLeave).brk = s.brk := by unfold State.endLeave; split <;> simp
@[simp] theorem endLeave_log (s : State) : (s.endLeave).log = s.log := by unfold State.endLeave; split <;> simp
@[simp] theorem endLeave_pending (s : State) : (s.endLeave).pending = s.pending := by unfold State.endLeave; split <;> simp
@[simp] theorem linkStep_now (s : State) (k : BoundaryKind) : (s.linkStep k).now = s.now := by unfold State.linkStep; dsimp only; split <;> split <;> simp
@[simp] theorem linkStep_power (s : State) (k : BoundaryKind) : (s.linkStep k).power = s.power := by unfold State.linkStep; dsimp only; split <;> split <;> simp
@[simp] theorem linkStep_pins (s : State) (k : BoundaryKind) : (s.linkStep k).pins = s.pins := by unfold State.linkStep; dsimp only; split <;> split <;> simp
@[simp] theorem linkStep_station (s : State) (k : BoundaryKind) : (s.linkStep k).station = s.station := by unfold State.linkStep; dsimp only; split <;> split <;> simp
@[simp] theorem linkStep_config (s : State) (k : BoundaryKind) : (s.linkStep k).config = s.config := by unfold State.linkStep; dsimp only; split <;> split <;> simp
@[simp] theorem linkStep_line (s : State) (k : BoundaryKind) : (s.linkStep k).line = s.line := by unfold State.linkStep; dsimp only; split <;> split <;> simp
@[simp] theorem linkStep_round (s : State) (k : BoundaryKind) : (s.linkStep k).round = s.round := by unfold State.linkStep; dsimp only; split <;> split <;> simp
@[simp] theorem linkStep_ownReport (s : State) (k : BoundaryKind) : (s.linkStep k).ownReport = s.ownReport := by unfold State.linkStep; dsimp only; split <;> split <;> simp
@[simp] theorem linkStep_trial (s : State) (k : BoundaryKind) : (s.linkStep k).trial = s.trial := by unfold State.linkStep; dsimp only; split <;> split <;> simp
@[simp] theorem linkStep_lastOutcome (s : State) (k : BoundaryKind) : (s.linkStep k).lastOutcome = s.lastOutcome := by unfold State.linkStep; dsimp only; split <;> split <;> simp
@[simp] theorem linkStep_seqCounter (s : State) (k : BoundaryKind) : (s.linkStep k).seqCounter = s.seqCounter := by unfold State.linkStep; dsimp only; split <;> split <;> simp
@[simp] theorem linkStep_inputs (s : State) (k : BoundaryKind) : (s.linkStep k).inputs = s.inputs := by unfold State.linkStep; dsimp only; split <;> split <;> simp
@[simp] theorem linkStep_counters (s : State) (k : BoundaryKind) : (s.linkStep k).counters = s.counters := by unfold State.linkStep; dsimp only; split <;> split <;> simp
@[simp] theorem linkStep_chans (s : State) (k : BoundaryKind) : (s.linkStep k).chans = s.chans := by unfold State.linkStep; dsimp only; split <;> split <;> simp
@[simp] theorem linkStep_meas (s : State) (k : BoundaryKind) : (s.linkStep k).meas = s.meas := by unfold State.linkStep; dsimp only; split <;> split <;> simp
@[simp] theorem linkStep_check (s : State) (k : BoundaryKind) : (s.linkStep k).check = s.check := by unfold State.linkStep; dsimp only; split <;> split <;> simp
@[simp] theorem linkStep_draw (s : State) (k : BoundaryKind) : (s.linkStep k).draw = s.draw := by unfold State.linkStep; dsimp only; split <;> split <;> simp
@[simp] theorem linkStep_trim (s : State) (k : BoundaryKind) : (s.linkStep k).trim = s.trim := by unfold State.linkStep; dsimp only; split <;> split <;> simp
@[simp] theorem linkStep_pwm (s : State) (k : BoundaryKind) : (s.linkStep k).pwm = s.pwm := by unfold State.linkStep; dsimp only; split <;> split <;> simp
@[simp] theorem linkStep_brk (s : State) (k : BoundaryKind) : (s.linkStep k).brk = s.brk := by unfold State.linkStep; dsimp only; split <;> split <;> simp
@[simp] theorem linkStep_log (s : State) (k : BoundaryKind) : (s.linkStep k).log = s.log := by unfold State.linkStep; dsimp only; split <;> split <;> simp
@[simp] theorem linkStep_pending (s : State) (k : BoundaryKind) : (s.linkStep k).pending = s.pending := by unfold State.linkStep; dsimp only; split <;> split <;> simp
@[simp] theorem measured_now (s : State) : (s.measured).now = s.now := by simp [State.measured]
@[simp] theorem measured_power (s : State) : (s.measured).power = s.power := by simp [State.measured]
@[simp] theorem measured_pins (s : State) : (s.measured).pins = s.pins := by simp [State.measured]
@[simp] theorem measured_station (s : State) : (s.measured).station = s.station := by simp [State.measured]
@[simp] theorem measured_config (s : State) : (s.measured).config = s.config := by simp [State.measured]
@[simp] theorem measured_round (s : State) : (s.measured).round = s.round := by simp [State.measured]
@[simp] theorem measured_link (s : State) : (s.measured).link = s.link := by simp [State.measured]
@[simp] theorem measured_roster (s : State) : (s.measured).roster = s.roster := by simp [State.measured]
@[simp] theorem measured_ownReport (s : State) : (s.measured).ownReport = s.ownReport := by simp [State.measured]
@[simp] theorem measured_trial (s : State) : (s.measured).trial = s.trial := by simp [State.measured]
@[simp] theorem measured_lastOutcome (s : State) : (s.measured).lastOutcome = s.lastOutcome := by simp [State.measured]
@[simp] theorem measured_seqCounter (s : State) : (s.measured).seqCounter = s.seqCounter := by simp [State.measured]
@[simp] theorem measured_inputs (s : State) : (s.measured).inputs = s.inputs := by simp [State.measured]
@[simp] theorem measured_draw (s : State) : (s.measured).draw = s.draw := by simp [State.measured]
@[simp] theorem measured_trim (s : State) : (s.measured).trim = s.trim := by simp [State.measured]
@[simp] theorem measured_pwm (s : State) : (s.measured).pwm = s.pwm := by simp [State.measured]
@[simp] theorem measured_brk (s : State) : (s.measured).brk = s.brk := by simp [State.measured]
@[simp] theorem measured_log (s : State) : (s.measured).log = s.log := by simp [State.measured]
@[simp] theorem measured_pending (s : State) : (s.measured).pending = s.pending := by simp [State.measured]
@[simp] theorem linked_now (s : State) (k : BoundaryKind) (n : BitVec 8) : (s.linked k n).now = s.now := by simp [State.linked]
@[simp] theorem linked_power (s : State) (k : BoundaryKind) (n : BitVec 8) : (s.linked k n).power = s.power := by simp [State.linked]
@[simp] theorem linked_pins (s : State) (k : BoundaryKind) (n : BitVec 8) : (s.linked k n).pins = s.pins := by simp [State.linked]
@[simp] theorem linked_station (s : State) (k : BoundaryKind) (n : BitVec 8) : (s.linked k n).station = s.station := by simp [State.linked]
@[simp] theorem linked_config (s : State) (k : BoundaryKind) (n : BitVec 8) : (s.linked k n).config = s.config := by simp [State.linked]
@[simp] theorem linked_ownReport (s : State) (k : BoundaryKind) (n : BitVec 8) : (s.linked k n).ownReport = s.ownReport := by simp [State.linked]
@[simp] theorem linked_trial (s : State) (k : BoundaryKind) (n : BitVec 8) : (s.linked k n).trial = s.trial := by simp [State.linked]
@[simp] theorem linked_lastOutcome (s : State) (k : BoundaryKind) (n : BitVec 8) : (s.linked k n).lastOutcome = s.lastOutcome := by simp [State.linked]
@[simp] theorem linked_seqCounter (s : State) (k : BoundaryKind) (n : BitVec 8) : (s.linked k n).seqCounter = s.seqCounter := by simp [State.linked]
@[simp] theorem linked_inputs (s : State) (k : BoundaryKind) (n : BitVec 8) : (s.linked k n).inputs = s.inputs := by simp [State.linked]
@[simp] theorem linked_draw (s : State) (k : BoundaryKind) (n : BitVec 8) : (s.linked k n).draw = s.draw := by simp [State.linked]
@[simp] theorem linked_trim (s : State) (k : BoundaryKind) (n : BitVec 8) : (s.linked k n).trim = s.trim := by simp [State.linked]
@[simp] theorem linked_pwm (s : State) (k : BoundaryKind) (n : BitVec 8) : (s.linked k n).pwm = s.pwm := by simp [State.linked]
@[simp] theorem linked_brk (s : State) (k : BoundaryKind) (n : BitVec 8) : (s.linked k n).brk = s.brk := by simp [State.linked]
@[simp] theorem linked_log (s : State) (k : BoundaryKind) (n : BitVec 8) : (s.linked k n).log = s.log := by simp [State.linked]
@[simp] theorem linked_pending (s : State) (k : BoundaryKind) (n : BitVec 8) : (s.linked k n).pending = s.pending := by simp [State.linked]
@[simp] theorem sampled_now (s : State) (k : BoundaryKind) (n : BitVec 8) : (s.sampled k n).now = s.now := by simp [State.sampled]
@[simp] theorem sampled_power (s : State) (k : BoundaryKind) (n : BitVec 8) : (s.sampled k n).power = s.power := by simp [State.sampled]
@[simp] theorem sampled_pins (s : State) (k : BoundaryKind) (n : BitVec 8) : (s.sampled k n).pins = s.pins := by simp [State.sampled]
@[simp] theorem sampled_station (s : State) (k : BoundaryKind) (n : BitVec 8) : (s.sampled k n).station = s.station := by simp [State.sampled]
@[simp] theorem sampled_config (s : State) (k : BoundaryKind) (n : BitVec 8) : (s.sampled k n).config = s.config := by simp [State.sampled]
@[simp] theorem sampled_ownReport (s : State) (k : BoundaryKind) (n : BitVec 8) : (s.sampled k n).ownReport = s.ownReport := by simp [State.sampled]
@[simp] theorem sampled_trial (s : State) (k : BoundaryKind) (n : BitVec 8) : (s.sampled k n).trial = s.trial := by simp [State.sampled]
@[simp] theorem sampled_lastOutcome (s : State) (k : BoundaryKind) (n : BitVec 8) : (s.sampled k n).lastOutcome = s.lastOutcome := by simp [State.sampled]
@[simp] theorem sampled_seqCounter (s : State) (k : BoundaryKind) (n : BitVec 8) : (s.sampled k n).seqCounter = s.seqCounter := by simp [State.sampled]
@[simp] theorem sampled_inputs (s : State) (k : BoundaryKind) (n : BitVec 8) : (s.sampled k n).inputs = s.inputs := by simp [State.sampled]
@[simp] theorem sampled_trim (s : State) (k : BoundaryKind) (n : BitVec 8) : (s.sampled k n).trim = s.trim := by simp [State.sampled]
@[simp] theorem sampled_pwm (s : State) (k : BoundaryKind) (n : BitVec 8) : (s.sampled k n).pwm = s.pwm := by simp [State.sampled]
@[simp] theorem sampled_brk (s : State) (k : BoundaryKind) (n : BitVec 8) : (s.sampled k n).brk = s.brk := by simp [State.sampled]
@[simp] theorem sampled_pending (s : State) (k : BoundaryKind) (n : BitVec 8) : (s.sampled k n).pending = s.pending := by simp [State.sampled]
@[simp] theorem takeBoundary_now (s : State) (k : BoundaryKind) (n : BitVec 8) : (s.takeBoundary k n).now = s.now := by simp [State.takeBoundary]
@[simp] theorem takeBoundary_power (s : State) (k : BoundaryKind) (n : BitVec 8) : (s.takeBoundary k n).power = s.power := by simp [State.takeBoundary]
@[simp] theorem takeBoundary_pins (s : State) (k : BoundaryKind) (n : BitVec 8) : (s.takeBoundary k n).pins = s.pins := by simp [State.takeBoundary]
@[simp] theorem takeBoundary_station (s : State) (k : BoundaryKind) (n : BitVec 8) : (s.takeBoundary k n).station = s.station := by simp [State.takeBoundary]
@[simp] theorem takeBoundary_config (s : State) (k : BoundaryKind) (n : BitVec 8) : (s.takeBoundary k n).config = s.config := by simp [State.takeBoundary]
@[simp] theorem takeBoundary_seqCounter (s : State) (k : BoundaryKind) (n : BitVec 8) : (s.takeBoundary k n).seqCounter = s.seqCounter := by simp [State.takeBoundary]
@[simp] theorem takeBoundary_inputs (s : State) (k : BoundaryKind) (n : BitVec 8) : (s.takeBoundary k n).inputs = s.inputs := by simp [State.takeBoundary]
@[simp] theorem takeBoundary_pending (s : State) (k : BoundaryKind) (n : BitVec 8) : (s.takeBoundary k n).pending = s.pending := by simp [State.takeBoundary]
@[simp] theorem conflictTrial_now (s : State) : (s.conflictTrial).now = s.now := by
  unfold State.conflictTrial; repeat' split
  all_goals simp
@[simp] theorem conflictTrial_power (s : State) : (s.conflictTrial).power = s.power := by
  unfold State.conflictTrial; repeat' split
  all_goals simp
@[simp] theorem conflictTrial_pins (s : State) : (s.conflictTrial).pins = s.pins := by
  unfold State.conflictTrial; repeat' split
  all_goals simp
@[simp] theorem conflictTrial_station (s : State) : (s.conflictTrial).station = s.station := by
  unfold State.conflictTrial; repeat' split
  all_goals simp
@[simp] theorem conflictTrial_config (s : State) : (s.conflictTrial).config = s.config := by
  unfold State.conflictTrial; repeat' split
  all_goals simp
@[simp] theorem conflictTrial_line (s : State) : (s.conflictTrial).line = s.line := by
  unfold State.conflictTrial; repeat' split
  all_goals simp
@[simp] theorem conflictTrial_round (s : State) : (s.conflictTrial).round = s.round := by
  unfold State.conflictTrial; repeat' split
  all_goals simp
@[simp] theorem conflictTrial_link (s : State) : (s.conflictTrial).link = s.link := by
  unfold State.conflictTrial; repeat' split
  all_goals simp
@[simp] theorem conflictTrial_roster (s : State) : (s.conflictTrial).roster = s.roster := by
  unfold State.conflictTrial; repeat' split
  all_goals simp
@[simp] theorem conflictTrial_ownReport (s : State) : (s.conflictTrial).ownReport = s.ownReport := by
  unfold State.conflictTrial; repeat' split
  all_goals simp
@[simp] theorem conflictTrial_seqCounter (s : State) : (s.conflictTrial).seqCounter = s.seqCounter := by
  unfold State.conflictTrial; repeat' split
  all_goals simp
@[simp] theorem conflictTrial_inputs (s : State) : (s.conflictTrial).inputs = s.inputs := by
  unfold State.conflictTrial; repeat' split
  all_goals simp
@[simp] theorem conflictTrial_counters (s : State) : (s.conflictTrial).counters = s.counters := by
  unfold State.conflictTrial; repeat' split
  all_goals simp
@[simp] theorem conflictTrial_chans (s : State) : (s.conflictTrial).chans = s.chans := by
  unfold State.conflictTrial; repeat' split
  all_goals simp
@[simp] theorem conflictTrial_meas (s : State) : (s.conflictTrial).meas = s.meas := by
  unfold State.conflictTrial; repeat' split
  all_goals simp
@[simp] theorem conflictTrial_check (s : State) : (s.conflictTrial).check = s.check := by
  unfold State.conflictTrial; repeat' split
  all_goals simp
@[simp] theorem conflictTrial_draw (s : State) : (s.conflictTrial).draw = s.draw := by
  unfold State.conflictTrial; repeat' split
  all_goals simp
@[simp] theorem conflictTrial_pwm (s : State) : (s.conflictTrial).pwm = s.pwm := by
  unfold State.conflictTrial; repeat' split
  all_goals simp
@[simp] theorem conflictTrial_brk (s : State) : (s.conflictTrial).brk = s.brk := by
  unfold State.conflictTrial; repeat' split
  all_goals simp
@[simp] theorem conflictTrial_log (s : State) : (s.conflictTrial).log = s.log := by
  unfold State.conflictTrial; repeat' split
  all_goals simp
@[simp] theorem conflictTrial_pending (s : State) : (s.conflictTrial).pending = s.pending := by
  unfold State.conflictTrial; repeat' split
  all_goals simp
@[simp] theorem conflict_now (s : State) : (s.conflict).now = s.now := by simp [State.conflict]
@[simp] theorem conflict_power (s : State) : (s.conflict).power = s.power := by simp [State.conflict]
@[simp] theorem conflict_pins (s : State) : (s.conflict).pins = s.pins := by simp [State.conflict]
@[simp] theorem conflict_station (s : State) : (s.conflict).station = s.station := by simp [State.conflict]
@[simp] theorem conflict_config (s : State) : (s.conflict).config = s.config := by simp [State.conflict]
@[simp] theorem conflict_ownReport (s : State) : (s.conflict).ownReport = s.ownReport := by simp [State.conflict]
@[simp] theorem conflict_seqCounter (s : State) : (s.conflict).seqCounter = s.seqCounter := by simp [State.conflict]
@[simp] theorem conflict_inputs (s : State) : (s.conflict).inputs = s.inputs := by simp [State.conflict]
@[simp] theorem conflict_counters (s : State) : (s.conflict).counters = s.counters := by simp [State.conflict]
@[simp] theorem conflict_chans (s : State) : (s.conflict).chans = s.chans := by simp [State.conflict]
@[simp] theorem conflict_meas (s : State) : (s.conflict).meas = s.meas := by simp [State.conflict]
@[simp] theorem conflict_check (s : State) : (s.conflict).check = s.check := by simp [State.conflict]
@[simp] theorem conflict_draw (s : State) : (s.conflict).draw = s.draw := by simp [State.conflict]
@[simp] theorem conflict_pwm (s : State) : (s.conflict).pwm = s.pwm := by simp [State.conflict]
@[simp] theorem conflict_brk (s : State) : (s.conflict).brk = s.brk := by simp [State.conflict]
@[simp] theorem conflict_log (s : State) : (s.conflict).log = s.log := by simp [State.conflict]
@[simp] theorem conflict_pending (s : State) : (s.conflict).pending = s.pending := by simp [State.conflict]
@[simp] theorem cutAttempt_now (s : State) (a : Attempt) : (s.cutAttempt a).now = s.now := by simp [State.cutAttempt]
@[simp] theorem cutAttempt_power (s : State) (a : Attempt) : (s.cutAttempt a).power = s.power := by simp [State.cutAttempt]
@[simp] theorem cutAttempt_pins (s : State) (a : Attempt) : (s.cutAttempt a).pins = s.pins := by simp [State.cutAttempt]
@[simp] theorem cutAttempt_station (s : State) (a : Attempt) : (s.cutAttempt a).station = s.station := by simp [State.cutAttempt]
@[simp] theorem cutAttempt_config (s : State) (a : Attempt) : (s.cutAttempt a).config = s.config := by simp [State.cutAttempt]
@[simp] theorem cutAttempt_round (s : State) (a : Attempt) : (s.cutAttempt a).round = s.round := by simp [State.cutAttempt]
@[simp] theorem cutAttempt_link (s : State) (a : Attempt) : (s.cutAttempt a).link = s.link := by simp [State.cutAttempt]
@[simp] theorem cutAttempt_roster (s : State) (a : Attempt) : (s.cutAttempt a).roster = s.roster := by simp [State.cutAttempt]
@[simp] theorem cutAttempt_ownReport (s : State) (a : Attempt) : (s.cutAttempt a).ownReport = s.ownReport := by simp [State.cutAttempt]
@[simp] theorem cutAttempt_trial (s : State) (a : Attempt) : (s.cutAttempt a).trial = s.trial := by simp [State.cutAttempt]
@[simp] theorem cutAttempt_lastOutcome (s : State) (a : Attempt) : (s.cutAttempt a).lastOutcome = s.lastOutcome := by simp [State.cutAttempt]
@[simp] theorem cutAttempt_seqCounter (s : State) (a : Attempt) : (s.cutAttempt a).seqCounter = s.seqCounter := by simp [State.cutAttempt]
@[simp] theorem cutAttempt_inputs (s : State) (a : Attempt) : (s.cutAttempt a).inputs = s.inputs := by simp [State.cutAttempt]
@[simp] theorem cutAttempt_counters (s : State) (a : Attempt) : (s.cutAttempt a).counters = s.counters := by simp [State.cutAttempt]
@[simp] theorem cutAttempt_chans (s : State) (a : Attempt) : (s.cutAttempt a).chans = s.chans := by simp [State.cutAttempt]
@[simp] theorem cutAttempt_meas (s : State) (a : Attempt) : (s.cutAttempt a).meas = s.meas := by simp [State.cutAttempt]
@[simp] theorem cutAttempt_check (s : State) (a : Attempt) : (s.cutAttempt a).check = s.check := by simp [State.cutAttempt]
@[simp] theorem cutAttempt_draw (s : State) (a : Attempt) : (s.cutAttempt a).draw = s.draw := by simp [State.cutAttempt]
@[simp] theorem cutAttempt_trim (s : State) (a : Attempt) : (s.cutAttempt a).trim = s.trim := by simp [State.cutAttempt]
@[simp] theorem cutAttempt_pwm (s : State) (a : Attempt) : (s.cutAttempt a).pwm = s.pwm := by simp [State.cutAttempt]
@[simp] theorem cutAttempt_brk (s : State) (a : Attempt) : (s.cutAttempt a).brk = s.brk := by simp [State.cutAttempt]
@[simp] theorem cutAttempt_log (s : State) (a : Attempt) : (s.cutAttempt a).log = s.log := by simp [State.cutAttempt]
@[simp] theorem cutAttempt_pending (s : State) (a : Attempt) : (s.cutAttempt a).pending = s.pending := by simp [State.cutAttempt]
@[simp] theorem settleAttempt_now (s : State) : (s.settleAttempt).now = s.now := by
  unfold State.settleAttempt; repeat' split
  all_goals simp
@[simp] theorem settleAttempt_power (s : State) : (s.settleAttempt).power = s.power := by
  unfold State.settleAttempt; repeat' split
  all_goals simp
@[simp] theorem settleAttempt_pins (s : State) : (s.settleAttempt).pins = s.pins := by
  unfold State.settleAttempt; repeat' split
  all_goals simp
@[simp] theorem settleAttempt_station (s : State) : (s.settleAttempt).station = s.station := by
  unfold State.settleAttempt; repeat' split
  all_goals simp
@[simp] theorem settleAttempt_config (s : State) : (s.settleAttempt).config = s.config := by
  unfold State.settleAttempt; repeat' split
  all_goals simp
@[simp] theorem settleAttempt_round (s : State) : (s.settleAttempt).round = s.round := by
  unfold State.settleAttempt; repeat' split
  all_goals simp
@[simp] theorem settleAttempt_link (s : State) : (s.settleAttempt).link = s.link := by
  unfold State.settleAttempt; repeat' split
  all_goals simp
@[simp] theorem settleAttempt_roster (s : State) : (s.settleAttempt).roster = s.roster := by
  unfold State.settleAttempt; repeat' split
  all_goals simp
@[simp] theorem settleAttempt_ownReport (s : State) : (s.settleAttempt).ownReport = s.ownReport := by
  unfold State.settleAttempt; repeat' split
  all_goals simp
@[simp] theorem settleAttempt_trial (s : State) : (s.settleAttempt).trial = s.trial := by
  unfold State.settleAttempt; repeat' split
  all_goals simp
@[simp] theorem settleAttempt_lastOutcome (s : State) : (s.settleAttempt).lastOutcome = s.lastOutcome := by
  unfold State.settleAttempt; repeat' split
  all_goals simp
@[simp] theorem settleAttempt_seqCounter (s : State) : (s.settleAttempt).seqCounter = s.seqCounter := by
  unfold State.settleAttempt; repeat' split
  all_goals simp
@[simp] theorem settleAttempt_inputs (s : State) : (s.settleAttempt).inputs = s.inputs := by
  unfold State.settleAttempt; repeat' split
  all_goals simp
@[simp] theorem settleAttempt_counters (s : State) : (s.settleAttempt).counters = s.counters := by
  unfold State.settleAttempt; repeat' split
  all_goals simp
@[simp] theorem settleAttempt_chans (s : State) : (s.settleAttempt).chans = s.chans := by
  unfold State.settleAttempt; repeat' split
  all_goals simp
@[simp] theorem settleAttempt_meas (s : State) : (s.settleAttempt).meas = s.meas := by
  unfold State.settleAttempt; repeat' split
  all_goals simp
@[simp] theorem settleAttempt_check (s : State) : (s.settleAttempt).check = s.check := by
  unfold State.settleAttempt; repeat' split
  all_goals simp
@[simp] theorem settleAttempt_draw (s : State) : (s.settleAttempt).draw = s.draw := by
  unfold State.settleAttempt; repeat' split
  all_goals simp
@[simp] theorem settleAttempt_trim (s : State) : (s.settleAttempt).trim = s.trim := by
  unfold State.settleAttempt; repeat' split
  all_goals simp
@[simp] theorem settleAttempt_pwm (s : State) : (s.settleAttempt).pwm = s.pwm := by
  unfold State.settleAttempt; repeat' split
  all_goals simp
@[simp] theorem settleAttempt_brk (s : State) : (s.settleAttempt).brk = s.brk := by
  unfold State.settleAttempt; repeat' split
  all_goals simp
@[simp] theorem settleAttempt_log (s : State) : (s.settleAttempt).log = s.log := by
  unfold State.settleAttempt; repeat' split
  all_goals simp
@[simp] theorem settleAttempt_pending (s : State) : (s.settleAttempt).pending = s.pending := by
  unfold State.settleAttempt; repeat' split
  all_goals simp
@[simp] theorem advance_now (s : State) (d : Wait) : (s.advance d).now = s.now + d.micros := by simp [State.advance]
@[simp] theorem advance_pins (s : State) (d : Wait) : (s.advance d).pins = (s.elapse d).pins := by simp [State.advance]
@[simp] theorem advance_inputs (s : State) (d : Wait) : (s.advance d).inputs = (s.elapse d).inputs := by simp [State.advance]
@[simp] theorem advance_power (s : State) (d : Wait) : (s.advance d).power = s.power := by simp [State.advance]
@[simp] theorem advance_station (s : State) (d : Wait) : (s.advance d).station = s.station := by simp [State.advance]
@[simp] theorem advance_config (s : State) (d : Wait) : (s.advance d).config = s.config := by simp [State.advance]
@[simp] theorem advance_round (s : State) (d : Wait) : (s.advance d).round = s.round := by simp [State.advance]
@[simp] theorem advance_link (s : State) (d : Wait) : (s.advance d).link = s.link := by simp [State.advance]
@[simp] theorem advance_roster (s : State) (d : Wait) : (s.advance d).roster = s.roster := by simp [State.advance]
@[simp] theorem advance_ownReport (s : State) (d : Wait) : (s.advance d).ownReport = s.ownReport := by simp [State.advance]
@[simp] theorem advance_trial (s : State) (d : Wait) : (s.advance d).trial = s.trial := by simp [State.advance]
@[simp] theorem advance_lastOutcome (s : State) (d : Wait) : (s.advance d).lastOutcome = s.lastOutcome := by simp [State.advance]
@[simp] theorem advance_seqCounter (s : State) (d : Wait) : (s.advance d).seqCounter = s.seqCounter := by simp [State.advance]
@[simp] theorem advance_counters (s : State) (d : Wait) : (s.advance d).counters = s.counters := by simp [State.advance]
@[simp] theorem advance_chans (s : State) (d : Wait) : (s.advance d).chans = s.chans := by simp [State.advance]
@[simp] theorem advance_meas (s : State) (d : Wait) : (s.advance d).meas = s.meas := by simp [State.advance]
@[simp] theorem advance_check (s : State) (d : Wait) : (s.advance d).check = s.check := by simp [State.advance]
@[simp] theorem advance_draw (s : State) (d : Wait) : (s.advance d).draw = s.draw := by simp [State.advance]
@[simp] theorem advance_trim (s : State) (d : Wait) : (s.advance d).trim = s.trim := by simp [State.advance]
@[simp] theorem advance_pwm (s : State) (d : Wait) : (s.advance d).pwm = s.pwm := by simp [State.advance]
@[simp] theorem advance_brk (s : State) (d : Wait) : (s.advance d).brk = s.brk := by simp [State.advance]
@[simp] theorem advance_log (s : State) (d : Wait) : (s.advance d).log = s.log := by simp [State.advance]
@[simp] theorem advance_pending (s : State) (d : Wait) : (s.advance d).pending = s.pending := by simp [State.advance]
@[simp] theorem settleAttempt_line_rx (s : State) : (s.settleAttempt).line.rx = s.line.rx := by
  unfold State.settleAttempt State.cutAttempt State.linkErrorIf State.linkError; repeat' split
  all_goals simp
@[simp] theorem advance_line_rx (s : State) (d : Wait) : (s.advance d).line.rx = s.line.rx := by simp [State.advance]
@[simp] theorem settleAttempt_line_rxNext (s : State) : (s.settleAttempt).line.rxNext = s.line.rxNext := by
  unfold State.settleAttempt State.cutAttempt State.linkErrorIf State.linkError; repeat' split
  all_goals simp
@[simp] theorem advance_line_rxNext (s : State) (d : Wait) : (s.advance d).line.rxNext = s.line.rxNext := by simp [State.advance]
@[simp] theorem settleAttempt_line_rxSampled (s : State) : (s.settleAttempt).line.rxSampled = s.line.rxSampled := by
  unfold State.settleAttempt State.cutAttempt State.linkErrorIf State.linkError; repeat' split
  all_goals simp
@[simp] theorem advance_line_rxSampled (s : State) (d : Wait) : (s.advance d).line.rxSampled = s.line.rxSampled := by simp [State.advance]
@[simp] theorem settleAttempt_line_tx (s : State) : (s.settleAttempt).line.tx = s.line.tx := by
  unfold State.settleAttempt State.cutAttempt State.linkErrorIf State.linkError; repeat' split
  all_goals simp
@[simp] theorem advance_line_tx (s : State) (d : Wait) : (s.advance d).line.tx = s.line.tx := by simp [State.advance]
@[simp] theorem discardAttempt_now (s : State) (p : Bool) : (s.discardAttempt p).now = s.now := by
  unfold State.discardAttempt; repeat' split
  all_goals simp
@[simp] theorem discardAttempt_power (s : State) (p : Bool) : (s.discardAttempt p).power = s.power := by
  unfold State.discardAttempt; repeat' split
  all_goals simp
@[simp] theorem discardAttempt_pins (s : State) (p : Bool) : (s.discardAttempt p).pins = s.pins := by
  unfold State.discardAttempt; repeat' split
  all_goals simp
@[simp] theorem discardAttempt_station (s : State) (p : Bool) : (s.discardAttempt p).station = s.station := by
  unfold State.discardAttempt; repeat' split
  all_goals simp
@[simp] theorem discardAttempt_config (s : State) (p : Bool) : (s.discardAttempt p).config = s.config := by
  unfold State.discardAttempt; repeat' split
  all_goals simp
@[simp] theorem discardAttempt_round (s : State) (p : Bool) : (s.discardAttempt p).round = s.round := by
  unfold State.discardAttempt; repeat' split
  all_goals simp
@[simp] theorem discardAttempt_link (s : State) (p : Bool) : (s.discardAttempt p).link = s.link := by
  unfold State.discardAttempt; repeat' split
  all_goals simp
@[simp] theorem discardAttempt_roster (s : State) (p : Bool) : (s.discardAttempt p).roster = s.roster := by
  unfold State.discardAttempt; repeat' split
  all_goals simp
@[simp] theorem discardAttempt_ownReport (s : State) (p : Bool) : (s.discardAttempt p).ownReport = s.ownReport := by
  unfold State.discardAttempt; repeat' split
  all_goals simp
@[simp] theorem discardAttempt_trial (s : State) (p : Bool) : (s.discardAttempt p).trial = s.trial := by
  unfold State.discardAttempt; repeat' split
  all_goals simp
@[simp] theorem discardAttempt_lastOutcome (s : State) (p : Bool) : (s.discardAttempt p).lastOutcome = s.lastOutcome := by
  unfold State.discardAttempt; repeat' split
  all_goals simp
@[simp] theorem discardAttempt_seqCounter (s : State) (p : Bool) : (s.discardAttempt p).seqCounter = s.seqCounter := by
  unfold State.discardAttempt; repeat' split
  all_goals simp
@[simp] theorem discardAttempt_inputs (s : State) (p : Bool) : (s.discardAttempt p).inputs = s.inputs := by
  unfold State.discardAttempt; repeat' split
  all_goals simp
@[simp] theorem discardAttempt_counters (s : State) (p : Bool) : (s.discardAttempt p).counters = s.counters := by
  unfold State.discardAttempt; repeat' split
  all_goals simp
@[simp] theorem discardAttempt_chans (s : State) (p : Bool) : (s.discardAttempt p).chans = s.chans := by
  unfold State.discardAttempt; repeat' split
  all_goals simp
@[simp] theorem discardAttempt_meas (s : State) (p : Bool) : (s.discardAttempt p).meas = s.meas := by
  unfold State.discardAttempt; repeat' split
  all_goals simp
@[simp] theorem discardAttempt_check (s : State) (p : Bool) : (s.discardAttempt p).check = s.check := by
  unfold State.discardAttempt; repeat' split
  all_goals simp
@[simp] theorem discardAttempt_draw (s : State) (p : Bool) : (s.discardAttempt p).draw = s.draw := by
  unfold State.discardAttempt; repeat' split
  all_goals simp
@[simp] theorem discardAttempt_trim (s : State) (p : Bool) : (s.discardAttempt p).trim = s.trim := by
  unfold State.discardAttempt; repeat' split
  all_goals simp
@[simp] theorem discardAttempt_pwm (s : State) (p : Bool) : (s.discardAttempt p).pwm = s.pwm := by
  unfold State.discardAttempt; repeat' split
  all_goals simp
@[simp] theorem discardAttempt_brk (s : State) (p : Bool) : (s.discardAttempt p).brk = s.brk := by
  unfold State.discardAttempt; repeat' split
  all_goals simp
@[simp] theorem discardAttempt_log (s : State) (p : Bool) : (s.discardAttempt p).log = s.log := by
  unfold State.discardAttempt; repeat' split
  all_goals simp
@[simp] theorem discardAttempt_pending (s : State) (p : Bool) : (s.discardAttempt p).pending = s.pending := by
  unfold State.discardAttempt; repeat' split
  all_goals simp
@[simp] theorem finishAttempt_now (s : State) (a : Attempt) : (s.finishAttempt a).now = s.now := by
  unfold State.finishAttempt; dsimp only; repeat' split
  all_goals simp
@[simp] theorem finishAttempt_power (s : State) (a : Attempt) : (s.finishAttempt a).power = s.power := by
  unfold State.finishAttempt; dsimp only; repeat' split
  all_goals simp
@[simp] theorem finishAttempt_pins (s : State) (a : Attempt) : (s.finishAttempt a).pins = s.pins := by
  unfold State.finishAttempt; dsimp only; repeat' split
  all_goals simp
@[simp] theorem finishAttempt_station (s : State) (a : Attempt) : (s.finishAttempt a).station = s.station := by
  unfold State.finishAttempt; dsimp only; repeat' split
  all_goals simp
@[simp] theorem finishAttempt_config (s : State) (a : Attempt) : (s.finishAttempt a).config = s.config := by
  unfold State.finishAttempt; dsimp only; repeat' split
  all_goals simp
@[simp] theorem finishAttempt_ownReport (s : State) (a : Attempt) : (s.finishAttempt a).ownReport = s.ownReport := by
  unfold State.finishAttempt; dsimp only; repeat' split
  all_goals simp
@[simp] theorem finishAttempt_seqCounter (s : State) (a : Attempt) : (s.finishAttempt a).seqCounter = s.seqCounter := by
  unfold State.finishAttempt; dsimp only; repeat' split
  all_goals simp
@[simp] theorem finishAttempt_inputs (s : State) (a : Attempt) : (s.finishAttempt a).inputs = s.inputs := by
  unfold State.finishAttempt; dsimp only; repeat' split
  all_goals simp
@[simp] theorem finishAttempt_counters (s : State) (a : Attempt) : (s.finishAttempt a).counters = s.counters := by
  unfold State.finishAttempt; dsimp only; repeat' split
  all_goals simp
@[simp] theorem finishAttempt_chans (s : State) (a : Attempt) : (s.finishAttempt a).chans = s.chans := by
  unfold State.finishAttempt; dsimp only; repeat' split
  all_goals simp
@[simp] theorem finishAttempt_meas (s : State) (a : Attempt) : (s.finishAttempt a).meas = s.meas := by
  unfold State.finishAttempt; dsimp only; repeat' split
  all_goals simp
@[simp] theorem finishAttempt_check (s : State) (a : Attempt) : (s.finishAttempt a).check = s.check := by
  unfold State.finishAttempt; dsimp only; repeat' split
  all_goals simp
@[simp] theorem finishAttempt_draw (s : State) (a : Attempt) : (s.finishAttempt a).draw = s.draw := by
  unfold State.finishAttempt; dsimp only; repeat' split
  all_goals simp
@[simp] theorem finishAttempt_pwm (s : State) (a : Attempt) : (s.finishAttempt a).pwm = s.pwm := by
  unfold State.finishAttempt; dsimp only; repeat' split
  all_goals simp
@[simp] theorem finishAttempt_brk (s : State) (a : Attempt) : (s.finishAttempt a).brk = s.brk := by
  unfold State.finishAttempt; dsimp only; repeat' split
  all_goals simp
@[simp] theorem finishAttempt_log (s : State) (a : Attempt) : (s.finishAttempt a).log = s.log := by
  unfold State.finishAttempt; dsimp only; repeat' split
  all_goals simp
@[simp] theorem finishAttempt_pending (s : State) (a : Attempt) : (s.finishAttempt a).pending = s.pending := by
  unfold State.finishAttempt; dsimp only; repeat' split
  all_goals simp
@[simp] theorem joinAttempt_now (s : State) (a : Attempt) (e : Nat) (c : CharBits) : (s.joinAttempt a e c).now = s.now := by unfold State.joinAttempt; dsimp only; split <;> simp
@[simp] theorem joinAttempt_power (s : State) (a : Attempt) (e : Nat) (c : CharBits) : (s.joinAttempt a e c).power = s.power := by unfold State.joinAttempt; dsimp only; split <;> simp
@[simp] theorem joinAttempt_pins (s : State) (a : Attempt) (e : Nat) (c : CharBits) : (s.joinAttempt a e c).pins = s.pins := by unfold State.joinAttempt; dsimp only; split <;> simp
@[simp] theorem joinAttempt_station (s : State) (a : Attempt) (e : Nat) (c : CharBits) : (s.joinAttempt a e c).station = s.station := by unfold State.joinAttempt; dsimp only; split <;> simp
@[simp] theorem joinAttempt_config (s : State) (a : Attempt) (e : Nat) (c : CharBits) : (s.joinAttempt a e c).config = s.config := by unfold State.joinAttempt; dsimp only; split <;> simp
@[simp] theorem joinAttempt_ownReport (s : State) (a : Attempt) (e : Nat) (c : CharBits) : (s.joinAttempt a e c).ownReport = s.ownReport := by unfold State.joinAttempt; dsimp only; split <;> simp
@[simp] theorem joinAttempt_seqCounter (s : State) (a : Attempt) (e : Nat) (c : CharBits) : (s.joinAttempt a e c).seqCounter = s.seqCounter := by unfold State.joinAttempt; dsimp only; split <;> simp
@[simp] theorem joinAttempt_inputs (s : State) (a : Attempt) (e : Nat) (c : CharBits) : (s.joinAttempt a e c).inputs = s.inputs := by unfold State.joinAttempt; dsimp only; split <;> simp
@[simp] theorem joinAttempt_counters (s : State) (a : Attempt) (e : Nat) (c : CharBits) : (s.joinAttempt a e c).counters = s.counters := by unfold State.joinAttempt; dsimp only; split <;> simp
@[simp] theorem joinAttempt_chans (s : State) (a : Attempt) (e : Nat) (c : CharBits) : (s.joinAttempt a e c).chans = s.chans := by unfold State.joinAttempt; dsimp only; split <;> simp
@[simp] theorem joinAttempt_meas (s : State) (a : Attempt) (e : Nat) (c : CharBits) : (s.joinAttempt a e c).meas = s.meas := by unfold State.joinAttempt; dsimp only; split <;> simp
@[simp] theorem joinAttempt_check (s : State) (a : Attempt) (e : Nat) (c : CharBits) : (s.joinAttempt a e c).check = s.check := by unfold State.joinAttempt; dsimp only; split <;> simp
@[simp] theorem joinAttempt_draw (s : State) (a : Attempt) (e : Nat) (c : CharBits) : (s.joinAttempt a e c).draw = s.draw := by unfold State.joinAttempt; dsimp only; split <;> simp
@[simp] theorem joinAttempt_pwm (s : State) (a : Attempt) (e : Nat) (c : CharBits) : (s.joinAttempt a e c).pwm = s.pwm := by unfold State.joinAttempt; dsimp only; split <;> simp
@[simp] theorem joinAttempt_brk (s : State) (a : Attempt) (e : Nat) (c : CharBits) : (s.joinAttempt a e c).brk = s.brk := by unfold State.joinAttempt; dsimp only; split <;> simp
@[simp] theorem joinAttempt_log (s : State) (a : Attempt) (e : Nat) (c : CharBits) : (s.joinAttempt a e c).log = s.log := by unfold State.joinAttempt; dsimp only; split <;> simp
@[simp] theorem joinAttempt_pending (s : State) (a : Attempt) (e : Nat) (c : CharBits) : (s.joinAttempt a e c).pending = s.pending := by unfold State.joinAttempt; dsimp only; split <;> simp
@[simp] theorem openAttempt_now (s : State) (k : Station) (e : Nat) (c : CharBits) : (s.openAttempt k e c).now = s.now := by unfold State.openAttempt; split <;> simp
@[simp] theorem openAttempt_power (s : State) (k : Station) (e : Nat) (c : CharBits) : (s.openAttempt k e c).power = s.power := by unfold State.openAttempt; split <;> simp
@[simp] theorem openAttempt_pins (s : State) (k : Station) (e : Nat) (c : CharBits) : (s.openAttempt k e c).pins = s.pins := by unfold State.openAttempt; split <;> simp
@[simp] theorem openAttempt_station (s : State) (k : Station) (e : Nat) (c : CharBits) : (s.openAttempt k e c).station = s.station := by unfold State.openAttempt; split <;> simp
@[simp] theorem openAttempt_config (s : State) (k : Station) (e : Nat) (c : CharBits) : (s.openAttempt k e c).config = s.config := by unfold State.openAttempt; split <;> simp
@[simp] theorem openAttempt_ownReport (s : State) (k : Station) (e : Nat) (c : CharBits) : (s.openAttempt k e c).ownReport = s.ownReport := by unfold State.openAttempt; split <;> simp
@[simp] theorem openAttempt_seqCounter (s : State) (k : Station) (e : Nat) (c : CharBits) : (s.openAttempt k e c).seqCounter = s.seqCounter := by unfold State.openAttempt; split <;> simp
@[simp] theorem openAttempt_inputs (s : State) (k : Station) (e : Nat) (c : CharBits) : (s.openAttempt k e c).inputs = s.inputs := by unfold State.openAttempt; split <;> simp
@[simp] theorem openAttempt_counters (s : State) (k : Station) (e : Nat) (c : CharBits) : (s.openAttempt k e c).counters = s.counters := by unfold State.openAttempt; split <;> simp
@[simp] theorem openAttempt_chans (s : State) (k : Station) (e : Nat) (c : CharBits) : (s.openAttempt k e c).chans = s.chans := by unfold State.openAttempt; split <;> simp
@[simp] theorem openAttempt_meas (s : State) (k : Station) (e : Nat) (c : CharBits) : (s.openAttempt k e c).meas = s.meas := by unfold State.openAttempt; split <;> simp
@[simp] theorem openAttempt_check (s : State) (k : Station) (e : Nat) (c : CharBits) : (s.openAttempt k e c).check = s.check := by unfold State.openAttempt; split <;> simp
@[simp] theorem openAttempt_draw (s : State) (k : Station) (e : Nat) (c : CharBits) : (s.openAttempt k e c).draw = s.draw := by unfold State.openAttempt; split <;> simp
@[simp] theorem openAttempt_pwm (s : State) (k : Station) (e : Nat) (c : CharBits) : (s.openAttempt k e c).pwm = s.pwm := by unfold State.openAttempt; split <;> simp
@[simp] theorem openAttempt_brk (s : State) (k : Station) (e : Nat) (c : CharBits) : (s.openAttempt k e c).brk = s.brk := by unfold State.openAttempt; split <;> simp
@[simp] theorem openAttempt_log (s : State) (k : Station) (e : Nat) (c : CharBits) : (s.openAttempt k e c).log = s.log := by unfold State.openAttempt; split <;> simp
@[simp] theorem openAttempt_pending (s : State) (k : Station) (e : Nat) (c : CharBits) : (s.openAttempt k e c).pending = s.pending := by unfold State.openAttempt; split <;> simp
@[simp] theorem assembleLate_now (s : State) (e : Nat) (c : CharBits) : (s.assembleLate e c).now = s.now := by unfold State.assembleLate; dsimp only; split <;> simp
@[simp] theorem assembleLate_power (s : State) (e : Nat) (c : CharBits) : (s.assembleLate e c).power = s.power := by unfold State.assembleLate; dsimp only; split <;> simp
@[simp] theorem assembleLate_pins (s : State) (e : Nat) (c : CharBits) : (s.assembleLate e c).pins = s.pins := by unfold State.assembleLate; dsimp only; split <;> simp
@[simp] theorem assembleLate_station (s : State) (e : Nat) (c : CharBits) : (s.assembleLate e c).station = s.station := by unfold State.assembleLate; dsimp only; split <;> simp
@[simp] theorem assembleLate_config (s : State) (e : Nat) (c : CharBits) : (s.assembleLate e c).config = s.config := by unfold State.assembleLate; dsimp only; split <;> simp
@[simp] theorem assembleLate_round (s : State) (e : Nat) (c : CharBits) : (s.assembleLate e c).round = s.round := by unfold State.assembleLate; dsimp only; split <;> simp
@[simp] theorem assembleLate_link (s : State) (e : Nat) (c : CharBits) : (s.assembleLate e c).link = s.link := by unfold State.assembleLate; dsimp only; split <;> simp
@[simp] theorem assembleLate_roster (s : State) (e : Nat) (c : CharBits) : (s.assembleLate e c).roster = s.roster := by unfold State.assembleLate; dsimp only; split <;> simp
@[simp] theorem assembleLate_ownReport (s : State) (e : Nat) (c : CharBits) : (s.assembleLate e c).ownReport = s.ownReport := by unfold State.assembleLate; dsimp only; split <;> simp
@[simp] theorem assembleLate_trial (s : State) (e : Nat) (c : CharBits) : (s.assembleLate e c).trial = s.trial := by unfold State.assembleLate; dsimp only; split <;> simp
@[simp] theorem assembleLate_lastOutcome (s : State) (e : Nat) (c : CharBits) : (s.assembleLate e c).lastOutcome = s.lastOutcome := by unfold State.assembleLate; dsimp only; split <;> simp
@[simp] theorem assembleLate_seqCounter (s : State) (e : Nat) (c : CharBits) : (s.assembleLate e c).seqCounter = s.seqCounter := by unfold State.assembleLate; dsimp only; split <;> simp
@[simp] theorem assembleLate_inputs (s : State) (e : Nat) (c : CharBits) : (s.assembleLate e c).inputs = s.inputs := by unfold State.assembleLate; dsimp only; split <;> simp
@[simp] theorem assembleLate_counters (s : State) (e : Nat) (c : CharBits) : (s.assembleLate e c).counters = s.counters := by unfold State.assembleLate; dsimp only; split <;> simp
@[simp] theorem assembleLate_chans (s : State) (e : Nat) (c : CharBits) : (s.assembleLate e c).chans = s.chans := by unfold State.assembleLate; dsimp only; split <;> simp
@[simp] theorem assembleLate_meas (s : State) (e : Nat) (c : CharBits) : (s.assembleLate e c).meas = s.meas := by unfold State.assembleLate; dsimp only; split <;> simp
@[simp] theorem assembleLate_check (s : State) (e : Nat) (c : CharBits) : (s.assembleLate e c).check = s.check := by unfold State.assembleLate; dsimp only; split <;> simp
@[simp] theorem assembleLate_draw (s : State) (e : Nat) (c : CharBits) : (s.assembleLate e c).draw = s.draw := by unfold State.assembleLate; dsimp only; split <;> simp
@[simp] theorem assembleLate_trim (s : State) (e : Nat) (c : CharBits) : (s.assembleLate e c).trim = s.trim := by unfold State.assembleLate; dsimp only; split <;> simp
@[simp] theorem assembleLate_pwm (s : State) (e : Nat) (c : CharBits) : (s.assembleLate e c).pwm = s.pwm := by unfold State.assembleLate; dsimp only; split <;> simp
@[simp] theorem assembleLate_brk (s : State) (e : Nat) (c : CharBits) : (s.assembleLate e c).brk = s.brk := by unfold State.assembleLate; dsimp only; split <;> simp
@[simp] theorem assembleLate_log (s : State) (e : Nat) (c : CharBits) : (s.assembleLate e c).log = s.log := by unfold State.assembleLate; dsimp only; split <;> simp
@[simp] theorem assembleLate_pending (s : State) (e : Nat) (c : CharBits) : (s.assembleLate e c).pending = s.pending := by unfold State.assembleLate; dsimp only; split <;> simp
@[simp] theorem assemble_now (s : State) (e : Nat) (c : CharBits) : (s.assemble e c).now = s.now := by
  unfold State.assemble; dsimp only; repeat' split
  all_goals simp
@[simp] theorem assemble_power (s : State) (e : Nat) (c : CharBits) : (s.assemble e c).power = s.power := by
  unfold State.assemble; dsimp only; repeat' split
  all_goals simp
@[simp] theorem assemble_pins (s : State) (e : Nat) (c : CharBits) : (s.assemble e c).pins = s.pins := by
  unfold State.assemble; dsimp only; repeat' split
  all_goals simp
@[simp] theorem assemble_station (s : State) (e : Nat) (c : CharBits) : (s.assemble e c).station = s.station := by
  unfold State.assemble; dsimp only; repeat' split
  all_goals simp
@[simp] theorem assemble_config (s : State) (e : Nat) (c : CharBits) : (s.assemble e c).config = s.config := by
  unfold State.assemble; dsimp only; repeat' split
  all_goals simp
@[simp] theorem assemble_ownReport (s : State) (e : Nat) (c : CharBits) : (s.assemble e c).ownReport = s.ownReport := by
  unfold State.assemble; dsimp only; repeat' split
  all_goals simp
@[simp] theorem assemble_seqCounter (s : State) (e : Nat) (c : CharBits) : (s.assemble e c).seqCounter = s.seqCounter := by
  unfold State.assemble; dsimp only; repeat' split
  all_goals simp
@[simp] theorem assemble_inputs (s : State) (e : Nat) (c : CharBits) : (s.assemble e c).inputs = s.inputs := by
  unfold State.assemble; dsimp only; repeat' split
  all_goals simp
@[simp] theorem assemble_counters (s : State) (e : Nat) (c : CharBits) : (s.assemble e c).counters = s.counters := by
  unfold State.assemble; dsimp only; repeat' split
  all_goals simp
@[simp] theorem assemble_chans (s : State) (e : Nat) (c : CharBits) : (s.assemble e c).chans = s.chans := by
  unfold State.assemble; dsimp only; repeat' split
  all_goals simp
@[simp] theorem assemble_meas (s : State) (e : Nat) (c : CharBits) : (s.assemble e c).meas = s.meas := by
  unfold State.assemble; dsimp only; repeat' split
  all_goals simp
@[simp] theorem assemble_check (s : State) (e : Nat) (c : CharBits) : (s.assemble e c).check = s.check := by
  unfold State.assemble; dsimp only; repeat' split
  all_goals simp
@[simp] theorem assemble_draw (s : State) (e : Nat) (c : CharBits) : (s.assemble e c).draw = s.draw := by
  unfold State.assemble; dsimp only; repeat' split
  all_goals simp
@[simp] theorem assemble_pwm (s : State) (e : Nat) (c : CharBits) : (s.assemble e c).pwm = s.pwm := by
  unfold State.assemble; dsimp only; repeat' split
  all_goals simp
@[simp] theorem assemble_brk (s : State) (e : Nat) (c : CharBits) : (s.assemble e c).brk = s.brk := by
  unfold State.assemble; dsimp only; repeat' split
  all_goals simp
@[simp] theorem assemble_log (s : State) (e : Nat) (c : CharBits) : (s.assemble e c).log = s.log := by
  unfold State.assemble; dsimp only; repeat' split
  all_goals simp
@[simp] theorem assemble_pending (s : State) (e : Nat) (c : CharBits) : (s.assemble e c).pending = s.pending := by
  unfold State.assemble; dsimp only; repeat' split
  all_goals simp

end Sys2Proof.Machine
end

