-- ==== Sys2Proof/Laws/Frames2.lean ====
section
/-! SUPPORT. What the operations of the commands leave as it was, field by field. -/

namespace Sys2Proof.Machine

set_option Elab.async false

@[simp] theorem takeMark_now (s : State) (e : Nat) (n : BitVec 8) : (s.takeMark e n).now = s.now := by unfold State.takeMark; split <;> simp
@[simp] theorem takeMark_power (s : State) (e : Nat) (n : BitVec 8) : (s.takeMark e n).power = s.power := by unfold State.takeMark; split <;> simp
@[simp] theorem takeMark_pins (s : State) (e : Nat) (n : BitVec 8) : (s.takeMark e n).pins = s.pins := by unfold State.takeMark; split <;> simp
@[simp] theorem takeMark_station (s : State) (e : Nat) (n : BitVec 8) : (s.takeMark e n).station = s.station := by unfold State.takeMark; split <;> simp
@[simp] theorem takeMark_config (s : State) (e : Nat) (n : BitVec 8) : (s.takeMark e n).config = s.config := by unfold State.takeMark; split <;> simp
@[simp] theorem takeMark_seqCounter (s : State) (e : Nat) (n : BitVec 8) : (s.takeMark e n).seqCounter = s.seqCounter := by unfold State.takeMark; split <;> simp
@[simp] theorem takeMark_inputs (s : State) (e : Nat) (n : BitVec 8) : (s.takeMark e n).inputs = s.inputs := by unfold State.takeMark; split <;> simp
@[simp] theorem takeMark_pending (s : State) (e : Nat) (n : BitVec 8) : (s.takeMark e n).pending = s.pending := by unfold State.takeMark; split <;> simp
@[simp] theorem takeOther_now (s : State) (e : Nat) (c : CharBits) : (s.takeOther e c).now = s.now := by
  unfold State.takeOther; repeat' split
  all_goals simp
@[simp] theorem takeOther_power (s : State) (e : Nat) (c : CharBits) : (s.takeOther e c).power = s.power := by
  unfold State.takeOther; repeat' split
  all_goals simp
@[simp] theorem takeOther_pins (s : State) (e : Nat) (c : CharBits) : (s.takeOther e c).pins = s.pins := by
  unfold State.takeOther; repeat' split
  all_goals simp
@[simp] theorem takeOther_station (s : State) (e : Nat) (c : CharBits) : (s.takeOther e c).station = s.station := by
  unfold State.takeOther; repeat' split
  all_goals simp
@[simp] theorem takeOther_config (s : State) (e : Nat) (c : CharBits) : (s.takeOther e c).config = s.config := by
  unfold State.takeOther; repeat' split
  all_goals simp
@[simp] theorem takeOther_seqCounter (s : State) (e : Nat) (c : CharBits) : (s.takeOther e c).seqCounter = s.seqCounter := by
  unfold State.takeOther; repeat' split
  all_goals simp
@[simp] theorem takeOther_inputs (s : State) (e : Nat) (c : CharBits) : (s.takeOther e c).inputs = s.inputs := by
  unfold State.takeOther; repeat' split
  all_goals simp
@[simp] theorem takeOther_pending (s : State) (e : Nat) (c : CharBits) : (s.takeOther e c).pending = s.pending := by
  unfold State.takeOther; repeat' split
  all_goals simp
@[simp] theorem received_now (s : State) (e : Nat) (c : CharBits) : (s.received e c).now = s.now := by unfold State.received; dsimp only; split <;> simp
@[simp] theorem received_power (s : State) (e : Nat) (c : CharBits) : (s.received e c).power = s.power := by unfold State.received; dsimp only; split <;> simp
@[simp] theorem received_pins (s : State) (e : Nat) (c : CharBits) : (s.received e c).pins = s.pins := by unfold State.received; dsimp only; split <;> simp
@[simp] theorem received_station (s : State) (e : Nat) (c : CharBits) : (s.received e c).station = s.station := by unfold State.received; dsimp only; split <;> simp
@[simp] theorem received_config (s : State) (e : Nat) (c : CharBits) : (s.received e c).config = s.config := by unfold State.received; dsimp only; split <;> simp
@[simp] theorem received_seqCounter (s : State) (e : Nat) (c : CharBits) : (s.received e c).seqCounter = s.seqCounter := by unfold State.received; dsimp only; split <;> simp
@[simp] theorem received_inputs (s : State) (e : Nat) (c : CharBits) : (s.received e c).inputs = s.inputs := by unfold State.received; dsimp only; split <;> simp
@[simp] theorem received_pending (s : State) (e : Nat) (c : CharBits) : (s.received e c).pending = s.pending := by unfold State.received; dsimp only; split <;> simp
@[simp] theorem ownCharacter_now (s : State) (r : Report) (k : Nat) : (s.ownCharacter r k).now = s.now := by unfold State.ownCharacter; split <;> simp
@[simp] theorem ownCharacter_power (s : State) (r : Report) (k : Nat) : (s.ownCharacter r k).power = s.power := by unfold State.ownCharacter; split <;> simp
@[simp] theorem ownCharacter_pins (s : State) (r : Report) (k : Nat) : (s.ownCharacter r k).pins = s.pins := by unfold State.ownCharacter; split <;> simp
@[simp] theorem ownCharacter_station (s : State) (r : Report) (k : Nat) : (s.ownCharacter r k).station = s.station := by unfold State.ownCharacter; split <;> simp
@[simp] theorem ownCharacter_config (s : State) (r : Report) (k : Nat) : (s.ownCharacter r k).config = s.config := by unfold State.ownCharacter; split <;> simp
@[simp] theorem ownCharacter_round (s : State) (r : Report) (k : Nat) : (s.ownCharacter r k).round = s.round := by unfold State.ownCharacter; split <;> simp
@[simp] theorem ownCharacter_ownReport (s : State) (r : Report) (k : Nat) : (s.ownCharacter r k).ownReport = s.ownReport := by unfold State.ownCharacter; split <;> simp
@[simp] theorem ownCharacter_lastOutcome (s : State) (r : Report) (k : Nat) : (s.ownCharacter r k).lastOutcome = s.lastOutcome := by unfold State.ownCharacter; split <;> simp
@[simp] theorem ownCharacter_seqCounter (s : State) (r : Report) (k : Nat) : (s.ownCharacter r k).seqCounter = s.seqCounter := by unfold State.ownCharacter; split <;> simp
@[simp] theorem ownCharacter_inputs (s : State) (r : Report) (k : Nat) : (s.ownCharacter r k).inputs = s.inputs := by unfold State.ownCharacter; split <;> simp
@[simp] theorem ownCharacter_counters (s : State) (r : Report) (k : Nat) : (s.ownCharacter r k).counters = s.counters := by unfold State.ownCharacter; split <;> simp
@[simp] theorem ownCharacter_chans (s : State) (r : Report) (k : Nat) : (s.ownCharacter r k).chans = s.chans := by unfold State.ownCharacter; split <;> simp
@[simp] theorem ownCharacter_meas (s : State) (r : Report) (k : Nat) : (s.ownCharacter r k).meas = s.meas := by unfold State.ownCharacter; split <;> simp
@[simp] theorem ownCharacter_check (s : State) (r : Report) (k : Nat) : (s.ownCharacter r k).check = s.check := by unfold State.ownCharacter; split <;> simp
@[simp] theorem ownCharacter_draw (s : State) (r : Report) (k : Nat) : (s.ownCharacter r k).draw = s.draw := by unfold State.ownCharacter; split <;> simp
@[simp] theorem ownCharacter_trim (s : State) (r : Report) (k : Nat) : (s.ownCharacter r k).trim = s.trim := by unfold State.ownCharacter; split <;> simp
@[simp] theorem ownCharacter_pwm (s : State) (r : Report) (k : Nat) : (s.ownCharacter r k).pwm = s.pwm := by unfold State.ownCharacter; split <;> simp
@[simp] theorem ownCharacter_brk (s : State) (r : Report) (k : Nat) : (s.ownCharacter r k).brk = s.brk := by unfold State.ownCharacter; split <;> simp
@[simp] theorem ownCharacter_log (s : State) (r : Report) (k : Nat) : (s.ownCharacter r k).log = s.log := by unfold State.ownCharacter; split <;> simp
@[simp] theorem ownCharacter_port (s : State) (r : Report) (k : Nat) : (s.ownCharacter r k).port = s.port := by unfold State.ownCharacter; split <;> simp
@[simp] theorem ownCharacter_pending (s : State) (r : Report) (k : Nat) : (s.ownCharacter r k).pending = s.pending := by unfold State.ownCharacter; split <;> simp
@[simp] theorem completeCharacter_now (s : State) (c : CharBits) : (s.completeCharacter c).now = s.now := by
  unfold State.completeCharacter; dsimp only; repeat' split
  all_goals simp
@[simp] theorem completeCharacter_power (s : State) (c : CharBits) : (s.completeCharacter c).power = s.power := by
  unfold State.completeCharacter; dsimp only; repeat' split
  all_goals simp
@[simp] theorem completeCharacter_pins (s : State) (c : CharBits) : (s.completeCharacter c).pins = s.pins := by
  unfold State.completeCharacter; dsimp only; repeat' split
  all_goals simp
@[simp] theorem completeCharacter_station (s : State) (c : CharBits) : (s.completeCharacter c).station = s.station := by
  unfold State.completeCharacter; dsimp only; repeat' split
  all_goals simp
@[simp] theorem completeCharacter_config (s : State) (c : CharBits) : (s.completeCharacter c).config = s.config := by
  unfold State.completeCharacter; dsimp only; repeat' split
  all_goals simp
@[simp] theorem completeCharacter_seqCounter (s : State) (c : CharBits) : (s.completeCharacter c).seqCounter = s.seqCounter := by
  unfold State.completeCharacter; dsimp only; repeat' split
  all_goals simp
@[simp] theorem completeCharacter_inputs (s : State) (c : CharBits) : (s.completeCharacter c).inputs = s.inputs := by
  unfold State.completeCharacter; dsimp only; repeat' split
  all_goals simp
@[simp] theorem completeCharacter_pending (s : State) (c : CharBits) : (s.completeCharacter c).pending = s.pending := by
  unfold State.completeCharacter; dsimp only; repeat' split
  all_goals simp
@[simp] theorem standbyLocal_now (s : State) : (s.standbyLocal).now = s.now := by unfold State.standbyLocal; split <;> simp
@[simp] theorem standbyLocal_power (s : State) : (s.standbyLocal).power = s.power := by unfold State.standbyLocal; split <;> simp
@[simp] theorem standbyLocal_pins (s : State) : (s.standbyLocal).pins = s.pins := by unfold State.standbyLocal; split <;> simp
@[simp] theorem standbyLocal_station (s : State) : (s.standbyLocal).station = s.station := by unfold State.standbyLocal; split <;> simp
@[simp] theorem standbyLocal_config (s : State) : (s.standbyLocal).config = s.config := by unfold State.standbyLocal; split <;> simp
@[simp] theorem standbyLocal_seqCounter (s : State) : (s.standbyLocal).seqCounter = s.seqCounter := by unfold State.standbyLocal; split <;> simp
@[simp] theorem standbyLocal_inputs (s : State) : (s.standbyLocal).inputs = s.inputs := by unfold State.standbyLocal; split <;> simp
@[simp] theorem standbyLocal_pending (s : State) : (s.standbyLocal).pending = s.pending := by unfold State.standbyLocal; split <;> simp
@[simp] theorem listeningLocal_now (s : State) : (s.listeningLocal).now = s.now := by unfold State.listeningLocal; split <;> simp
@[simp] theorem listeningLocal_power (s : State) : (s.listeningLocal).power = s.power := by unfold State.listeningLocal; split <;> simp
@[simp] theorem listeningLocal_pins (s : State) : (s.listeningLocal).pins = s.pins := by unfold State.listeningLocal; split <;> simp
@[simp] theorem listeningLocal_station (s : State) : (s.listeningLocal).station = s.station := by unfold State.listeningLocal; split <;> simp
@[simp] theorem listeningLocal_config (s : State) : (s.listeningLocal).config = s.config := by unfold State.listeningLocal; split <;> simp
@[simp] theorem listeningLocal_seqCounter (s : State) : (s.listeningLocal).seqCounter = s.seqCounter := by unfold State.listeningLocal; split <;> simp
@[simp] theorem listeningLocal_inputs (s : State) : (s.listeningLocal).inputs = s.inputs := by unfold State.listeningLocal; split <;> simp
@[simp] theorem listeningLocal_pending (s : State) : (s.listeningLocal).pending = s.pending := by unfold State.listeningLocal; split <;> simp
@[simp] theorem closeSlot_now (s : State) : (s.closeSlot).now = s.now := by simp [State.closeSlot]
@[simp] theorem closeSlot_power (s : State) : (s.closeSlot).power = s.power := by simp [State.closeSlot]
@[simp] theorem closeSlot_pins (s : State) : (s.closeSlot).pins = s.pins := by simp [State.closeSlot]
@[simp] theorem closeSlot_station (s : State) : (s.closeSlot).station = s.station := by simp [State.closeSlot]
@[simp] theorem closeSlot_config (s : State) : (s.closeSlot).config = s.config := by simp [State.closeSlot]
@[simp] theorem closeSlot_link (s : State) : (s.closeSlot).link = s.link := by simp [State.closeSlot]
@[simp] theorem closeSlot_roster (s : State) : (s.closeSlot).roster = s.roster := by simp [State.closeSlot]
@[simp] theorem closeSlot_ownReport (s : State) : (s.closeSlot).ownReport = s.ownReport := by simp [State.closeSlot]
@[simp] theorem closeSlot_trial (s : State) : (s.closeSlot).trial = s.trial := by simp [State.closeSlot]
@[simp] theorem closeSlot_lastOutcome (s : State) : (s.closeSlot).lastOutcome = s.lastOutcome := by simp [State.closeSlot]
@[simp] theorem closeSlot_seqCounter (s : State) : (s.closeSlot).seqCounter = s.seqCounter := by simp [State.closeSlot]
@[simp] theorem closeSlot_inputs (s : State) : (s.closeSlot).inputs = s.inputs := by simp [State.closeSlot]
@[simp] theorem closeSlot_counters (s : State) : (s.closeSlot).counters = s.counters := by simp [State.closeSlot]
@[simp] theorem closeSlot_chans (s : State) : (s.closeSlot).chans = s.chans := by simp [State.closeSlot]
@[simp] theorem closeSlot_meas (s : State) : (s.closeSlot).meas = s.meas := by simp [State.closeSlot]
@[simp] theorem closeSlot_check (s : State) : (s.closeSlot).check = s.check := by simp [State.closeSlot]
@[simp] theorem closeSlot_draw (s : State) : (s.closeSlot).draw = s.draw := by simp [State.closeSlot]
@[simp] theorem closeSlot_trim (s : State) : (s.closeSlot).trim = s.trim := by simp [State.closeSlot]
@[simp] theorem closeSlot_pwm (s : State) : (s.closeSlot).pwm = s.pwm := by simp [State.closeSlot]
@[simp] theorem closeSlot_brk (s : State) : (s.closeSlot).brk = s.brk := by simp [State.closeSlot]
@[simp] theorem closeSlot_log (s : State) : (s.closeSlot).log = s.log := by simp [State.closeSlot]
@[simp] theorem closeSlot_pending (s : State) : (s.closeSlot).pending = s.pending := by simp [State.closeSlot]
@[simp] theorem detectStart_now (s : State) (e : Nat) : (s.detectStart e).now = s.now := by
  unfold State.detectStart; repeat' split
  all_goals simp
@[simp] theorem detectStart_power (s : State) (e : Nat) : (s.detectStart e).power = s.power := by
  unfold State.detectStart; repeat' split
  all_goals simp
@[simp] theorem detectStart_pins (s : State) (e : Nat) : (s.detectStart e).pins = s.pins := by
  unfold State.detectStart; repeat' split
  all_goals simp
@[simp] theorem detectStart_station (s : State) (e : Nat) : (s.detectStart e).station = s.station := by
  unfold State.detectStart; repeat' split
  all_goals simp
@[simp] theorem detectStart_config (s : State) (e : Nat) : (s.detectStart e).config = s.config := by
  unfold State.detectStart; repeat' split
  all_goals simp
@[simp] theorem detectStart_link (s : State) (e : Nat) : (s.detectStart e).link = s.link := by
  unfold State.detectStart; repeat' split
  all_goals simp
@[simp] theorem detectStart_roster (s : State) (e : Nat) : (s.detectStart e).roster = s.roster := by
  unfold State.detectStart; repeat' split
  all_goals simp
@[simp] theorem detectStart_ownReport (s : State) (e : Nat) : (s.detectStart e).ownReport = s.ownReport := by
  unfold State.detectStart; repeat' split
  all_goals simp
@[simp] theorem detectStart_trial (s : State) (e : Nat) : (s.detectStart e).trial = s.trial := by
  unfold State.detectStart; repeat' split
  all_goals simp
@[simp] theorem detectStart_lastOutcome (s : State) (e : Nat) : (s.detectStart e).lastOutcome = s.lastOutcome := by
  unfold State.detectStart; repeat' split
  all_goals simp
@[simp] theorem detectStart_seqCounter (s : State) (e : Nat) : (s.detectStart e).seqCounter = s.seqCounter := by
  unfold State.detectStart; repeat' split
  all_goals simp
@[simp] theorem detectStart_inputs (s : State) (e : Nat) : (s.detectStart e).inputs = s.inputs := by
  unfold State.detectStart; repeat' split
  all_goals simp
@[simp] theorem detectStart_counters (s : State) (e : Nat) : (s.detectStart e).counters = s.counters := by
  unfold State.detectStart; repeat' split
  all_goals simp
@[simp] theorem detectStart_chans (s : State) (e : Nat) : (s.detectStart e).chans = s.chans := by
  unfold State.detectStart; repeat' split
  all_goals simp
@[simp] theorem detectStart_meas (s : State) (e : Nat) : (s.detectStart e).meas = s.meas := by
  unfold State.detectStart; repeat' split
  all_goals simp
@[simp] theorem detectStart_check (s : State) (e : Nat) : (s.detectStart e).check = s.check := by
  unfold State.detectStart; repeat' split
  all_goals simp
@[simp] theorem detectStart_draw (s : State) (e : Nat) : (s.detectStart e).draw = s.draw := by
  unfold State.detectStart; repeat' split
  all_goals simp
@[simp] theorem detectStart_trim (s : State) (e : Nat) : (s.detectStart e).trim = s.trim := by
  unfold State.detectStart; repeat' split
  all_goals simp
@[simp] theorem detectStart_pwm (s : State) (e : Nat) : (s.detectStart e).pwm = s.pwm := by
  unfold State.detectStart; repeat' split
  all_goals simp
@[simp] theorem detectStart_brk (s : State) (e : Nat) : (s.detectStart e).brk = s.brk := by
  unfold State.detectStart; repeat' split
  all_goals simp
@[simp] theorem detectStart_log (s : State) (e : Nat) : (s.detectStart e).log = s.log := by
  unfold State.detectStart; repeat' split
  all_goals simp
@[simp] theorem detectStart_port (s : State) (e : Nat) : (s.detectStart e).port = s.port := by
  unfold State.detectStart; repeat' split
  all_goals simp
@[simp] theorem detectStart_pending (s : State) (e : Nat) : (s.detectStart e).pending = s.pending := by
  unfold State.detectStart; repeat' split
  all_goals simp
@[simp] theorem boundaryEvent_now (s : State) (b : BoundaryEvent) : (s.boundaryEvent b).now = s.now := by unfold State.boundaryEvent; split <;> simp
@[simp] theorem boundaryEvent_power (s : State) (b : BoundaryEvent) : (s.boundaryEvent b).power = s.power := by unfold State.boundaryEvent; split <;> simp
@[simp] theorem boundaryEvent_pins (s : State) (b : BoundaryEvent) : (s.boundaryEvent b).pins = s.pins := by unfold State.boundaryEvent; split <;> simp
@[simp] theorem boundaryEvent_station (s : State) (b : BoundaryEvent) : (s.boundaryEvent b).station = s.station := by unfold State.boundaryEvent; split <;> simp
@[simp] theorem boundaryEvent_config (s : State) (b : BoundaryEvent) : (s.boundaryEvent b).config = s.config := by unfold State.boundaryEvent; split <;> simp
@[simp] theorem boundaryEvent_seqCounter (s : State) (b : BoundaryEvent) : (s.boundaryEvent b).seqCounter = s.seqCounter := by unfold State.boundaryEvent; split <;> simp
@[simp] theorem boundaryEvent_inputs (s : State) (b : BoundaryEvent) : (s.boundaryEvent b).inputs = s.inputs := by unfold State.boundaryEvent; split <;> simp
@[simp] theorem boundaryEvent_pending (s : State) (b : BoundaryEvent) : (s.boundaryEvent b).pending = s.pending := by unfold State.boundaryEvent; split <;> simp
@[simp] theorem whenComesAbout_now (s : State) (b : BoundaryEvent) (row : State → State → Bool) : (s.whenComesAbout b row).now = s.now := by unfold State.whenComesAbout; split <;> simp
@[simp] theorem whenComesAbout_power (s : State) (b : BoundaryEvent) (row : State → State → Bool) : (s.whenComesAbout b row).power = s.power := by unfold State.whenComesAbout; split <;> simp
@[simp] theorem whenComesAbout_pins (s : State) (b : BoundaryEvent) (row : State → State → Bool) : (s.whenComesAbout b row).pins = s.pins := by unfold State.whenComesAbout; split <;> simp
@[simp] theorem whenComesAbout_station (s : State) (b : BoundaryEvent) (row : State → State → Bool) : (s.whenComesAbout b row).station = s.station := by unfold State.whenComesAbout; split <;> simp
@[simp] theorem whenComesAbout_config (s : State) (b : BoundaryEvent) (row : State → State → Bool) : (s.whenComesAbout b row).config = s.config := by unfold State.whenComesAbout; split <;> simp
@[simp] theorem whenComesAbout_seqCounter (s : State) (b : BoundaryEvent) (row : State → State → Bool) : (s.whenComesAbout b row).seqCounter = s.seqCounter := by unfold State.whenComesAbout; split <;> simp
@[simp] theorem whenComesAbout_inputs (s : State) (b : BoundaryEvent) (row : State → State → Bool) : (s.whenComesAbout b row).inputs = s.inputs := by unfold State.whenComesAbout; split <;> simp
@[simp] theorem whenComesAbout_pending (s : State) (b : BoundaryEvent) (row : State → State → Bool) : (s.whenComesAbout b row).pending = s.pending := by unfold State.whenComesAbout; split <;> simp
@[simp] theorem setFast_now (s : State) (l : FastLine) (n : Channel) (f : FastFilter) : (s.setFast l n f).now = s.now := by cases l <;> rfl
@[simp] theorem setFast_power (s : State) (l : FastLine) (n : Channel) (f : FastFilter) : (s.setFast l n f).power = s.power := by cases l <;> rfl
@[simp] theorem setFast_pins (s : State) (l : FastLine) (n : Channel) (f : FastFilter) : (s.setFast l n f).pins = s.pins := by cases l <;> rfl
@[simp] theorem setFast_station (s : State) (l : FastLine) (n : Channel) (f : FastFilter) : (s.setFast l n f).station = s.station := by cases l <;> rfl
@[simp] theorem setFast_config (s : State) (l : FastLine) (n : Channel) (f : FastFilter) : (s.setFast l n f).config = s.config := by cases l <;> rfl
@[simp] theorem setFast_line (s : State) (l : FastLine) (n : Channel) (f : FastFilter) : (s.setFast l n f).line = s.line := by cases l <;> rfl
@[simp] theorem setFast_round (s : State) (l : FastLine) (n : Channel) (f : FastFilter) : (s.setFast l n f).round = s.round := by cases l <;> rfl
@[simp] theorem setFast_link (s : State) (l : FastLine) (n : Channel) (f : FastFilter) : (s.setFast l n f).link = s.link := by cases l <;> rfl
@[simp] theorem setFast_roster (s : State) (l : FastLine) (n : Channel) (f : FastFilter) : (s.setFast l n f).roster = s.roster := by cases l <;> rfl
@[simp] theorem setFast_ownReport (s : State) (l : FastLine) (n : Channel) (f : FastFilter) : (s.setFast l n f).ownReport = s.ownReport := by cases l <;> rfl
@[simp] theorem setFast_trial (s : State) (l : FastLine) (n : Channel) (f : FastFilter) : (s.setFast l n f).trial = s.trial := by cases l <;> rfl
@[simp] theorem setFast_lastOutcome (s : State) (l : FastLine) (n : Channel) (f : FastFilter) : (s.setFast l n f).lastOutcome = s.lastOutcome := by cases l <;> rfl
@[simp] theorem setFast_seqCounter (s : State) (l : FastLine) (n : Channel) (f : FastFilter) : (s.setFast l n f).seqCounter = s.seqCounter := by cases l <;> rfl
@[simp] theorem setFast_counters (s : State) (l : FastLine) (n : Channel) (f : FastFilter) : (s.setFast l n f).counters = s.counters := by cases l <;> rfl
@[simp] theorem setFast_chans (s : State) (l : FastLine) (n : Channel) (f : FastFilter) : (s.setFast l n f).chans = s.chans := by cases l <;> rfl
@[simp] theorem setFast_meas (s : State) (l : FastLine) (n : Channel) (f : FastFilter) : (s.setFast l n f).meas = s.meas := by cases l <;> rfl
@[simp] theorem setFast_check (s : State) (l : FastLine) (n : Channel) (f : FastFilter) : (s.setFast l n f).check = s.check := by cases l <;> rfl
@[simp] theorem setFast_draw (s : State) (l : FastLine) (n : Channel) (f : FastFilter) : (s.setFast l n f).draw = s.draw := by cases l <;> rfl
@[simp] theorem setFast_trim (s : State) (l : FastLine) (n : Channel) (f : FastFilter) : (s.setFast l n f).trim = s.trim := by cases l <;> rfl
@[simp] theorem setFast_pwm (s : State) (l : FastLine) (n : Channel) (f : FastFilter) : (s.setFast l n f).pwm = s.pwm := by cases l <;> rfl
@[simp] theorem setFast_brk (s : State) (l : FastLine) (n : Channel) (f : FastFilter) : (s.setFast l n f).brk = s.brk := by cases l <;> rfl
@[simp] theorem setFast_log (s : State) (l : FastLine) (n : Channel) (f : FastFilter) : (s.setFast l n f).log = s.log := by cases l <;> rfl
@[simp] theorem setFast_port (s : State) (l : FastLine) (n : Channel) (f : FastFilter) : (s.setFast l n f).port = s.port := by cases l <;> rfl
@[simp] theorem setFast_pending (s : State) (l : FastLine) (n : Channel) (f : FastFilter) : (s.setFast l n f).pending = s.pending := by cases l <;> rfl
@[simp] theorem takeEdge_pins (s : State) (l : FastLine) (n : Channel) (b : Bool) : (s.takeEdge l n b).pins = s.pins := by simp [State.takeEdge]
@[simp] theorem takeEdge_now (s : State) (l : FastLine) (n : Channel) (b : Bool) : (s.takeEdge l n b).now = s.now := by simp [State.takeEdge]
@[simp] theorem takeEdge_power (s : State) (l : FastLine) (n : Channel) (b : Bool) : (s.takeEdge l n b).power = s.power := by simp [State.takeEdge]
@[simp] theorem takeEdge_station (s : State) (l : FastLine) (n : Channel) (b : Bool) : (s.takeEdge l n b).station = s.station := by simp [State.takeEdge]
@[simp] theorem takeEdge_config (s : State) (l : FastLine) (n : Channel) (b : Bool) : (s.takeEdge l n b).config = s.config := by simp [State.takeEdge]
@[simp] theorem takeEdge_line (s : State) (l : FastLine) (n : Channel) (b : Bool) : (s.takeEdge l n b).line = s.line := by simp [State.takeEdge]
@[simp] theorem takeEdge_round (s : State) (l : FastLine) (n : Channel) (b : Bool) : (s.takeEdge l n b).round = s.round := by simp [State.takeEdge]
@[simp] theorem takeEdge_link (s : State) (l : FastLine) (n : Channel) (b : Bool) : (s.takeEdge l n b).link = s.link := by simp [State.takeEdge]
@[simp] theorem takeEdge_roster (s : State) (l : FastLine) (n : Channel) (b : Bool) : (s.takeEdge l n b).roster = s.roster := by simp [State.takeEdge]
@[simp] theorem takeEdge_ownReport (s : State) (l : FastLine) (n : Channel) (b : Bool) : (s.takeEdge l n b).ownReport = s.ownReport := by simp [State.takeEdge]
@[simp] theorem takeEdge_trial (s : State) (l : FastLine) (n : Channel) (b : Bool) : (s.takeEdge l n b).trial = s.trial := by simp [State.takeEdge]
@[simp] theorem takeEdge_lastOutcome (s : State) (l : FastLine) (n : Channel) (b : Bool) : (s.takeEdge l n b).lastOutcome = s.lastOutcome := by simp [State.takeEdge]
@[simp] theorem takeEdge_seqCounter (s : State) (l : FastLine) (n : Channel) (b : Bool) : (s.takeEdge l n b).seqCounter = s.seqCounter := by simp [State.takeEdge]
@[simp] theorem takeEdge_counters (s : State) (l : FastLine) (n : Channel) (b : Bool) : (s.takeEdge l n b).counters = s.counters := by simp [State.takeEdge]
@[simp] theorem takeEdge_chans (s : State) (l : FastLine) (n : Channel) (b : Bool) : (s.takeEdge l n b).chans = s.chans := by simp [State.takeEdge]
@[simp] theorem takeEdge_meas (s : State) (l : FastLine) (n : Channel) (b : Bool) : (s.takeEdge l n b).meas = s.meas := by simp [State.takeEdge]
@[simp] theorem takeEdge_check (s : State) (l : FastLine) (n : Channel) (b : Bool) : (s.takeEdge l n b).check = s.check := by simp [State.takeEdge]
@[simp] theorem takeEdge_draw (s : State) (l : FastLine) (n : Channel) (b : Bool) : (s.takeEdge l n b).draw = s.draw := by simp [State.takeEdge]
@[simp] theorem takeEdge_trim (s : State) (l : FastLine) (n : Channel) (b : Bool) : (s.takeEdge l n b).trim = s.trim := by simp [State.takeEdge]
@[simp] theorem takeEdge_pwm (s : State) (l : FastLine) (n : Channel) (b : Bool) : (s.takeEdge l n b).pwm = s.pwm := by simp [State.takeEdge]
@[simp] theorem takeEdge_brk (s : State) (l : FastLine) (n : Channel) (b : Bool) : (s.takeEdge l n b).brk = s.brk := by simp [State.takeEdge]
@[simp] theorem takeEdge_log (s : State) (l : FastLine) (n : Channel) (b : Bool) : (s.takeEdge l n b).log = s.log := by simp [State.takeEdge]
@[simp] theorem takeEdge_port (s : State) (l : FastLine) (n : Channel) (b : Bool) : (s.takeEdge l n b).port = s.port := by simp [State.takeEdge]
@[simp] theorem takeEdge_pending (s : State) (l : FastLine) (n : Channel) (b : Bool) : (s.takeEdge l n b).pending = s.pending := by simp [State.takeEdge]
@[simp] theorem checkSpeedEdge_now (s : State) (n : Channel) (b : Bool) : (s.checkSpeedEdge n b).now = s.now := by
  unfold State.checkSpeedEdge; dsimp only; repeat' split
  all_goals simp
@[simp] theorem checkSpeedEdge_power (s : State) (n : Channel) (b : Bool) : (s.checkSpeedEdge n b).power = s.power := by
  unfold State.checkSpeedEdge; dsimp only; repeat' split
  all_goals simp
@[simp] theorem checkSpeedEdge_pins (s : State) (n : Channel) (b : Bool) : (s.checkSpeedEdge n b).pins = s.pins := by
  unfold State.checkSpeedEdge; dsimp only; repeat' split
  all_goals simp
@[simp] theorem checkSpeedEdge_station (s : State) (n : Channel) (b : Bool) : (s.checkSpeedEdge n b).station = s.station := by
  unfold State.checkSpeedEdge; dsimp only; repeat' split
  all_goals simp
@[simp] theorem checkSpeedEdge_config (s : State) (n : Channel) (b : Bool) : (s.checkSpeedEdge n b).config = s.config := by
  unfold State.checkSpeedEdge; dsimp only; repeat' split
  all_goals simp
@[simp] theorem checkSpeedEdge_line (s : State) (n : Channel) (b : Bool) : (s.checkSpeedEdge n b).line = s.line := by
  unfold State.checkSpeedEdge; dsimp only; repeat' split
  all_goals simp
@[simp] theorem checkSpeedEdge_round (s : State) (n : Channel) (b : Bool) : (s.checkSpeedEdge n b).round = s.round := by
  unfold State.checkSpeedEdge; dsimp only; repeat' split
  all_goals simp
@[simp] theorem checkSpeedEdge_link (s : State) (n : Channel) (b : Bool) : (s.checkSpeedEdge n b).link = s.link := by
  unfold State.checkSpeedEdge; dsimp only; repeat' split
  all_goals simp
@[simp] theorem checkSpeedEdge_roster (s : State) (n : Channel) (b : Bool) : (s.checkSpeedEdge n b).roster = s.roster := by
  unfold State.checkSpeedEdge; dsimp only; repeat' split
  all_goals simp
@[simp] theorem checkSpeedEdge_ownReport (s : State) (n : Channel) (b : Bool) : (s.checkSpeedEdge n b).ownReport = s.ownReport := by
  unfold State.checkSpeedEdge; dsimp only; repeat' split
  all_goals simp
@[simp] theorem checkSpeedEdge_trial (s : State) (n : Channel) (b : Bool) : (s.checkSpeedEdge n b).trial = s.trial := by
  unfold State.checkSpeedEdge; dsimp only; repeat' split
  all_goals simp
@[simp] theorem checkSpeedEdge_lastOutcome (s : State) (n : Channel) (b : Bool) : (s.checkSpeedEdge n b).lastOutcome = s.lastOutcome := by
  unfold State.checkSpeedEdge; dsimp only; repeat' split
  all_goals simp
@[simp] theorem checkSpeedEdge_seqCounter (s : State) (n : Channel) (b : Bool) : (s.checkSpeedEdge n b).seqCounter = s.seqCounter := by
  unfold State.checkSpeedEdge; dsimp only; repeat' split
  all_goals simp
@[simp] theorem checkSpeedEdge_inputs (s : State) (n : Channel) (b : Bool) : (s.checkSpeedEdge n b).inputs = s.inputs := by
  unfold State.checkSpeedEdge; dsimp only; repeat' split
  all_goals simp
@[simp] theorem checkSpeedEdge_counters (s : State) (n : Channel) (b : Bool) : (s.checkSpeedEdge n b).counters = s.counters := by
  unfold State.checkSpeedEdge; dsimp only; repeat' split
  all_goals simp
@[simp] theorem checkSpeedEdge_chans (s : State) (n : Channel) (b : Bool) : (s.checkSpeedEdge n b).chans = s.chans := by
  unfold State.checkSpeedEdge; dsimp only; repeat' split
  all_goals simp
@[simp] theorem checkSpeedEdge_meas (s : State) (n : Channel) (b : Bool) : (s.checkSpeedEdge n b).meas = s.meas := by
  unfold State.checkSpeedEdge; dsimp only; repeat' split
  all_goals simp
@[simp] theorem checkSpeedEdge_draw (s : State) (n : Channel) (b : Bool) : (s.checkSpeedEdge n b).draw = s.draw := by
  unfold State.checkSpeedEdge; dsimp only; repeat' split
  all_goals simp
@[simp] theorem checkSpeedEdge_trim (s : State) (n : Channel) (b : Bool) : (s.checkSpeedEdge n b).trim = s.trim := by
  unfold State.checkSpeedEdge; dsimp only; repeat' split
  all_goals simp
@[simp] theorem checkSpeedEdge_pwm (s : State) (n : Channel) (b : Bool) : (s.checkSpeedEdge n b).pwm = s.pwm := by
  unfold State.checkSpeedEdge; dsimp only; repeat' split
  all_goals simp
@[simp] theorem checkSpeedEdge_brk (s : State) (n : Channel) (b : Bool) : (s.checkSpeedEdge n b).brk = s.brk := by
  unfold State.checkSpeedEdge; dsimp only; repeat' split
  all_goals simp
@[simp] theorem checkSpeedEdge_log (s : State) (n : Channel) (b : Bool) : (s.checkSpeedEdge n b).log = s.log := by
  unfold State.checkSpeedEdge; dsimp only; repeat' split
  all_goals simp
@[simp] theorem checkSpeedEdge_pending (s : State) (n : Channel) (b : Bool) : (s.checkSpeedEdge n b).pending = s.pending := by
  unfold State.checkSpeedEdge; dsimp only; repeat' split
  all_goals simp
@[simp] theorem checkIndexEdge_now (s : State) (n : Channel) : (s.checkIndexEdge n).now = s.now := by
  unfold State.checkIndexEdge; repeat' split
  all_goals simp
@[simp] theorem checkIndexEdge_power (s : State) (n : Channel) : (s.checkIndexEdge n).power = s.power := by
  unfold State.checkIndexEdge; repeat' split
  all_goals simp
@[simp] theorem checkIndexEdge_pins (s : State) (n : Channel) : (s.checkIndexEdge n).pins = s.pins := by
  unfold State.checkIndexEdge; repeat' split
  all_goals simp
@[simp] theorem checkIndexEdge_station (s : State) (n : Channel) : (s.checkIndexEdge n).station = s.station := by
  unfold State.checkIndexEdge; repeat' split
  all_goals simp
@[simp] theorem checkIndexEdge_config (s : State) (n : Channel) : (s.checkIndexEdge n).config = s.config := by
  unfold State.checkIndexEdge; repeat' split
  all_goals simp
@[simp] theorem checkIndexEdge_line (s : State) (n : Channel) : (s.checkIndexEdge n).line = s.line := by
  unfold State.checkIndexEdge; repeat' split
  all_goals simp
@[simp] theorem checkIndexEdge_round (s : State) (n : Channel) : (s.checkIndexEdge n).round = s.round := by
  unfold State.checkIndexEdge; repeat' split
  all_goals simp
@[simp] theorem checkIndexEdge_link (s : State) (n : Channel) : (s.checkIndexEdge n).link = s.link := by
  unfold State.checkIndexEdge; repeat' split
  all_goals simp
@[simp] theorem checkIndexEdge_roster (s : State) (n : Channel) : (s.checkIndexEdge n).roster = s.roster := by
  unfold State.checkIndexEdge; repeat' split
  all_goals simp
@[simp] theorem checkIndexEdge_ownReport (s : State) (n : Channel) : (s.checkIndexEdge n).ownReport = s.ownReport := by
  unfold State.checkIndexEdge; repeat' split
  all_goals simp
@[simp] theorem checkIndexEdge_trial (s : State) (n : Channel) : (s.checkIndexEdge n).trial = s.trial := by
  unfold State.checkIndexEdge; repeat' split
  all_goals simp
@[simp] theorem checkIndexEdge_lastOutcome (s : State) (n : Channel) : (s.checkIndexEdge n).lastOutcome = s.lastOutcome := by
  unfold State.checkIndexEdge; repeat' split
  all_goals simp
@[simp] theorem checkIndexEdge_seqCounter (s : State) (n : Channel) : (s.checkIndexEdge n).seqCounter = s.seqCounter := by
  unfold State.checkIndexEdge; repeat' split
  all_goals simp
@[simp] theorem checkIndexEdge_inputs (s : State) (n : Channel) : (s.checkIndexEdge n).inputs = s.inputs := by
  unfold State.checkIndexEdge; repeat' split
  all_goals simp
@[simp] theorem checkIndexEdge_counters (s : State) (n : Channel) : (s.checkIndexEdge n).counters = s.counters := by
  unfold State.checkIndexEdge; repeat' split
  all_goals simp
@[simp] theorem checkIndexEdge_chans (s : State) (n : Channel) : (s.checkIndexEdge n).chans = s.chans := by
  unfold State.checkIndexEdge; repeat' split
  all_goals simp
@[simp] theorem checkIndexEdge_meas (s : State) (n : Channel) : (s.checkIndexEdge n).meas = s.meas := by
  unfold State.checkIndexEdge; repeat' split
  all_goals simp
@[simp] theorem checkIndexEdge_draw (s : State) (n : Channel) : (s.checkIndexEdge n).draw = s.draw := by
  unfold State.checkIndexEdge; repeat' split
  all_goals simp
@[simp] theorem checkIndexEdge_trim (s : State) (n : Channel) : (s.checkIndexEdge n).trim = s.trim := by
  unfold State.checkIndexEdge; repeat' split
  all_goals simp
@[simp] theorem checkIndexEdge_pwm (s : State) (n : Channel) : (s.checkIndexEdge n).pwm = s.pwm := by
  unfold State.checkIndexEdge; repeat' split
  all_goals simp
@[simp] theorem checkIndexEdge_brk (s : State) (n : Channel) : (s.checkIndexEdge n).brk = s.brk := by
  unfold State.checkIndexEdge; repeat' split
  all_goals simp
@[simp] theorem checkIndexEdge_log (s : State) (n : Channel) : (s.checkIndexEdge n).log = s.log := by
  unfold State.checkIndexEdge; repeat' split
  all_goals simp
@[simp] theorem checkIndexEdge_pending (s : State) (n : Channel) : (s.checkIndexEdge n).pending = s.pending := by
  unfold State.checkIndexEdge; repeat' split
  all_goals simp
@[simp] theorem speedEdge_now (s : State) (n : Channel) (b : Bool) : (s.speedEdge n b).now = s.now := by simp [State.speedEdge]
@[simp] theorem speedEdge_power (s : State) (n : Channel) (b : Bool) : (s.speedEdge n b).power = s.power := by simp [State.speedEdge]
@[simp] theorem speedEdge_station (s : State) (n : Channel) (b : Bool) : (s.speedEdge n b).station = s.station := by simp [State.speedEdge]
@[simp] theorem speedEdge_config (s : State) (n : Channel) (b : Bool) : (s.speedEdge n b).config = s.config := by simp [State.speedEdge]
@[simp] theorem speedEdge_line (s : State) (n : Channel) (b : Bool) : (s.speedEdge n b).line = s.line := by simp [State.speedEdge]
@[simp] theorem speedEdge_round (s : State) (n : Channel) (b : Bool) : (s.speedEdge n b).round = s.round := by simp [State.speedEdge]
@[simp] theorem speedEdge_link (s : State) (n : Channel) (b : Bool) : (s.speedEdge n b).link = s.link := by simp [State.speedEdge]
@[simp] theorem speedEdge_roster (s : State) (n : Channel) (b : Bool) : (s.speedEdge n b).roster = s.roster := by simp [State.speedEdge]
@[simp] theorem speedEdge_ownReport (s : State) (n : Channel) (b : Bool) : (s.speedEdge n b).ownReport = s.ownReport := by simp [State.speedEdge]
@[simp] theorem speedEdge_trial (s : State) (n : Channel) (b : Bool) : (s.speedEdge n b).trial = s.trial := by simp [State.speedEdge]
@[simp] theorem speedEdge_lastOutcome (s : State) (n : Channel) (b : Bool) : (s.speedEdge n b).lastOutcome = s.lastOutcome := by simp [State.speedEdge]
@[simp] theorem speedEdge_seqCounter (s : State) (n : Channel) (b : Bool) : (s.speedEdge n b).seqCounter = s.seqCounter := by simp [State.speedEdge]
@[simp] theorem speedEdge_chans (s : State) (n : Channel) (b : Bool) : (s.speedEdge n b).chans = s.chans := by simp [State.speedEdge]
@[simp] theorem speedEdge_meas (s : State) (n : Channel) (b : Bool) : (s.speedEdge n b).meas = s.meas := by simp [State.speedEdge]
@[simp] theorem speedEdge_draw (s : State) (n : Channel) (b : Bool) : (s.speedEdge n b).draw = s.draw := by simp [State.speedEdge]
@[simp] theorem speedEdge_trim (s : State) (n : Channel) (b : Bool) : (s.speedEdge n b).trim = s.trim := by simp [State.speedEdge]
@[simp] theorem speedEdge_pwm (s : State) (n : Channel) (b : Bool) : (s.speedEdge n b).pwm = s.pwm := by simp [State.speedEdge]
@[simp] theorem speedEdge_brk (s : State) (n : Channel) (b : Bool) : (s.speedEdge n b).brk = s.brk := by simp [State.speedEdge]
@[simp] theorem speedEdge_log (s : State) (n : Channel) (b : Bool) : (s.speedEdge n b).log = s.log := by simp [State.speedEdge]
@[simp] theorem speedEdge_pending (s : State) (n : Channel) (b : Bool) : (s.speedEdge n b).pending = s.pending := by simp [State.speedEdge]
@[simp] theorem rdyRises_now (s : State) (n : Channel) : (s.rdyRises n).now = s.now := by unfold State.rdyRises; split <;> simp
@[simp] theorem rdyRises_power (s : State) (n : Channel) : (s.rdyRises n).power = s.power := by unfold State.rdyRises; split <;> simp
@[simp] theorem rdyRises_pins (s : State) (n : Channel) : (s.rdyRises n).pins = s.pins := by unfold State.rdyRises; split <;> simp
@[simp] theorem rdyRises_station (s : State) (n : Channel) : (s.rdyRises n).station = s.station := by unfold State.rdyRises; split <;> simp
@[simp] theorem rdyRises_config (s : State) (n : Channel) : (s.rdyRises n).config = s.config := by unfold State.rdyRises; split <;> simp
@[simp] theorem rdyRises_line (s : State) (n : Channel) : (s.rdyRises n).line = s.line := by unfold State.rdyRises; split <;> simp
@[simp] theorem rdyRises_round (s : State) (n : Channel) : (s.rdyRises n).round = s.round := by unfold State.rdyRises; split <;> simp
@[simp] theorem rdyRises_link (s : State) (n : Channel) : (s.rdyRises n).link = s.link := by unfold State.rdyRises; split <;> simp
@[simp] theorem rdyRises_roster (s : State) (n : Channel) : (s.rdyRises n).roster = s.roster := by unfold State.rdyRises; split <;> simp
@[simp] theorem rdyRises_ownReport (s : State) (n : Channel) : (s.rdyRises n).ownReport = s.ownReport := by unfold State.rdyRises; split <;> simp
@[simp] theorem rdyRises_trial (s : State) (n : Channel) : (s.rdyRises n).trial = s.trial := by unfold State.rdyRises; split <;> simp
@[simp] theorem rdyRises_lastOutcome (s : State) (n : Channel) : (s.rdyRises n).lastOutcome = s.lastOutcome := by unfold State.rdyRises; split <;> simp
@[simp] theorem rdyRises_seqCounter (s : State) (n : Channel) : (s.rdyRises n).seqCounter = s.seqCounter := by unfold State.rdyRises; split <;> simp
@[simp] theorem rdyRises_inputs (s : State) (n : Channel) : (s.rdyRises n).inputs = s.inputs := by unfold State.rdyRises; split <;> simp
@[simp] theorem rdyRises_counters (s : State) (n : Channel) : (s.rdyRises n).counters = s.counters := by unfold State.rdyRises; split <;> simp
@[simp] theorem rdyRises_meas (s : State) (n : Channel) : (s.rdyRises n).meas = s.meas := by unfold State.rdyRises; split <;> simp
@[simp] theorem rdyRises_check (s : State) (n : Channel) : (s.rdyRises n).check = s.check := by unfold State.rdyRises; split <;> simp
@[simp] theorem rdyRises_draw (s : State) (n : Channel) : (s.rdyRises n).draw = s.draw := by unfold State.rdyRises; split <;> simp
@[simp] theorem rdyRises_trim (s : State) (n : Channel) : (s.rdyRises n).trim = s.trim := by unfold State.rdyRises; split <;> simp
@[simp] theorem rdyRises_pwm (s : State) (n : Channel) : (s.rdyRises n).pwm = s.pwm := by unfold State.rdyRises; split <;> simp
@[simp] theorem rdyRises_brk (s : State) (n : Channel) : (s.rdyRises n).brk = s.brk := by unfold State.rdyRises; split <;> simp
@[simp] theorem rdyRises_log (s : State) (n : Channel) : (s.rdyRises n).log = s.log := by unfold State.rdyRises; split <;> simp
@[simp] theorem rdyRises_port (s : State) (n : Channel) : (s.rdyRises n).port = s.port := by unfold State.rdyRises; split <;> simp
@[simp] theorem rdyRises_pending (s : State) (n : Channel) : (s.rdyRises n).pending = s.pending := by unfold State.rdyRises; split <;> simp
@[simp] theorem rdyFalls_now (s : State) (n : Channel) : (s.rdyFalls n).now = s.now := by unfold State.rdyFalls; split <;> simp
@[simp] theorem rdyFalls_power (s : State) (n : Channel) : (s.rdyFalls n).power = s.power := by unfold State.rdyFalls; split <;> simp
@[simp] theorem rdyFalls_pins (s : State) (n : Channel) : (s.rdyFalls n).pins = s.pins := by unfold State.rdyFalls; split <;> simp
@[simp] theorem rdyFalls_station (s : State) (n : Channel) : (s.rdyFalls n).station = s.station := by unfold State.rdyFalls; split <;> simp
@[simp] theorem rdyFalls_config (s : State) (n : Channel) : (s.rdyFalls n).config = s.config := by unfold State.rdyFalls; split <;> simp
@[simp] theorem rdyFalls_line (s : State) (n : Channel) : (s.rdyFalls n).line = s.line := by unfold State.rdyFalls; split <;> simp
@[simp] theorem rdyFalls_round (s : State) (n : Channel) : (s.rdyFalls n).round = s.round := by unfold State.rdyFalls; split <;> simp
@[simp] theorem rdyFalls_link (s : State) (n : Channel) : (s.rdyFalls n).link = s.link := by unfold State.rdyFalls; split <;> simp
@[simp] theorem rdyFalls_roster (s : State) (n : Channel) : (s.rdyFalls n).roster = s.roster := by unfold State.rdyFalls; split <;> simp
@[simp] theorem rdyFalls_ownReport (s : State) (n : Channel) : (s.rdyFalls n).ownReport = s.ownReport := by unfold State.rdyFalls; split <;> simp
@[simp] theorem rdyFalls_trial (s : State) (n : Channel) : (s.rdyFalls n).trial = s.trial := by unfold State.rdyFalls; split <;> simp
@[simp] theorem rdyFalls_lastOutcome (s : State) (n : Channel) : (s.rdyFalls n).lastOutcome = s.lastOutcome := by unfold State.rdyFalls; split <;> simp
@[simp] theorem rdyFalls_seqCounter (s : State) (n : Channel) : (s.rdyFalls n).seqCounter = s.seqCounter := by unfold State.rdyFalls; split <;> simp
@[simp] theorem rdyFalls_inputs (s : State) (n : Channel) : (s.rdyFalls n).inputs = s.inputs := by unfold State.rdyFalls; split <;> simp
@[simp] theorem rdyFalls_counters (s : State) (n : Channel) : (s.rdyFalls n).counters = s.counters := by unfold State.rdyFalls; split <;> simp
@[simp] theorem rdyFalls_meas (s : State) (n : Channel) : (s.rdyFalls n).meas = s.meas := by unfold State.rdyFalls; split <;> simp
@[simp] theorem rdyFalls_draw (s : State) (n : Channel) : (s.rdyFalls n).draw = s.draw := by unfold State.rdyFalls; split <;> simp
@[simp] theorem rdyFalls_trim (s : State) (n : Channel) : (s.rdyFalls n).trim = s.trim := by unfold State.rdyFalls; split <;> simp
@[simp] theorem rdyFalls_pwm (s : State) (n : Channel) : (s.rdyFalls n).pwm = s.pwm := by unfold State.rdyFalls; split <;> simp
@[simp] theorem rdyFalls_brk (s : State) (n : Channel) : (s.rdyFalls n).brk = s.brk := by unfold State.rdyFalls; split <;> simp
@[simp] theorem rdyFalls_log (s : State) (n : Channel) : (s.rdyFalls n).log = s.log := by unfold State.rdyFalls; split <;> simp
@[simp] theorem rdyFalls_pending (s : State) (n : Channel) : (s.rdyFalls n).pending = s.pending := by unfold State.rdyFalls; split <;> simp
@[simp] theorem changeRdy_now (s : State) (n : Channel) : (s.changeRdy n).now = s.now := by unfold State.changeRdy; dsimp only; split <;> simp
@[simp] theorem changeRdy_power (s : State) (n : Channel) : (s.changeRdy n).power = s.power := by unfold State.changeRdy; dsimp only; split <;> simp
@[simp] theorem changeRdy_pins (s : State) (n : Channel) : (s.changeRdy n).pins = s.pins := by unfold State.changeRdy; dsimp only; split <;> simp
@[simp] theorem changeRdy_station (s : State) (n : Channel) : (s.changeRdy n).station = s.station := by unfold State.changeRdy; dsimp only; split <;> simp
@[simp] theorem changeRdy_config (s : State) (n : Channel) : (s.changeRdy n).config = s.config := by unfold State.changeRdy; dsimp only; split <;> simp
@[simp] theorem changeRdy_line (s : State) (n : Channel) : (s.changeRdy n).line = s.line := by unfold State.changeRdy; dsimp only; split <;> simp
@[simp] theorem changeRdy_round (s : State) (n : Channel) : (s.changeRdy n).round = s.round := by unfold State.changeRdy; dsimp only; split <;> simp
@[simp] theorem changeRdy_link (s : State) (n : Channel) : (s.changeRdy n).link = s.link := by unfold State.changeRdy; dsimp only; split <;> simp
@[simp] theorem changeRdy_roster (s : State) (n : Channel) : (s.changeRdy n).roster = s.roster := by unfold State.changeRdy; dsimp only; split <;> simp
@[simp] theorem changeRdy_ownReport (s : State) (n : Channel) : (s.changeRdy n).ownReport = s.ownReport := by unfold State.changeRdy; dsimp only; split <;> simp
@[simp] theorem changeRdy_trial (s : State) (n : Channel) : (s.changeRdy n).trial = s.trial := by unfold State.changeRdy; dsimp only; split <;> simp
@[simp] theorem changeRdy_lastOutcome (s : State) (n : Channel) : (s.changeRdy n).lastOutcome = s.lastOutcome := by unfold State.changeRdy; dsimp only; split <;> simp
@[simp] theorem changeRdy_seqCounter (s : State) (n : Channel) : (s.changeRdy n).seqCounter = s.seqCounter := by unfold State.changeRdy; dsimp only; split <;> simp
@[simp] theorem changeRdy_counters (s : State) (n : Channel) : (s.changeRdy n).counters = s.counters := by unfold State.changeRdy; dsimp only; split <;> simp
@[simp] theorem changeRdy_meas (s : State) (n : Channel) : (s.changeRdy n).meas = s.meas := by unfold State.changeRdy; dsimp only; split <;> simp
@[simp] theorem changeRdy_draw (s : State) (n : Channel) : (s.changeRdy n).draw = s.draw := by unfold State.changeRdy; dsimp only; split <;> simp
@[simp] theorem changeRdy_trim (s : State) (n : Channel) : (s.changeRdy n).trim = s.trim := by unfold State.changeRdy; dsimp only; split <;> simp
@[simp] theorem changeRdy_pwm (s : State) (n : Channel) : (s.changeRdy n).pwm = s.pwm := by unfold State.changeRdy; dsimp only; split <;> simp
@[simp] theorem changeRdy_brk (s : State) (n : Channel) : (s.changeRdy n).brk = s.brk := by unfold State.changeRdy; dsimp only; split <;> simp
@[simp] theorem changeRdy_log (s : State) (n : Channel) : (s.changeRdy n).log = s.log := by unfold State.changeRdy; dsimp only; split <;> simp
@[simp] theorem changeRdy_pending (s : State) (n : Channel) : (s.changeRdy n).pending = s.pending := by unfold State.changeRdy; dsimp only; split <;> simp
@[simp] theorem changeFlt_now (s : State) (n : Channel) : (s.changeFlt n).now = s.now := by unfold State.changeFlt; dsimp only; split <;> simp
@[simp] theorem changeFlt_power (s : State) (n : Channel) : (s.changeFlt n).power = s.power := by unfold State.changeFlt; dsimp only; split <;> simp
@[simp] theorem changeFlt_pins (s : State) (n : Channel) : (s.changeFlt n).pins = s.pins := by unfold State.changeFlt; dsimp only; split <;> simp
@[simp] theorem changeFlt_station (s : State) (n : Channel) : (s.changeFlt n).station = s.station := by unfold State.changeFlt; dsimp only; split <;> simp
@[simp] theorem changeFlt_config (s : State) (n : Channel) : (s.changeFlt n).config = s.config := by unfold State.changeFlt; dsimp only; split <;> simp
@[simp] theorem changeFlt_line (s : State) (n : Channel) : (s.changeFlt n).line = s.line := by unfold State.changeFlt; dsimp only; split <;> simp
@[simp] theorem changeFlt_round (s : State) (n : Channel) : (s.changeFlt n).round = s.round := by unfold State.changeFlt; dsimp only; split <;> simp
@[simp] theorem changeFlt_link (s : State) (n : Channel) : (s.changeFlt n).link = s.link := by unfold State.changeFlt; dsimp only; split <;> simp
@[simp] theorem changeFlt_roster (s : State) (n : Channel) : (s.changeFlt n).roster = s.roster := by unfold State.changeFlt; dsimp only; split <;> simp
@[simp] theorem changeFlt_ownReport (s : State) (n : Channel) : (s.changeFlt n).ownReport = s.ownReport := by unfold State.changeFlt; dsimp only; split <;> simp
@[simp] theorem changeFlt_trial (s : State) (n : Channel) : (s.changeFlt n).trial = s.trial := by unfold State.changeFlt; dsimp only; split <;> simp
@[simp] theorem changeFlt_lastOutcome (s : State) (n : Channel) : (s.changeFlt n).lastOutcome = s.lastOutcome := by unfold State.changeFlt; dsimp only; split <;> simp
@[simp] theorem changeFlt_seqCounter (s : State) (n : Channel) : (s.changeFlt n).seqCounter = s.seqCounter := by unfold State.changeFlt; dsimp only; split <;> simp
@[simp] theorem changeFlt_counters (s : State) (n : Channel) : (s.changeFlt n).counters = s.counters := by unfold State.changeFlt; dsimp only; split <;> simp
@[simp] theorem changeFlt_meas (s : State) (n : Channel) : (s.changeFlt n).meas = s.meas := by unfold State.changeFlt; dsimp only; split <;> simp
@[simp] theorem changeFlt_draw (s : State) (n : Channel) : (s.changeFlt n).draw = s.draw := by unfold State.changeFlt; dsimp only; split <;> simp
@[simp] theorem changeFlt_trim (s : State) (n : Channel) : (s.changeFlt n).trim = s.trim := by unfold State.changeFlt; dsimp only; split <;> simp
@[simp] theorem changeFlt_pwm (s : State) (n : Channel) : (s.changeFlt n).pwm = s.pwm := by unfold State.changeFlt; dsimp only; split <;> simp
@[simp] theorem changeFlt_brk (s : State) (n : Channel) : (s.changeFlt n).brk = s.brk := by unfold State.changeFlt; dsimp only; split <;> simp
@[simp] theorem changeFlt_log (s : State) (n : Channel) : (s.changeFlt n).log = s.log := by unfold State.changeFlt; dsimp only; split <;> simp
@[simp] theorem changeFlt_pending (s : State) (n : Channel) : (s.changeFlt n).pending = s.pending := by unfold State.changeFlt; dsimp only; split <;> simp
@[simp] theorem releaseChannel_now (s : State) (n : Channel) : (s.releaseChannel n).now = s.now := by unfold State.releaseChannel; split <;> rfl
@[simp] theorem releaseChannel_power (s : State) (n : Channel) : (s.releaseChannel n).power = s.power := by unfold State.releaseChannel; split <;> rfl
@[simp] theorem releaseChannel_pins (s : State) (n : Channel) : (s.releaseChannel n).pins = s.pins := by unfold State.releaseChannel; split <;> rfl
@[simp] theorem releaseChannel_station (s : State) (n : Channel) : (s.releaseChannel n).station = s.station := by unfold State.releaseChannel; split <;> rfl
@[simp] theorem releaseChannel_config (s : State) (n : Channel) : (s.releaseChannel n).config = s.config := by unfold State.releaseChannel; split <;> rfl
@[simp] theorem releaseChannel_line (s : State) (n : Channel) : (s.releaseChannel n).line = s.line := by unfold State.releaseChannel; split <;> rfl
@[simp] theorem releaseChannel_round (s : State) (n : Channel) : (s.releaseChannel n).round = s.round := by unfold State.releaseChannel; split <;> rfl
@[simp] theorem releaseChannel_link (s : State) (n : Channel) : (s.releaseChannel n).link = s.link := by unfold State.releaseChannel; split <;> rfl
@[simp] theorem releaseChannel_roster (s : State) (n : Channel) : (s.releaseChannel n).roster = s.roster := by unfold State.releaseChannel; split <;> rfl
@[simp] theorem releaseChannel_ownReport (s : State) (n : Channel) : (s.releaseChannel n).ownReport = s.ownReport := by unfold State.releaseChannel; split <;> rfl
@[simp] theorem releaseChannel_trial (s : State) (n : Channel) : (s.releaseChannel n).trial = s.trial := by unfold State.releaseChannel; split <;> rfl
@[simp] theorem releaseChannel_lastOutcome (s : State) (n : Channel) : (s.releaseChannel n).lastOutcome = s.lastOutcome := by unfold State.releaseChannel; split <;> rfl
@[simp] theorem releaseChannel_seqCounter (s : State) (n : Channel) : (s.releaseChannel n).seqCounter = s.seqCounter := by unfold State.releaseChannel; split <;> rfl
@[simp] theorem releaseChannel_inputs (s : State) (n : Channel) : (s.releaseChannel n).inputs = s.inputs := by unfold State.releaseChannel; split <;> rfl
@[simp] theorem releaseChannel_counters (s : State) (n : Channel) : (s.releaseChannel n).counters = s.counters := by unfold State.releaseChannel; split <;> rfl
@[simp] theorem releaseChannel_check (s : State) (n : Channel) : (s.releaseChannel n).check = s.check := by unfold State.releaseChannel; split <;> rfl
@[simp] theorem releaseChannel_draw (s : State) (n : Channel) : (s.releaseChannel n).draw = s.draw := by unfold State.releaseChannel; split <;> rfl
@[simp] theorem releaseChannel_trim (s : State) (n : Channel) : (s.releaseChannel n).trim = s.trim := by unfold State.releaseChannel; split <;> rfl
@[simp] theorem releaseChannel_pwm (s : State) (n : Channel) : (s.releaseChannel n).pwm = s.pwm := by unfold State.releaseChannel; split <;> rfl
@[simp] theorem releaseChannel_brk (s : State) (n : Channel) : (s.releaseChannel n).brk = s.brk := by unfold State.releaseChannel; split <;> rfl
@[simp] theorem releaseChannel_log (s : State) (n : Channel) : (s.releaseChannel n).log = s.log := by unfold State.releaseChannel; split <;> rfl
@[simp] theorem releaseChannel_port (s : State) (n : Channel) : (s.releaseChannel n).port = s.port := by unfold State.releaseChannel; split <;> rfl
@[simp] theorem releaseChannel_pending (s : State) (n : Channel) : (s.releaseChannel n).pending = s.pending := by unfold State.releaseChannel; split <;> rfl
@[simp] theorem latchBreak_now (s : State) : (s.latchBreak).now = s.now := by unfold State.latchBreak; split <;> simp
@[simp] theorem latchBreak_power (s : State) : (s.latchBreak).power = s.power := by unfold State.latchBreak; split <;> simp
@[simp] theorem latchBreak_pins (s : State) : (s.latchBreak).pins = s.pins := by unfold State.latchBreak; split <;> simp
@[simp] theorem latchBreak_station (s : State) : (s.latchBreak).station = s.station := by unfold State.latchBreak; split <;> simp
@[simp] theorem latchBreak_config (s : State) : (s.latchBreak).config = s.config := by unfold State.latchBreak; split <;> simp
@[simp] theorem latchBreak_line (s : State) : (s.latchBreak).line = s.line := by unfold State.latchBreak; split <;> simp
@[simp] theorem latchBreak_round (s : State) : (s.latchBreak).round = s.round := by unfold State.latchBreak; split <;> simp
@[simp] theorem latchBreak_link (s : State) : (s.latchBreak).link = s.link := by unfold State.latchBreak; split <;> simp
@[simp] theorem latchBreak_roster (s : State) : (s.latchBreak).roster = s.roster := by unfold State.latchBreak; split <;> simp
@[simp] theorem latchBreak_ownReport (s : State) : (s.latchBreak).ownReport = s.ownReport := by unfold State.latchBreak; split <;> simp
@[simp] theorem latchBreak_trial (s : State) : (s.latchBreak).trial = s.trial := by unfold State.latchBreak; split <;> simp
@[simp] theorem latchBreak_lastOutcome (s : State) : (s.latchBreak).lastOutcome = s.lastOutcome := by unfold State.latchBreak; split <;> simp
@[simp] theorem latchBreak_seqCounter (s : State) : (s.latchBreak).seqCounter = s.seqCounter := by unfold State.latchBreak; split <;> simp
@[simp] theorem latchBreak_inputs (s : State) : (s.latchBreak).inputs = s.inputs := by unfold State.latchBreak; split <;> simp
@[simp] theorem latchBreak_counters (s : State) : (s.latchBreak).counters = s.counters := by unfold State.latchBreak; split <;> simp
@[simp] theorem latchBreak_chans (s : State) : (s.latchBreak).chans = s.chans := by unfold State.latchBreak; split <;> simp
@[simp] theorem latchBreak_meas (s : State) : (s.latchBreak).meas = s.meas := by unfold State.latchBreak; split <;> simp
@[simp] theorem latchBreak_check (s : State) : (s.latchBreak).check = s.check := by unfold State.latchBreak; split <;> simp
@[simp] theorem latchBreak_draw (s : State) : (s.latchBreak).draw = s.draw := by unfold State.latchBreak; split <;> simp
@[simp] theorem latchBreak_pwm (s : State) : (s.latchBreak).pwm = s.pwm := by unfold State.latchBreak; split <;> simp
@[simp] theorem latchBreak_log (s : State) : (s.latchBreak).log = s.log := by unfold State.latchBreak; split <;> simp
@[simp] theorem latchBreak_pending (s : State) : (s.latchBreak).pending = s.pending := by unfold State.latchBreak; split <;> simp
@[simp] theorem changeBrk_now (s : State) : (s.changeBrk).now = s.now := by unfold State.changeBrk; dsimp only; split <;> simp
@[simp] theorem changeBrk_power (s : State) : (s.changeBrk).power = s.power := by unfold State.changeBrk; dsimp only; split <;> simp
@[simp] theorem changeBrk_pins (s : State) : (s.changeBrk).pins = s.pins := by unfold State.changeBrk; dsimp only; split <;> simp
@[simp] theorem changeBrk_station (s : State) : (s.changeBrk).station = s.station := by unfold State.changeBrk; dsimp only; split <;> simp
@[simp] theorem changeBrk_config (s : State) : (s.changeBrk).config = s.config := by unfold State.changeBrk; dsimp only; split <;> simp
@[simp] theorem changeBrk_line (s : State) : (s.changeBrk).line = s.line := by unfold State.changeBrk; dsimp only; split <;> simp
@[simp] theorem changeBrk_round (s : State) : (s.changeBrk).round = s.round := by unfold State.changeBrk; dsimp only; split <;> simp
@[simp] theorem changeBrk_link (s : State) : (s.changeBrk).link = s.link := by unfold State.changeBrk; dsimp only; split <;> simp
@[simp] theorem changeBrk_roster (s : State) : (s.changeBrk).roster = s.roster := by unfold State.changeBrk; dsimp only; split <;> simp
@[simp] theorem changeBrk_ownReport (s : State) : (s.changeBrk).ownReport = s.ownReport := by unfold State.changeBrk; dsimp only; split <;> simp
@[simp] theorem changeBrk_trial (s : State) : (s.changeBrk).trial = s.trial := by unfold State.changeBrk; dsimp only; split <;> simp
@[simp] theorem changeBrk_lastOutcome (s : State) : (s.changeBrk).lastOutcome = s.lastOutcome := by unfold State.changeBrk; dsimp only; split <;> simp
@[simp] theorem changeBrk_seqCounter (s : State) : (s.changeBrk).seqCounter = s.seqCounter := by unfold State.changeBrk; dsimp only; split <;> simp
@[simp] theorem changeBrk_counters (s : State) : (s.changeBrk).counters = s.counters := by unfold State.changeBrk; dsimp only; split <;> simp
@[simp] theorem changeBrk_chans (s : State) : (s.changeBrk).chans = s.chans := by unfold State.changeBrk; dsimp only; split <;> simp
@[simp] theorem changeBrk_meas (s : State) : (s.changeBrk).meas = s.meas := by unfold State.changeBrk; dsimp only; split <;> simp
@[simp] theorem changeBrk_check (s : State) : (s.changeBrk).check = s.check := by unfold State.changeBrk; dsimp only; split <;> simp
@[simp] theorem changeBrk_draw (s : State) : (s.changeBrk).draw = s.draw := by unfold State.changeBrk; dsimp only; split <;> simp
@[simp] theorem changeBrk_pwm (s : State) : (s.changeBrk).pwm = s.pwm := by unfold State.changeBrk; dsimp only; split <;> simp
@[simp] theorem changeBrk_log (s : State) : (s.changeBrk).log = s.log := by unfold State.changeBrk; dsimp only; split <;> simp
@[simp] theorem changeBrk_pending (s : State) : (s.changeBrk).pending = s.pending := by unfold State.changeBrk; dsimp only; split <;> simp
@[simp] theorem beginTransaction_now (s : State) : (s.beginTransaction).now = s.now := by unfold State.beginTransaction; split <;> simp
@[simp] theorem beginTransaction_power (s : State) : (s.beginTransaction).power = s.power := by unfold State.beginTransaction; split <;> simp
@[simp] theorem beginTransaction_pins (s : State) : (s.beginTransaction).pins = { s.pins with sckFalls := 0 } := by unfold State.beginTransaction; split <;> simp
@[simp] theorem beginTransaction_station (s : State) : (s.beginTransaction).station = s.station := by unfold State.beginTransaction; split <;> simp
@[simp] theorem beginTransaction_config (s : State) : (s.beginTransaction).config = s.config := by unfold State.beginTransaction; split <;> simp
@[simp] theorem beginTransaction_line (s : State) : (s.beginTransaction).line = s.line := by unfold State.beginTransaction; split <;> simp
@[simp] theorem beginTransaction_round (s : State) : (s.beginTransaction).round = s.round := by unfold State.beginTransaction; split <;> simp
@[simp] theorem beginTransaction_link (s : State) : (s.beginTransaction).link = s.link := by unfold State.beginTransaction; split <;> simp
@[simp] theorem beginTransaction_roster (s : State) : (s.beginTransaction).roster = s.roster := by unfold State.beginTransaction; split <;> simp
@[simp] theorem beginTransaction_ownReport (s : State) : (s.beginTransaction).ownReport = s.ownReport := by unfold State.beginTransaction; split <;> simp
@[simp] theorem beginTransaction_trial (s : State) : (s.beginTransaction).trial = s.trial := by unfold State.beginTransaction; split <;> simp
@[simp] theorem beginTransaction_lastOutcome (s : State) : (s.beginTransaction).lastOutcome = s.lastOutcome := by unfold State.beginTransaction; split <;> simp
@[simp] theorem beginTransaction_seqCounter (s : State) : (s.beginTransaction).seqCounter = s.seqCounter := by unfold State.beginTransaction; split <;> simp
@[simp] theorem beginTransaction_inputs (s : State) : (s.beginTransaction).inputs = s.inputs := by unfold State.beginTransaction; split <;> simp
@[simp] theorem beginTransaction_counters (s : State) : (s.beginTransaction).counters = s.counters := by unfold State.beginTransaction; split <;> simp
@[simp] theorem beginTransaction_chans (s : State) : (s.beginTransaction).chans = s.chans := by unfold State.beginTransaction; split <;> simp
@[simp] theorem beginTransaction_meas (s : State) : (s.beginTransaction).meas = s.meas := by unfold State.beginTransaction; split <;> simp
@[simp] theorem beginTransaction_check (s : State) : (s.beginTransaction).check = s.check := by unfold State.beginTransaction; split <;> simp
@[simp] theorem beginTransaction_draw (s : State) : (s.beginTransaction).draw = s.draw := by unfold State.beginTransaction; split <;> simp
@[simp] theorem beginTransaction_trim (s : State) : (s.beginTransaction).trim = s.trim := by unfold State.beginTransaction; split <;> simp
@[simp] theorem beginTransaction_pwm (s : State) : (s.beginTransaction).pwm = s.pwm := by unfold State.beginTransaction; split <;> simp
@[simp] theorem beginTransaction_brk (s : State) : (s.beginTransaction).brk = s.brk := by unfold State.beginTransaction; split <;> simp
@[simp] theorem beginTransaction_log (s : State) : (s.beginTransaction).log = s.log := by unfold State.beginTransaction; split <;> simp
@[simp] theorem beginTransaction_pending (s : State) : (s.beginTransaction).pending = s.pending := by unfold State.beginTransaction; split <;> simp
@[simp] theorem selFalls_now (s : State) : (s.selFalls).now = s.now := by
  unfold State.selFalls State.live; dsimp only; repeat' split
  all_goals simp
@[simp] theorem selFalls_power (s : State) : (s.selFalls).power = s.power := by
  unfold State.selFalls State.live; dsimp only; repeat' split
  all_goals simp
@[simp] theorem selFalls_pins_straps (s : State) : (s.selFalls).pins.straps = s.pins.straps := by
  unfold State.selFalls State.live; dsimp only; repeat' split
  all_goals simp
@[simp] theorem selFalls_pins_spd (s : State) : (s.selFalls).pins.spd = s.pins.spd := by
  unfold State.selFalls State.live; dsimp only; repeat' split
  all_goals simp
@[simp] theorem selFalls_pins_dir (s : State) : (s.selFalls).pins.dir = s.pins.dir := by
  unfold State.selFalls State.live; dsimp only; repeat' split
  all_goals simp
@[simp] theorem selFalls_pins_ldf (s : State) : (s.selFalls).pins.ldf = s.pins.ldf := by
  unfold State.selFalls State.live; dsimp only; repeat' split
  all_goals simp
@[simp] theorem selFalls_pins_idx (s : State) : (s.selFalls).pins.idx = s.pins.idx := by
  unfold State.selFalls State.live; dsimp only; repeat' split
  all_goals simp
@[simp] theorem selFalls_pins_rdy (s : State) : (s.selFalls).pins.rdy = s.pins.rdy := by
  unfold State.selFalls State.live; dsimp only; repeat' split
  all_goals simp
@[simp] theorem selFalls_pins_flt (s : State) : (s.selFalls).pins.flt = s.pins.flt := by
  unfold State.selFalls State.live; dsimp only; repeat' split
  all_goals simp
@[simp] theorem selFalls_pins_brk (s : State) : (s.selFalls).pins.brk = s.pins.brk := by
  unfold State.selFalls State.live; dsimp only; repeat' split
  all_goals simp
@[simp] theorem selFalls_station (s : State) : (s.selFalls).station = s.station := by
  unfold State.selFalls State.live; dsimp only; repeat' split
  all_goals simp
@[simp] theorem selFalls_config (s : State) : (s.selFalls).config = s.config := by
  unfold State.selFalls State.live; dsimp only; repeat' split
  all_goals simp
@[simp] theorem selFalls_line (s : State) : (s.selFalls).line = s.line := by
  unfold State.selFalls State.live; dsimp only; repeat' split
  all_goals simp
@[simp] theorem selFalls_round (s : State) : (s.selFalls).round = s.round := by
  unfold State.selFalls State.live; dsimp only; repeat' split
  all_goals simp
@[simp] theorem selFalls_link (s : State) : (s.selFalls).link = s.link := by
  unfold State.selFalls State.live; dsimp only; repeat' split
  all_goals simp
@[simp] theorem selFalls_roster (s : State) : (s.selFalls).roster = s.roster := by
  unfold State.selFalls State.live; dsimp only; repeat' split
  all_goals simp
@[simp] theorem selFalls_ownReport (s : State) : (s.selFalls).ownReport = s.ownReport := by
  unfold State.selFalls State.live; dsimp only; repeat' split
  all_goals simp
@[simp] theorem selFalls_trial (s : State) : (s.selFalls).trial = s.trial := by
  unfold State.selFalls State.live; dsimp only; repeat' split
  all_goals simp
@[simp] theorem selFalls_lastOutcome (s : State) : (s.selFalls).lastOutcome = s.lastOutcome := by
  unfold State.selFalls State.live; dsimp only; repeat' split
  all_goals simp
@[simp] theorem selFalls_seqCounter (s : State) : (s.selFalls).seqCounter = s.seqCounter := by
  unfold State.selFalls State.live; dsimp only; repeat' split
  all_goals simp
@[simp] theorem selFalls_inputs (s : State) : (s.selFalls).inputs = s.inputs := by
  unfold State.selFalls State.live; dsimp only; repeat' split
  all_goals simp
@[simp] theorem selFalls_counters (s : State) : (s.selFalls).counters = s.counters := by
  unfold State.selFalls State.live; dsimp only; repeat' split
  all_goals simp
@[simp] theorem selFalls_chans (s : State) : (s.selFalls).chans = s.chans := by
  unfold State.selFalls State.live; dsimp only; repeat' split
  all_goals simp
@[simp] theorem selFalls_meas (s : State) : (s.selFalls).meas = s.meas := by
  unfold State.selFalls State.live; dsimp only; repeat' split
  all_goals simp
@[simp] theorem selFalls_check (s : State) : (s.selFalls).check = s.check := by
  unfold State.selFalls State.live; dsimp only; repeat' split
  all_goals simp
@[simp] theorem selFalls_draw (s : State) : (s.selFalls).draw = s.draw := by
  unfold State.selFalls State.live; dsimp only; repeat' split
  all_goals simp
@[simp] theorem selFalls_trim (s : State) : (s.selFalls).trim = s.trim := by
  unfold State.selFalls State.live; dsimp only; repeat' split
  all_goals simp
@[simp] theorem selFalls_pwm (s : State) : (s.selFalls).pwm = s.pwm := by
  unfold State.selFalls State.live; dsimp only; repeat' split
  all_goals simp
@[simp] theorem selFalls_brk (s : State) : (s.selFalls).brk = s.brk := by
  unfold State.selFalls State.live; dsimp only; repeat' split
  all_goals simp
@[simp] theorem selFalls_log (s : State) : (s.selFalls).log = s.log := by
  unfold State.selFalls State.live; dsimp only; repeat' split
  all_goals simp
@[simp] theorem selFalls_pending (s : State) : (s.selFalls).pending = s.pending := by
  unfold State.selFalls State.live; dsimp only; repeat' split
  all_goals simp
@[simp] theorem settleReadout_now (s : State) (k : Nat) : (s.settleReadout k).now = s.now := by
  unfold State.settleReadout; repeat' split
  all_goals simp
@[simp] theorem settleReadout_power (s : State) (k : Nat) : (s.settleReadout k).power = s.power := by
  unfold State.settleReadout; repeat' split
  all_goals simp
@[simp] theorem settleReadout_pins (s : State) (k : Nat) : (s.settleReadout k).pins = s.pins := by
  unfold State.settleReadout; repeat' split
  all_goals simp
@[simp] theorem settleReadout_station (s : State) (k : Nat) : (s.settleReadout k).station = s.station := by
  unfold State.settleReadout; repeat' split
  all_goals simp
@[simp] theorem settleReadout_config (s : State) (k : Nat) : (s.settleReadout k).config = s.config := by
  unfold State.settleReadout; repeat' split
  all_goals simp
@[simp] theorem settleReadout_line (s : State) (k : Nat) : (s.settleReadout k).line = s.line := by
  unfold State.settleReadout; repeat' split
  all_goals simp
@[simp] theorem settleReadout_round (s : State) (k : Nat) : (s.settleReadout k).round = s.round := by
  unfold State.settleReadout; repeat' split
  all_goals simp
@[simp] theorem settleReadout_link (s : State) (k : Nat) : (s.settleReadout k).link = s.link := by
  unfold State.settleReadout; repeat' split
  all_goals simp
@[simp] theorem settleReadout_roster (s : State) (k : Nat) : (s.settleReadout k).roster = s.roster := by
  unfold State.settleReadout; repeat' split
  all_goals simp
@[simp] theorem settleReadout_ownReport (s : State) (k : Nat) : (s.settleReadout k).ownReport = s.ownReport := by
  unfold State.settleReadout; repeat' split
  all_goals simp
@[simp] theorem settleReadout_trial (s : State) (k : Nat) : (s.settleReadout k).trial = s.trial := by
  unfold State.settleReadout; repeat' split
  all_goals simp
@[simp] theorem settleReadout_lastOutcome (s : State) (k : Nat) : (s.settleReadout k).lastOutcome = s.lastOutcome := by
  unfold State.settleReadout; repeat' split
  all_goals simp
@[simp] theorem settleReadout_seqCounter (s : State) (k : Nat) : (s.settleReadout k).seqCounter = s.seqCounter := by
  unfold State.settleReadout; repeat' split
  all_goals simp
@[simp] theorem settleReadout_inputs (s : State) (k : Nat) : (s.settleReadout k).inputs = s.inputs := by
  unfold State.settleReadout; repeat' split
  all_goals simp
@[simp] theorem settleReadout_counters (s : State) (k : Nat) : (s.settleReadout k).counters = s.counters := by
  unfold State.settleReadout; repeat' split
  all_goals simp
@[simp] theorem settleReadout_chans (s : State) (k : Nat) : (s.settleReadout k).chans = s.chans := by
  unfold State.settleReadout; repeat' split
  all_goals simp
@[simp] theorem settleReadout_meas (s : State) (k : Nat) : (s.settleReadout k).meas = s.meas := by
  unfold State.settleReadout; repeat' split
  all_goals simp
@[simp] theorem settleReadout_check (s : State) (k : Nat) : (s.settleReadout k).check = s.check := by
  unfold State.settleReadout; repeat' split
  all_goals simp
@[simp] theorem settleReadout_draw (s : State) (k : Nat) : (s.settleReadout k).draw = s.draw := by
  unfold State.settleReadout; repeat' split
  all_goals simp
@[simp] theorem settleReadout_trim (s : State) (k : Nat) : (s.settleReadout k).trim = s.trim := by
  unfold State.settleReadout; repeat' split
  all_goals simp
@[simp] theorem settleReadout_pwm (s : State) (k : Nat) : (s.settleReadout k).pwm = s.pwm := by
  unfold State.settleReadout; repeat' split
  all_goals simp
@[simp] theorem settleReadout_brk (s : State) (k : Nat) : (s.settleReadout k).brk = s.brk := by
  unfold State.settleReadout; repeat' split
  all_goals simp
@[simp] theorem settleReadout_port (s : State) (k : Nat) : (s.settleReadout k).port = s.port := by
  unfold State.settleReadout; repeat' split
  all_goals simp
@[simp] theorem settleReadout_pending (s : State) (k : Nat) : (s.settleReadout k).pending = s.pending := by
  unfold State.settleReadout; repeat' split
  all_goals simp
@[simp] theorem takeRequest_now (s : State) (l : List Byte) : (s.takeRequest l).now = s.now := by unfold State.takeRequest; split <;> rfl
@[simp] theorem takeRequest_power (s : State) (l : List Byte) : (s.takeRequest l).power = s.power := by unfold State.takeRequest; split <;> rfl
@[simp] theorem takeRequest_pins (s : State) (l : List Byte) : (s.takeRequest l).pins = s.pins := by unfold State.takeRequest; split <;> rfl
@[simp] theorem takeRequest_station (s : State) (l : List Byte) : (s.takeRequest l).station = s.station := by unfold State.takeRequest; split <;> rfl
@[simp] theorem takeRequest_config (s : State) (l : List Byte) : (s.takeRequest l).config = s.config := by unfold State.takeRequest; split <;> rfl
@[simp] theorem takeRequest_line (s : State) (l : List Byte) : (s.takeRequest l).line = s.line := by unfold State.takeRequest; split <;> rfl
@[simp] theorem takeRequest_round (s : State) (l : List Byte) : (s.takeRequest l).round = s.round := by unfold State.takeRequest; split <;> rfl
@[simp] theorem takeRequest_link (s : State) (l : List Byte) : (s.takeRequest l).link = s.link := by unfold State.takeRequest; split <;> rfl
@[simp] theorem takeRequest_roster (s : State) (l : List Byte) : (s.takeRequest l).roster = s.roster := by unfold State.takeRequest; split <;> rfl
@[simp] theorem takeRequest_ownReport (s : State) (l : List Byte) : (s.takeRequest l).ownReport = s.ownReport := by unfold State.takeRequest; split <;> rfl
@[simp] theorem takeRequest_trial (s : State) (l : List Byte) : (s.takeRequest l).trial = s.trial := by unfold State.takeRequest; split <;> rfl
@[simp] theorem takeRequest_lastOutcome (s : State) (l : List Byte) : (s.takeRequest l).lastOutcome = s.lastOutcome := by unfold State.takeRequest; split <;> rfl
@[simp] theorem takeRequest_seqCounter (s : State) (l : List Byte) : (s.takeRequest l).seqCounter = s.seqCounter := by unfold State.takeRequest; split <;> rfl
@[simp] theorem takeRequest_inputs (s : State) (l : List Byte) : (s.takeRequest l).inputs = s.inputs := by unfold State.takeRequest; split <;> rfl
@[simp] theorem takeRequest_counters (s : State) (l : List Byte) : (s.takeRequest l).counters = s.counters := by unfold State.takeRequest; split <;> rfl
@[simp] theorem takeRequest_chans (s : State) (l : List Byte) : (s.takeRequest l).chans = s.chans := by unfold State.takeRequest; split <;> rfl
@[simp] theorem takeRequest_meas (s : State) (l : List Byte) : (s.takeRequest l).meas = s.meas := by unfold State.takeRequest; split <;> rfl
@[simp] theorem takeRequest_check (s : State) (l : List Byte) : (s.takeRequest l).check = s.check := by unfold State.takeRequest; split <;> rfl
@[simp] theorem takeRequest_draw (s : State) (l : List Byte) : (s.takeRequest l).draw = s.draw := by unfold State.takeRequest; split <;> rfl
@[simp] theorem takeRequest_trim (s : State) (l : List Byte) : (s.takeRequest l).trim = s.trim := by unfold State.takeRequest; split <;> rfl
@[simp] theorem takeRequest_pwm (s : State) (l : List Byte) : (s.takeRequest l).pwm = s.pwm := by unfold State.takeRequest; split <;> rfl
@[simp] theorem takeRequest_brk (s : State) (l : List Byte) : (s.takeRequest l).brk = s.brk := by unfold State.takeRequest; split <;> rfl
@[simp] theorem takeRequest_log (s : State) (l : List Byte) : (s.takeRequest l).log = s.log := by unfold State.takeRequest; split <;> rfl
@[simp] theorem takeRequest_pending (s : State) (l : List Byte) : (s.takeRequest l).pending = s.pending := by unfold State.takeRequest; split <;> rfl
@[simp] theorem selRises_now (s : State) (l : List Bool) : (s.selRises l).now = s.now := by
  unfold State.selRises; dsimp only; repeat' split
  all_goals simp
@[simp] theorem selRises_power (s : State) (l : List Bool) : (s.selRises l).power = s.power := by
  unfold State.selRises; dsimp only; repeat' split
  all_goals simp
@[simp] theorem selRises_pins (s : State) (l : List Bool) : (s.selRises l).pins = s.pins := by
  unfold State.selRises; dsimp only; repeat' split
  all_goals simp
@[simp] theorem selRises_station (s : State) (l : List Bool) : (s.selRises l).station = s.station := by
  unfold State.selRises; dsimp only; repeat' split
  all_goals simp
@[simp] theorem selRises_config (s : State) (l : List Bool) : (s.selRises l).config = s.config := by
  unfold State.selRises; dsimp only; repeat' split
  all_goals simp
@[simp] theorem selRises_line (s : State) (l : List Bool) : (s.selRises l).line = s.line := by
  unfold State.selRises; dsimp only; repeat' split
  all_goals simp
@[simp] theorem selRises_round (s : State) (l : List Bool) : (s.selRises l).round = s.round := by
  unfold State.selRises; dsimp only; repeat' split
  all_goals simp
@[simp] theorem selRises_link (s : State) (l : List Bool) : (s.selRises l).link = s.link := by
  unfold State.selRises; dsimp only; repeat' split
  all_goals simp
@[simp] theorem selRises_roster (s : State) (l : List Bool) : (s.selRises l).roster = s.roster := by
  unfold State.selRises; dsimp only; repeat' split
  all_goals simp
@[simp] theorem selRises_ownReport (s : State) (l : List Bool) : (s.selRises l).ownReport = s.ownReport := by
  unfold State.selRises; dsimp only; repeat' split
  all_goals simp
@[simp] theorem selRises_trial (s : State) (l : List Bool) : (s.selRises l).trial = s.trial := by
  unfold State.selRises; dsimp only; repeat' split
  all_goals simp
@[simp] theorem selRises_lastOutcome (s : State) (l : List Bool) : (s.selRises l).lastOutcome = s.lastOutcome := by
  unfold State.selRises; dsimp only; repeat' split
  all_goals simp
@[simp] theorem selRises_seqCounter (s : State) (l : List Bool) : (s.selRises l).seqCounter = s.seqCounter := by
  unfold State.selRises; dsimp only; repeat' split
  all_goals simp
@[simp] theorem selRises_inputs (s : State) (l : List Bool) : (s.selRises l).inputs = s.inputs := by
  unfold State.selRises; dsimp only; repeat' split
  all_goals simp
@[simp] theorem selRises_counters (s : State) (l : List Bool) : (s.selRises l).counters = s.counters := by
  unfold State.selRises; dsimp only; repeat' split
  all_goals simp
@[simp] theorem selRises_chans (s : State) (l : List Bool) : (s.selRises l).chans = s.chans := by
  unfold State.selRises; dsimp only; repeat' split
  all_goals simp
@[simp] theorem selRises_meas (s : State) (l : List Bool) : (s.selRises l).meas = s.meas := by
  unfold State.selRises; dsimp only; repeat' split
  all_goals simp
@[simp] theorem selRises_check (s : State) (l : List Bool) : (s.selRises l).check = s.check := by
  unfold State.selRises; dsimp only; repeat' split
  all_goals simp
@[simp] theorem selRises_draw (s : State) (l : List Bool) : (s.selRises l).draw = s.draw := by
  unfold State.selRises; dsimp only; repeat' split
  all_goals simp
@[simp] theorem selRises_trim (s : State) (l : List Bool) : (s.selRises l).trim = s.trim := by
  unfold State.selRises; dsimp only; repeat' split
  all_goals simp
@[simp] theorem selRises_pwm (s : State) (l : List Bool) : (s.selRises l).pwm = s.pwm := by
  unfold State.selRises; dsimp only; repeat' split
  all_goals simp
@[simp] theorem selRises_brk (s : State) (l : List Bool) : (s.selRises l).brk = s.brk := by
  unfold State.selRises; dsimp only; repeat' split
  all_goals simp
@[simp] theorem selRises_pending (s : State) (l : List Bool) : (s.selRises l).pending = s.pending := by
  unfold State.selRises; dsimp only; repeat' split
  all_goals simp
@[simp] theorem endHighTime_now (s : State) (o : PwmOutput) : (s.endHighTime o).now = s.now := by cases o <;> rfl
@[simp] theorem endHighTime_power (s : State) (o : PwmOutput) : (s.endHighTime o).power = s.power := by cases o <;> rfl
@[simp] theorem endHighTime_pins (s : State) (o : PwmOutput) : (s.endHighTime o).pins = s.pins := by cases o <;> rfl
@[simp] theorem endHighTime_station (s : State) (o : PwmOutput) : (s.endHighTime o).station = s.station := by cases o <;> rfl
@[simp] theorem endHighTime_config (s : State) (o : PwmOutput) : (s.endHighTime o).config = s.config := by cases o <;> rfl
@[simp] theorem endHighTime_line (s : State) (o : PwmOutput) : (s.endHighTime o).line = s.line := by cases o <;> rfl
@[simp] theorem endHighTime_round (s : State) (o : PwmOutput) : (s.endHighTime o).round = s.round := by cases o <;> rfl
@[simp] theorem endHighTime_link (s : State) (o : PwmOutput) : (s.endHighTime o).link = s.link := by cases o <;> rfl
@[simp] theorem endHighTime_roster (s : State) (o : PwmOutput) : (s.endHighTime o).roster = s.roster := by cases o <;> rfl
@[simp] theorem endHighTime_ownReport (s : State) (o : PwmOutput) : (s.endHighTime o).ownReport = s.ownReport := by cases o <;> rfl
@[simp] theorem endHighTime_trial (s : State) (o : PwmOutput) : (s.endHighTime o).trial = s.trial := by cases o <;> rfl
@[simp] theorem endHighTime_lastOutcome (s : State) (o : PwmOutput) : (s.endHighTime o).lastOutcome = s.lastOutcome := by cases o <;> rfl
@[simp] theorem endHighTime_seqCounter (s : State) (o : PwmOutput) : (s.endHighTime o).seqCounter = s.seqCounter := by cases o <;> rfl
@[simp] theorem endHighTime_inputs (s : State) (o : PwmOutput) : (s.endHighTime o).inputs = s.inputs := by cases o <;> rfl
@[simp] theorem endHighTime_counters (s : State) (o : PwmOutput) : (s.endHighTime o).counters = s.counters := by cases o <;> rfl
@[simp] theorem endHighTime_chans (s : State) (o : PwmOutput) : (s.endHighTime o).chans = s.chans := by cases o <;> rfl
@[simp] theorem endHighTime_meas (s : State) (o : PwmOutput) : (s.endHighTime o).meas = s.meas := by cases o <;> rfl
@[simp] theorem endHighTime_check (s : State) (o : PwmOutput) : (s.endHighTime o).check = s.check := by cases o <;> rfl
@[simp] theorem endHighTime_draw (s : State) (o : PwmOutput) : (s.endHighTime o).draw = s.draw := by cases o <;> rfl
@[simp] theorem endHighTime_trim (s : State) (o : PwmOutput) : (s.endHighTime o).trim = s.trim := by cases o <;> rfl
@[simp] theorem endHighTime_brk (s : State) (o : PwmOutput) : (s.endHighTime o).brk = s.brk := by cases o <;> rfl
@[simp] theorem endHighTime_log (s : State) (o : PwmOutput) : (s.endHighTime o).log = s.log := by cases o <;> rfl
@[simp] theorem endHighTime_port (s : State) (o : PwmOutput) : (s.endHighTime o).port = s.port := by cases o <;> rfl
@[simp] theorem endHighTime_pending (s : State) (o : PwmOutput) : (s.endHighTime o).pending = s.pending := by cases o <;> rfl
@[simp] theorem maybeEndReset_now (s : State) (p : BitVec 4) : (s.maybeEndReset p).now = s.now := by unfold State.maybeEndReset; split <;> simp
@[simp] theorem maybeEndReset_power (s : State) (p : BitVec 4) : (s.maybeEndReset p).power = s.power := by unfold State.maybeEndReset; split <;> simp
@[simp] theorem maybeEndReset_pending (s : State) (p : BitVec 4) : (s.maybeEndReset p).pending = s.pending := by unfold State.maybeEndReset; split <;> simp

end Sys2Proof.Machine
end

