-- ==== Sys2Proof/Laws/Spec.lean ====
section
/-! SUPPORT. What each shared operation can do, said once: a command, the execution of a request, the ramp, the split, the
alarms, the log, the roster, the events, the fast filters' looks, the settling of a frame attempt and the characters that
join it, and what a round boundary always leaves. -/

namespace Sys2Proof.Machine

set_option Elab.async false

/-! ### Commands and requests -/

/-- A command always answers a next state. -/
theorem command_next (after : Wait) (f : State → State) (s : State) :
    command after f s = .next (f (s.advance after)) := rfl

/-- A request that is taken is in execution. -/
theorem executing_of_takes {s : State} {q : Request} {p : List Byte} (h : s.takes q p) :
    s.executing q.code = true := by
  obtain ⟨h1, h2, h3, -, -⟩ := h
  simp [State.executing, h1, h2, h3]

/-- A request that is taken does its work and answers. -/
theorem execution_of_takes {s : State} {q : Request} {p : List Byte} (work : List Byte → State → State × Response)
    (h : s.takes q p) : execution q work s = (work p s).1.answer (work p s).2 := by
  have he := executing_of_takes h
  obtain ⟨-, -, h3, h4, h5⟩ := h
  simp [execution, he, h3, h5, Nat.not_lt.mpr h4]

/-- The execution of a request that is not the one in execution changes nothing. -/
theorem execution_of_not_executing {s : State} {q : Request} (work : List Byte → State → State × Response)
    (h : s.executing q.code = false) : execution q work s = s := by simp [execution, h]

/-- A request with too few parameters is answered BAD_LENGTH. -/
theorem execution_badLength {s : State} {q : Request} {p : List Byte} (work : List Byte → State → State × Response)
    (h1 : s.running = true) (h2 : s.port.srdy = false) (h3 : s.port.request = q.code :: p) (h4 : p.length < q.paramLength) :
    execution q work s = s.answer { status := .badLength, body := [], readLog := false } := by
  simp [execution, State.executing, h1, h2, h3, h4]

/-- A request in a link state in which it is not available is answered so. -/
theorem execution_notAvailable {s : State} {q : Request} {p : List Byte} (work : List Byte → State → State × Response)
    (h1 : s.running = true) (h2 : s.port.srdy = false) (h3 : s.port.request = q.code :: p)
    (h4 : q.paramLength ≤ p.length) (h5 : q.availableIn s.link.state = false) :
    execution q work s
      = s.answer { status := .notAvailable, body := [s.link.state.code], readLog := false } := by
  simp [execution, State.executing, h1, h2, h3, Nat.not_lt.mpr h4, h5]

/-- Everything that the execution of a request can do: nothing, an answer, or its work and the work's answer. -/
theorem execution_cases (q : Request) (work : List Byte → State → State × Response) (s : State) :
    execution q work s = s ∨ (∃ r, execution q work s = s.answer r)
      ∨ ∃ p, s.takes q p ∧ execution q work s = (work p s).1.answer (work p s).2 := by
  unfold execution
  split
  · rename_i he
    dsimp only
    split
    · exact Or.inr (Or.inl ⟨_, rfl⟩)
    · split
      · exact Or.inr (Or.inl ⟨_, rfl⟩)
      · rename_i h4 h5
        refine Or.inr (Or.inr ⟨s.port.request.drop 1, ?_, rfl⟩)
        simp only [State.executing, Bool.and_eq_true, Bool.not_eq_true', decide_eq_true_eq] at he
        obtain ⟨⟨h1, h2⟩, h3⟩ := he
        refine ⟨h1, h2, ?_, Nat.le_of_not_lt h4, by simpa using h5⟩
        cases hr : s.port.request with
        | nil => simp [hr] at h3
        | cons c rest => simp [hr] at h3; simp [h3]
  · exact Or.inl rfl

/-! ### The roster -/

theorem entry_replicate_cleared (u : Station) : (List.replicate 16 Entry.cleared).getD u.val Entry.cleared = Entry.cleared := by
  fin_cases u <;> rfl

/-- An entry that is written reads back, and no other changes. -/
theorem entry_setEntry {s : State} (t u : Station) (e : Entry) (h : s.roster.length = 16) :
    (s.setEntry t e).entry u = if u = t then e else s.entry u := by
  simp only [State.setEntry, State.entry, List.getD_eq_getElem?_getD]
  by_cases hu : u = t
  · subst hu; simp [h]
  · have : t.val ≠ u.val := fun hh => hu (Fin.ext hh.symm)
    simp [hu, this]

@[simp] theorem length_setEntry (s : State) (t : Station) (e : Entry) : (s.setEntry t e).roster.length = s.roster.length := by
  simp [State.setEntry]

/-- Two states with one roster have the same entries. -/
theorem entry_congr {s t : State} (h : s.roster = t.roster) (u : Station) : s.entry u = t.entry u := by
  simp [State.entry, h]

@[simp] theorem entry_clearRoster (s : State) (u : Station) : s.clearRoster.entry u = Entry.cleared := by
  simp only [State.entry, State.clearRoster, raiseIf_roster]; exact entry_replicate_cleared u

@[simp] theorem entry_enterStandby (s : State) (u : Station) : s.enterStandby.entry u = Entry.cleared := by
  simp [State.enterStandby]

@[simp] theorem entry_completeLeave (s : State) (u : Station) : s.completeLeave.entry u = Entry.cleared := by
  rw [State.completeLeave, entry_congr (raise_roster _ _)]; simp

/-- An aged roster, entry by entry. -/
theorem agedRoster_entry (s : State) (u : Station) :
    s.agedRoster.getD u.val Entry.cleared = if u = s.station then s.entry u else (s.entry u).aged := by
  have h : ∀ f : Station → Entry, (stations.map f).getD u.val Entry.cleared = f u := by
    intro f; fin_cases u <;> rfl
  rw [State.agedRoster, h]

@[simp] theorem length_agedRoster (s : State) : s.agedRoster.length = 16 := rfl

/-! ### The four things of a Quad -/

@[simp] theorem Quad.get_ofFn {α : Type} (f : Channel → α) (n : Channel) : (Quad.ofFn f).get n = f n := by
  fin_cases n <;> rfl

@[simp] theorem Quad.get_all {α : Type} (a : α) (n : Channel) : (Quad.all a).get n = a := by
  fin_cases n <;> rfl

theorem Quad.get_set {α : Type} (q : Quad α) (m n : Channel) (a : α) :
    (q.set m a).get n = if n = m then a else q.get n := by
  fin_cases m <;> fin_cases n <;> rfl

@[simp] theorem Quad.get_set_self {α : Type} (q : Quad α) (n : Channel) (a : α) : (q.set n a).get n = a := by
  fin_cases n <;> rfl

@[simp] theorem Quad.set_get_self {α : Type} (q : Quad α) (n : Channel) : q.set n (q.get n) = q := by
  fin_cases n <;> rfl

/-! ### Ramp, split, alarm -/

/-- A ramp never leaves the interval between the value and its target. -/
theorem rampToward_between (limit : Nat) (target applied : Int) :
    min target applied ≤ rampToward limit target applied ∧ rampToward limit target applied ≤ max target applied := by
  unfold rampToward; split
  · omega
  · split <;> omega

/-- A ramp keeps a magnitude that both its ends keep. -/
theorem rampToward_natAbs {limit L : Nat} {target applied : Int} (h : target.natAbs ≤ L) (k : applied.natAbs ≤ L) :
    (rampToward limit target applied).natAbs ≤ L := by
  have := rampToward_between limit target applied; omega

/-! ### The log -/

/-- What appending a record can do to the log. -/
theorem appendRecord_log (s : State) (t : RecordType) (i : TrialId) (m : Sample) (o : TrialOutcome) (c : Byte) (g : Station) :
    (s.appendRecord t i m o c g).log
      = if s.log.records.length < Config.logCapacity then
          { s.log with
            records := s.log.records
              ++ [{ seq := s.log.counter, type := t, id := i, sample := m, outcome := o, cause := c, origin := g }]
            counter := s.log.counter + 1 }
        else s.log := by
  unfold State.appendRecord; split <;> rfl

/-! ### Events -/

/-- A raised event's flag is set. -/
@[simp] theorem hasEvent_raise (s : State) (e : Event) : (s.raise e).hasEvent e = true := by
  have h : e.bit < 16 := by cases e <;> decide
  simp [State.hasEvent, State.raise, Event.flag, h]

/-- Raising an event leaves every set flag set. -/
theorem hasEvent_raise_of (s : State) (e f : Event) (h : s.hasEvent f = true) : (s.raise e).hasEvent f = true := by
  simp only [State.hasEvent] at h
  simp [State.hasEvent, State.raise, h]

/-- Two states with one port have the same flags. -/
theorem hasEvent_congr {s t : State} (h : t.port = s.port) (e : Event) : t.hasEvent e = s.hasEvent e := by
  simp [State.hasEvent, h]

/-- Raising an event leaves the flag of every other as it was. -/
theorem hasEvent_raise_of_ne (s : State) {e f : Event} (h : e ≠ f) : (s.raise e).hasEvent f = s.hasEvent f := by
  have hb : e.bit ≠ f.bit := by cases e <;> cases f <;> first | decide | exact absurd rfl h
  have key : (BitVec.twoPow 16 e.bit).getLsbD f.bit = false := by
    rw [BitVec.getLsbD_twoPow]; simp [hb]
  simp [State.hasEvent, State.raise, Event.flag, key]

/-- The same where it is raised under a condition. -/
theorem hasEvent_raiseIf_of_ne (s : State) (p : Bool) {e f : Event} (h : e ≠ f) :
    (s.raiseIf p e).hasEvent f = s.hasEvent f := by
  unfold State.raiseIf; split
  · exact hasEvent_raise_of_ne s h
  · rfl

/-! ### The fast filters' looks -/

/-- No look changes nothing. -/
@[simp] theorem looks_zero (f : FastFilter) (w : Nat) (raw : Bool) : f.looks w 0 raw = f := by
  simp [FastFilter.looks]

/-- `looks` is `look`, once for each microsecond. -/
theorem looks_succ (f : FastFilter) (w k : Nat) (raw : Bool) :
    f.looks w (k + 1) raw = (f.look w raw).looks w k raw := by
  obtain ⟨level, differs, held⟩ := f
  cases held <;> cases raw <;> cases level <;>
    simp only [FastFilter.looks, FastFilter.look, FastFilter.taken] <;>
    by_cases h : w < differs <;> by_cases h' : w < differs + 1 <;> by_cases hk : k = 0 <;> simp [h, h', hk] <;> omega

/-! ### Attempts whose window has closed -/

/-- Settling leaves the state as it is, or cuts an attempt whose window has closed and that nothing can complete. -/
theorem settleAttempt_cases (s : State) :
    s.settleAttempt = s ∨ ∃ a, s.line.attempt = some a ∧ a.slot.val < s.round.slotsClosed ∧ s.awaitsLast a = false
      ∧ s.settleAttempt = s.cutAttempt a := by
  unfold State.settleAttempt
  split
  · exact .inl rfl
  · rename_i a ha
    split
    · rename_i h
      simp only [Bool.and_eq_true, decide_eq_true_eq, Bool.not_eq_true'] at h
      exact .inr ⟨a, ha, h.1, h.2, rfl⟩
    · exact .inl rfl

/-- An attempt whose window is still open is left alone. -/
theorem settleAttempt_of_open {s : State} (h : ∀ a, s.line.attempt = some a → s.round.slotsClosed ≤ a.slot.val) :
    s.settleAttempt = s := by
  rcases settleAttempt_cases s with e | ⟨a, ha, hk, -, -⟩
  · exact e
  · exact absurd hk (Nat.not_lt.mpr (h a ha))

/-- Where every attempt's window is still open, nothing but time passes before a command. -/
theorem advance_of_open {s : State} (d : Wait) (h : ∀ a, s.line.attempt = some a → s.round.slotsClosed ≤ a.slot.val) :
    s.advance d = s.elapse d := settleAttempt_of_open (s := s.elapse d) h

/-- Before a command time passes, and with it an attempt may be cut. -/
theorem advance_cases (s : State) (d : Wait) :
    s.advance d = s.elapse d ∨ ∃ a, s.line.attempt = some a ∧ a.slot.val < s.round.slotsClosed
      ∧ (s.elapse d).awaitsLast a = false ∧ s.advance d = (s.elapse d).cutAttempt a :=
  settleAttempt_cases (s.elapse d)

/-- The passing of time changes nothing of the Line Interface and the Service Port but what cutting an attempt does. -/
theorem advance_eq (s : State) (d : Wait) :
    s.advance d = { s.elapse d with line := (s.advance d).line, port := (s.advance d).port } := by
  rcases advance_cases s d with e | ⟨a, -, -, -, e⟩ <;> rw [e]
  unfold State.cutAttempt State.linkErrorIf State.linkError State.raiseIf
  repeat' split
  all_goals rfl

/-! ### Characters that join an attempt -/

/-- A character that joins an attempt of fewer than fourteen leaves it open, and changes nothing else. -/
theorem joinAttempt_of_lt (s : State) {a : Attempt} (st : Nat) (c : CharBits) (h : a.bytes.length < 14) :
    s.joinAttempt a st c
      = { s with line := { s.line with
          attempt := some { a with
            bytes := a.bytes ++ [c.data], framing := a.framing || !c.stop, lastEnd := st + Config.characterTime } } } := by
  have h' : ¬a.bytes.length + 1 = Config.frameLength := by show ¬a.bytes.length + 1 = 15; omega
  simp [State.joinAttempt, h']

/-- An attempt that ends as no valid frame sets the flags of its failures, and does nothing else. -/
theorem finishAttempt_of_invalid (s : State) {a : Attempt} (h : a.isValid = false) :
    s.finishAttempt a
      = (((({ s with line := { s.line with attempt := none } } : State).linkErrorIf
            (!s.round.lost && a.markInside) .short).linkErrorIf
            (!s.round.lost && sumBytes a.bytes != 0) .check).linkErrorIf
            (!s.round.lost && lowerNibble (nth a.bytes 0) != a.slot) .slot) := by
  simp [State.finishAttempt, h]

end Sys2Proof.Machine
end

