-- ==== Sys2Proof/Laws/Events.lean ====
section
/-! SUPPORT. The operations of a boundary, of the line and of the drive lines change nothing of the Service Port but set
event flags. -/

namespace Sys2Proof.Machine

set_option Elab.async false

/-- A port that differs from another in nothing but event flags that are set. -/
def RaisedPort (p q : Port) : Prop := ∃ x : BitVec 16, q = { p with events := p.events ||| x }

/-- A state whose port differs from another port in nothing but event flags that are set. -/
def Raised (p : Port) (s : State) : Prop := RaisedPort p s.port

@[simp] theorem raised_self (s : State) : Raised s.port s := ⟨0, by simp⟩

/-- A record update of a state raises what its port raises. -/
@[simp] theorem raised_mk {p : Port} (now : Nat) (power : Power) (pins : Pins) (station : Station)
    (config : Option ConfigRecord) (line : LineInterface) (round : RoundTimer) (link : Link) (roster : List Entry)
    (ownReport : Report) (trial : TrialRecord) (lastOutcome : LastOutcome) (seqCounter : Fin 16) (inputs : Inputs)
    (counters : Quad Counters) (chans : Quad ChannelState) (meas : Measurement) (check : RevCheck) (draw : Draw)
    (trim : Trim) (pwm : Pwm) (brk : Break) (log : Log) (port : Port) (pending : List Instr) :
    Raised p ⟨now, power, pins, station, config, line, round, link, roster, ownReport, trial, lastOutcome, seqCounter,
      inputs, counters, chans, meas, check, draw, trim, pwm, brk, log, port, pending⟩ ↔ RaisedPort p port := Iff.rfl

@[simp] theorem raisedPort_port {p : Port} (s : State) : RaisedPort p s.port ↔ Raised p s := Iff.rfl

theorem Raised.of_port {p : Port} {s t : State} (h : Raised p s) (k : t.port = s.port) : Raised p t := by
  unfold Raised at *; rw [k]; exact h

theorem Raised.trans {p : Port} {s t : State} (h : Raised p s) (k : Raised s.port t) : Raised p t := by
  obtain ⟨x, hx⟩ := h
  obtain ⟨y, hy⟩ := k
  exact ⟨x ||| y, by rw [hy, hx]; simp [BitVec.or_assoc]⟩

/-- A flag that was set stays set. -/
theorem Raised.hasEvent {s t : State} (h : Raised s.port t) {e : Event} (he : s.hasEvent e = true) :
    t.hasEvent e = true := by
  obtain ⟨x, hx⟩ := h
  simp only [State.hasEvent] at he
  simp [State.hasEvent, hx, he]

theorem Raised.srdy {p : Port} {s : State} (h : Raised p s) : s.port.srdy = p.srdy := by obtain ⟨x, hx⟩ := h; rw [hx]
theorem Raised.request {p : Port} {s : State} (h : Raised p s) : s.port.request = p.request := by
  obtain ⟨x, hx⟩ := h; rw [hx]
theorem Raised.requestAt {p : Port} {s : State} (h : Raised p s) : s.port.requestAt = p.requestAt := by
  obtain ⟨x, hx⟩ := h; rw [hx]
theorem Raised.response {p : Port} {s : State} (h : Raised p s) : s.port.response = p.response := by
  obtain ⟨x, hx⟩ := h; rw [hx]
theorem Raised.sselLow {p : Port} {s : State} (h : Raised p s) : s.port.sselLow = p.sselLow := by
  obtain ⟨x, hx⟩ := h; rw [hx]
theorem Raised.txn {p : Port} {s : State} (h : Raised p s) : s.port.txn = p.txn := by obtain ⟨x, hx⟩ := h; rw [hx]
theorem Raised.mask {p : Port} {s : State} (h : Raised p s) : s.port.mask = p.mask := by obtain ⟨x, hx⟩ := h; rw [hx]

/-- A fold raises events only when each of its steps does. -/
theorem foldl_raised {α : Type} {p : Port} (g : State → α → State) (hg : ∀ t a, Raised p t → Raised p (g t a))
    (l : List α) (s : State) (h : Raised p s) : Raised p (l.foldl g s) := by
  induction l generalizing s with
  | nil => exact h
  | cons a rest ih => exact ih _ (hg _ _ h)

@[simp] theorem elapse_raised {q : Port} (s : State) (d : Wait) (h : Raised q s) : Raised q (s.elapse d) := h.of_port (by simp)
@[simp] theorem raise_raised {q : Port} (s : State) (e : Event) (h : Raised q s) : Raised q (s.raise e) := h.trans ⟨e.flag, rfl⟩
@[simp] theorem setEntry_raised {q : Port} (s : State) (t : Station) (e : Entry) (h : Raised q s) : Raised q (s.setEntry t e) := h.of_port (by simp)
@[simp] theorem setChannel_raised {q : Port} (s : State) (n : Channel) (c : ChannelState) (h : Raised q s) : Raised q (s.setChannel n c) := h.of_port (by simp)
@[simp] theorem reselect_raised {q : Port} (s : State) (h : Raised q s) : Raised q (s.reselect) := h.of_port (by simp)
@[simp] theorem setManual_raised {q : Port} (s : State) (v : Int) (h : Raised q s) : Raised q (s.setManual v) := h.of_port (by simp)
@[simp] theorem setClass_raised {q : Port} (s : State) (c : RampClass) (h : Raised q s) : Raised q (s.setClass c) := h.of_port (by simp)
@[simp] theorem present_raised {q : Port} (s : State) (a b : Int) (d : Option Channel) (c : RampClass) (h : Raised q s) : Raised q (s.present a b d c) := h.of_port (by simp)
@[simp] theorem endCheck_raised {q : Port} (s : State) (v : Verdict) (h : Raised q s) : Raised q (s.endCheck v) := by simp [State.endCheck, h]
@[simp] theorem writeOutcome_raised {q : Port} (s : State) (o : TrialOutcome) (i : TrialId) (c : Byte) (t : Station) (h : Raised q s) : Raised q (s.writeOutcome o i c t) := by simp (maxDischargeDepth := 20) [State.writeOutcome, h]
@[simp] theorem writeOwnEntry_raised {q : Port} (s : State) (r : Report) (h : Raised q s) : Raised q (s.writeOwnEntry r) := h.of_port (by simp)
@[simp] theorem handOver_raised {q : Port} (s : State) (T : Nat) (h : Raised q s) : Raised q (s.handOver T) := h.of_port (by simp)
@[simp] theorem setSlip_raised {q : Port} (s : State) (n : Channel) (k : Nat) (h : Raised q s) : Raised q (s.setSlip n k) := h.of_port (by simp)
@[simp] theorem sectionValues_raised {q : Port} (s : State) (h : Raised q s) : Raised q (s.sectionValues) := h.of_port (by simp)
@[simp] theorem takeSample_raised {q : Port} (s : State) (k : BitVec 8) (l : Bool) (h : Raised q s) : Raised q (s.takeSample k l) := h.of_port (by simp)
@[simp] theorem rampTrims_raised {q : Port} (s : State) (h : Raised q s) : Raised q (s.rampTrims) := h.of_port (by simp)
@[simp] theorem startPwmPeriod_raised {q : Port} (s : State) (h : Raised q s) : Raised q (s.startPwmPeriod) := h.of_port (by simp)
@[simp] theorem enterRecovering_raised {q : Port} (s : State) (k : Nat) (c : Byte) (o : Station) (h : Raised q s) : Raised q (s.enterRecovering k c o) := h.of_port (by simp)
@[simp] theorem withdraw_raised {q : Port} (s : State) (c : Byte) (t : Station) (h : Raised q s) : Raised q (s.withdraw c t) := by simp (maxDischargeDepth := 20) [State.withdraw, h]
@[simp] theorem dropClaim_raised {q : Port} (s : State) (c : Reason) (h : Raised q s) : Raised q (s.dropClaim c) := by simp (maxDischargeDepth := 20) [State.dropClaim, h]
@[simp] theorem adopt_raised {q : Port} (s : State) (c : TrialId × TrialParams) (h : Raised q s) : Raised q (s.adopt c) := by simp (maxDischargeDepth := 20) [State.adopt, h]
@[simp] theorem beginProposal_raised {q : Port} (s : State) (i : TrialId) (p : TrialParams) (h : Raised q s) : Raised q (s.beginProposal i p) := h.of_port (by simp)
@[simp] theorem setGo_raised {q : Port} (s : State) (h : Raised q s) : Raised q (s.setGo) := h.of_port (by simp)
@[simp] theorem refreshReady_raised {q : Port} (s : State) (h : Raised q s) : Raised q (s.refreshReady) := h.of_port (by simp)
@[simp] theorem requestAbort_raised {q : Port} (s : State) (h : Raised q s) : Raised q (s.requestAbort) := h.of_port (by simp)
@[simp] theorem buildReport_raised {q : Port} (s : State) (h : Raised q s) : Raised q (s.buildReport) := h.of_port (by simp)
@[simp] theorem openRound_raised {q : Port} (s : State) (g : RoundFrame) (k : BoundaryKind) (n : BitVec 8) (h : Raised q s) : Raised q (s.openRound g k n) := h.of_port (by simp)
@[simp] theorem clearBreakMark_raised {q : Port} (s : State) (h : Raised q s) : Raised q (s.clearBreakMark) := h.of_port (by simp)
@[simp] theorem noteStart_raised {q : Port} (s : State) (e : Nat) (h : Raised q s) : Raised q (s.noteStart e) := h.of_port (by simp)
@[simp] theorem beginSending_raised {q : Port} (s : State) (t : Tx) (h : Raised q s) : Raised q (s.beginSending t) := h.of_port (by simp)
@[simp] theorem markInAttempt_raised {q : Port} (s : State) (h : Raised q s) : Raised q (s.markInAttempt) := h.of_port (by simp)
@[simp] theorem extendTrain_raised {q : Port} (s : State) (j : Station) (e : Nat) (h : Raised q s) : Raised q (s.extendTrain j e) := h.of_port (by simp)
@[simp] theorem armCheck_raised {q : Port} (s : State) (n : Channel) (h : Raised q s) : Raised q (s.armCheck n) := h.of_port (by simp)
@[simp] theorem setCounters_raised {q : Port} (s : State) (n : Channel) (c : Counters) (h : Raised q s) : Raised q (s.setCounters n c) := h.of_port (by simp)
@[simp] theorem stallChannel_raised {q : Port} (s : State) (n : Channel) (h : Raised q s) : Raised q (s.stallChannel n) := h.of_port (by simp)
@[simp] theorem seeDir_raised {q : Port} (s : State) (n : Channel) (b : Bool) (h : Raised q s) : Raised q (s.seeDir n b) := h.of_port (by simp)
@[simp] theorem sampleSlow_raised {q : Port} (s : State) (v : SlowLevels) (h : Raised q s) : Raised q (s.sampleSlow v) := h.of_port (by simp)
@[simp] theorem setFalls_raised {q : Port} (s : State) (k : Nat) (h : Raised q s) : Raised q (s.setFalls k) := h.of_port (by simp)
@[simp] theorem removeHead_raised {q : Port} (s : State) (h : Raised q s) : Raised q (s.removeHead) := h.of_port (by simp)
@[simp] theorem acceptConfig_raised {q : Port} (s : State) (c : ConfigRecord) (h : Raised q s) : Raised q (s.acceptConfig c) := h.of_port (by simp)
@[simp] theorem raiseIf_raised {q : Port} (s : State) (p : Bool) (e : Event) (h : Raised q s) : Raised q (s.raiseIf p e) := by
  unfold State.raiseIf; repeat' split
  all_goals simp (maxDischargeDepth := 20) [h]
@[simp] theorem linkError_raised {q : Port} (s : State) (e : LinkError) (h : Raised q s) : Raised q (s.linkError e) := by simp (maxDischargeDepth := 20) [State.linkError, h]
@[simp] theorem linkErrorIf_raised {q : Port} (s : State) (p : Bool) (e : LinkError) (h : Raised q s) : Raised q (s.linkErrorIf p e) := by
  unfold State.linkErrorIf; repeat' split
  all_goals simp (maxDischargeDepth := 20) [h]
@[simp] theorem clearRoster_raised {q : Port} (s : State) (h : Raised q s) : Raised q (s.clearRoster) := by simp (maxDischargeDepth := 20) [State.clearRoster, h]
@[simp] theorem enterStandby_raised {q : Port} (s : State) (h : Raised q s) : Raised q (s.enterStandby) := by simp (maxDischargeDepth := 20) [State.enterStandby, h]
@[simp] theorem leaveReady_raised {q : Port} (s : State) (n : Channel) (h : Raised q s) : Raised q (s.leaveReady n) := by
  unfold State.leaveReady; repeat' split
  all_goals simp (maxDischargeDepth := 20) [h]
@[simp] theorem latchFault_raised {q : Port} (s : State) (n : Channel) (c : FaultCause) (h : Raised q s) : Raised q (s.latchFault n c) := by simp (maxDischargeDepth := 20) [State.latchFault, h]
@[simp] theorem appendRecord_raised {q : Port} (s : State) (t : RecordType) (i : TrialId) (m : Sample) (o : TrialOutcome) (c : Byte) (g : Station) (h : Raised q s) : Raised q (s.appendRecord t i m o c g) := h.of_port (by simp)
@[simp] theorem appendClose_raised {q : Port} (s : State) (i : TrialId) (o : TrialOutcome) (c : Byte) (g : Station) (h : Raised q s) : Raised q (s.appendClose i o c g) := by simp (maxDischargeDepth := 20) [State.appendClose, h]
@[simp] theorem appendRun_raised {q : Port} (s : State) (i : TrialId) (h : Raised q s) : Raised q (s.appendRun i) := h.of_port (by simp)
@[simp] theorem moveRing_raised {q : Port} (s : State) (i : TrialId) (h : Raised q s) : Raised q (s.moveRing i) := h.of_port (by simp)
@[simp] theorem ageRoster_raised {q : Port} (s : State) (h : Raised q s) : Raised q (s.ageRoster) := by simp (maxDischargeDepth := 20) [State.ageRoster, h]
@[simp] theorem storeReport_raised {q : Port} (s : State) (t : Station) (r : Report) (h : Raised q s) : Raised q (s.storeReport t r) := by
  unfold State.storeReport; dsimp only; repeat' split
  all_goals simp (maxDischargeDepth := 20) [h]
@[simp] theorem deliver_raised {q : Port} (s : State) (t : Station) (f : List Byte) (h : Raised q s) : Raised q (s.deliver t f) := by
  unfold State.deliver; repeat' split
  all_goals simp (maxDischargeDepth := 20) [h]
@[simp] theorem ownFrameDone_raised {q : Port} (s : State) (r : Report) (h : Raised q s) : Raised q (s.ownFrameDone r) := h.of_port (by simp)
@[simp] theorem countBoundary_raised {q : Port} (s : State) (k : BoundaryKind) (o : SlotObservation) (h : Raised q s) : Raised q (s.countBoundary k o) := by
  unfold State.countBoundary; dsimp only; repeat' split
  all_goals simp (maxDischargeDepth := 20) [h]
@[simp] theorem completeLeave_raised {q : Port} (s : State) (h : Raised q s) : Raised q (s.completeLeave) := by simp (maxDischargeDepth := 20) [State.completeLeave, h]
@[simp] theorem judgeChannels_raised {q : Port} (s : State) (h : Raised q s) : Raised q (s.judgeChannels) := foldl_raised _ (fun t n h => by split <;> simp (maxDischargeDepth := 20) [h]) _ _ h
@[simp] theorem judgeShares_raised {q : Port} (s : State) (h : Raised q s) : Raised q (s.judgeShares) := by
  unfold State.judgeShares; dsimp only; repeat' split
  all_goals simp (maxDischargeDepth := 20) [h]
@[simp] theorem measure_raised {q : Port} (s : State) (T : Nat) (h : Raised q s) : Raised q (s.measure T) := by simp (maxDischargeDepth := 20) [State.measure, h]
@[simp] theorem measureDraw_raised {q : Port} (s : State) (h : Raised q s) : Raised q (s.measureDraw) := by
  unfold State.measureDraw; dsimp only; repeat' split
  all_goals simp (maxDischargeDepth := 20) [h]
@[simp] theorem abortTrial_raised {q : Port} (s : State) (k : Nat) (c : Byte) (o : Station) (h : Raised q s) : Raised q (s.abortTrial k c o) := by
  unfold State.abortTrial; dsimp only; repeat' split
  all_goals simp (maxDischargeDepth := 20) [h]
@[simp] theorem abortOwn_raised {q : Port} (s : State) (r : Reason) (h : Raised q s) : Raised q (s.abortOwn r) := by simp (maxDischargeDepth := 20) [State.abortOwn, h]
@[simp] theorem abortHeard_raised {q : Port} (s : State) (p : ParamBytes) (h : Raised q s) : Raised q (s.abortHeard p) := by simp (maxDischargeDepth := 20) [State.abortHeard, h]
@[simp] theorem completeTrial_raised {q : Port} (s : State) (h : Raised q s) : Raised q (s.completeTrial) := by
  unfold State.completeTrial; dsimp only; repeat' split
  all_goals simp (maxDischargeDepth := 20) [h]
@[simp] theorem adoptHeard_raised {q : Port} (s : State) (h : Raised q s) : Raised q (s.adoptHeard) := by
  unfold State.adoptHeard; repeat' split
  all_goals simp (maxDischargeDepth := 20) [h]
@[simp] theorem claimBoundary_raised {q : Port} (s : State) (i : TrialId) (p : TrialParams) (h : Raised q s) : Raised q (s.claimBoundary i p) := by
  unfold State.claimBoundary; dsimp only; repeat' split
  all_goals simp (maxDischargeDepth := 20) [h]
@[simp] theorem gatherAcceptances_raised {q : Port} (s : State) (h : Raised q s) : Raised q (s.gatherAcceptances) := by
  unfold State.gatherAcceptances; dsimp only; repeat' split
  all_goals simp (maxDischargeDepth := 20) [h]
@[simp] theorem startTrial_raised {q : Port} (s : State) (h : Raised q s) : Raised q (s.startTrial) := by
  unfold State.startTrial; dsimp only; repeat' split
  all_goals simp (maxDischargeDepth := 20) [h]
@[simp] theorem awaitStart_raised {q : Port} (s : State) (h : Raised q s) : Raised q (s.awaitStart) := by
  unfold State.awaitStart; repeat' split
  all_goals simp (maxDischargeDepth := 20) [h]
@[simp] theorem countDown_raised {q : Port} (s : State) (h : Raised q s) : Raised q (s.countDown) := by
  unfold State.countDown; dsimp only; repeat' split
  all_goals simp (maxDischargeDepth := 20) [h]
@[simp] theorem takeGo_raised {q : Port} (s : State) (g : BitVec 8) (h : Raised q s) : Raised q (s.takeGo g) := by
  unfold State.takeGo; dsimp only; repeat' split
  all_goals simp (maxDischargeDepth := 20) [h]
@[simp] theorem acceptingGoes_raised {q : Port} (s : State) (h : Raised q s) : Raised q (s.acceptingGoes) := by
  unfold State.acceptingGoes; repeat' split
  all_goals simp (maxDischargeDepth := 20) [h]
@[simp] theorem acceptingStep_raised {q : Port} (s : State) (h : Raised q s) : Raised q (s.acceptingStep) := by
  unfold State.acceptingStep; repeat' split
  all_goals simp (maxDischargeDepth := 20) [h]
@[simp] theorem proposingStep_raised {q : Port} (s : State) (h : Raised q s) : Raised q (s.proposingStep) := by
  unfold State.proposingStep; repeat' split
  all_goals simp (maxDischargeDepth := 20) [h]
@[simp] theorem idleStep_raised {q : Port} (s : State) (h : Raised q s) : Raised q (s.idleStep) := by
  unfold State.idleStep; repeat' split
  all_goals simp (maxDischargeDepth := 20) [h]
@[simp] theorem closeLink_raised {q : Port} (s : State) (h : Raised q s) : Raised q (s.closeLink) := by
  unfold State.closeLink; dsimp only; repeat' split
  all_goals simp (maxDischargeDepth := 20) [h]
@[simp] theorem countBoundaries_raised {q : Port} (s : State) (h : Raised q s) : Raised q (s.countBoundaries) := h.of_port (by simp)
@[simp] theorem atDecision_raised {q : Port} (s : State) (h : Raised q s) : Raised q (s.atDecision) := by simp (maxDischargeDepth := 20) [State.atDecision, h]

/-- What a guarded record does raises events only. -/
theorem guarded_raised {p : Port} {go : State → State}
    (hgo : ∀ t : State, Raised p t → Raised p (go t)) (s : State) (h : Raised p s) :
    Raised p (s.guarded go) := by
  unfold State.guarded; split
  · simp [h]
  · split
    · simp [h]
    · exact hgo _ (by simp [h])

@[simp] theorem decidePhase_raised {q : Port} (s : State) (h : Raised q s) : Raised q (s.decidePhase) := by
  unfold State.decidePhase; split
  · simp (maxDischargeDepth := 20) [h]
  · simp (maxDischargeDepth := 20) [h]
  · simp (maxDischargeDepth := 20) [h]
  · exact guarded_raised (fun t ht => by simp [ht]) s h
  · exact guarded_raised (fun t ht => by simp [ht]) s h
  · exact h
@[simp] theorem decide_raised {q : Port} (s : State) (h : Raised q s) : Raised q (s.decide) := by simp (maxDischargeDepth := 20) [State.decide, h]
@[simp] theorem testIdle_raised {q : Port} (s : State) (b : Bool) (h : Raised q s) : Raised q (s.testIdle b) := by
  unfold State.testIdle; repeat' split
  all_goals simp (maxDischargeDepth := 20) [h]
@[simp] theorem trialAndTrims_raised {q : Port} (s : State) (h : Raised q s) : Raised q (s.trialAndTrims) := by simp (maxDischargeDepth := 20) [State.trialAndTrims, h]
@[simp] theorem dropAttempt_raised {q : Port} (s : State) (h : Raised q s) : Raised q (s.dropAttempt) := by
  unfold State.dropAttempt; repeat' split
  all_goals simp (maxDischargeDepth := 20) [h]
@[simp] theorem enterOwnEntry_raised {q : Port} (s : State) (l : LinkState) (h : Raised q s) : Raised q (s.enterOwnEntry l) := h.of_port (by simp)
@[simp] theorem endLeave_raised {q : Port} (s : State) (h : Raised q s) : Raised q (s.endLeave) := by
  unfold State.endLeave; repeat' split
  all_goals simp (maxDischargeDepth := 20) [h]
@[simp] theorem linkStep_raised {q : Port} (s : State) (k : BoundaryKind) (h : Raised q s) : Raised q (s.linkStep k) := by
  unfold State.linkStep; dsimp only; repeat' split
  all_goals simp (maxDischargeDepth := 20) [h]
@[simp] theorem measured_raised {q : Port} (s : State) (h : Raised q s) : Raised q (s.measured) := by simp (maxDischargeDepth := 20) [State.measured, h]
@[simp] theorem linked_raised {q : Port} (s : State) (k : BoundaryKind) (n : BitVec 8) (h : Raised q s) : Raised q (s.linked k n) := by simp (maxDischargeDepth := 20) [State.linked, h]
@[simp] theorem sampled_raised {q : Port} (s : State) (k : BoundaryKind) (n : BitVec 8) (h : Raised q s) : Raised q (s.sampled k n) := by simp (maxDischargeDepth := 20) [State.sampled, h]
@[simp] theorem takeBoundary_raised {q : Port} (s : State) (k : BoundaryKind) (n : BitVec 8) (h : Raised q s) : Raised q (s.takeBoundary k n) := by simp (maxDischargeDepth := 20) [State.takeBoundary, h]
@[simp] theorem conflictTrial_raised {q : Port} (s : State) (h : Raised q s) : Raised q (s.conflictTrial) := by
  unfold State.conflictTrial; repeat' split
  all_goals simp (maxDischargeDepth := 20) [h]
@[simp] theorem conflict_raised {q : Port} (s : State) (h : Raised q s) : Raised q (s.conflict) := by simp (maxDischargeDepth := 20) [State.conflict, h]
@[simp] theorem cutAttempt_raised {q : Port} (s : State) (a : Attempt) (h : Raised q s) : Raised q (s.cutAttempt a) := by
  simp (maxDischargeDepth := 20) [State.cutAttempt, h]
@[simp] theorem settleAttempt_raised {q : Port} (s : State) (h : Raised q s) : Raised q (s.settleAttempt) := by
  unfold State.settleAttempt; repeat' split
  all_goals simp (maxDischargeDepth := 20) [h]
@[simp] theorem advance_raised {q : Port} (s : State) (d : Wait) (h : Raised q s) : Raised q (s.advance d) :=
  settleAttempt_raised _ (elapse_raised s d h)
theorem takes_advance (s : State) (d : Wait) (q : Request) (p : List Byte) : (s.advance d).takes q p ↔ s.takes q p := by
  have h := advance_raised s d (raised_self s)
  simp [State.takes, State.running, h.srdy, h.request]
@[simp] theorem discardAttempt_raised {q : Port} (s : State) (p : Bool) (h : Raised q s) : Raised q (s.discardAttempt p) := by
  unfold State.discardAttempt; repeat' split
  all_goals simp (maxDischargeDepth := 20) [h]
@[simp] theorem finishAttempt_raised {q : Port} (s : State) (a : Attempt) (h : Raised q s) : Raised q (s.finishAttempt a) := by
  unfold State.finishAttempt; dsimp only; repeat' split
  all_goals simp (maxDischargeDepth := 20) [h]
@[simp] theorem joinAttempt_raised {q : Port} (s : State) (a : Attempt) (e : Nat) (c : CharBits) (h : Raised q s) : Raised q (s.joinAttempt a e c) := by
  unfold State.joinAttempt; dsimp only; repeat' split
  all_goals simp (maxDischargeDepth := 20) [h]
@[simp] theorem openAttempt_raised {q : Port} (s : State) (k : Station) (e : Nat) (c : CharBits) (h : Raised q s) : Raised q (s.openAttempt k e c) := by
  unfold State.openAttempt; repeat' split
  all_goals simp (maxDischargeDepth := 20) [h]
@[simp] theorem assemble_raised {q : Port} (s : State) (e : Nat) (c : CharBits) (h : Raised q s) : Raised q (s.assemble e c) := by
  unfold State.assemble; dsimp only; repeat' split
  all_goals simp (maxDischargeDepth := 20) [h]
@[simp] theorem assembleLate_raised {q : Port} (s : State) (e : Nat) (c : CharBits) (h : Raised q s) : Raised q (s.assembleLate e c) := by
  unfold State.assembleLate; dsimp only; repeat' split
  all_goals simp (maxDischargeDepth := 20) [h]
@[simp] theorem takeMark_raised {q : Port} (s : State) (e : Nat) (n : BitVec 8) (h : Raised q s) : Raised q (s.takeMark e n) := by
  unfold State.takeMark; repeat' split
  all_goals simp (maxDischargeDepth := 20) [h]
@[simp] theorem takeOther_raised {q : Port} (s : State) (e : Nat) (c : CharBits) (h : Raised q s) : Raised q (s.takeOther e c) := by
  unfold State.takeOther; repeat' split
  all_goals simp (maxDischargeDepth := 20) [h]
@[simp] theorem received_raised {q : Port} (s : State) (e : Nat) (c : CharBits) (h : Raised q s) : Raised q (s.received e c) := by
  unfold State.received; dsimp only; repeat' split
  all_goals simp (maxDischargeDepth := 20) [h]
@[simp] theorem ownCharacter_raised {q : Port} (s : State) (r : Report) (k : Nat) (h : Raised q s) : Raised q (s.ownCharacter r k) := h.of_port (by simp)
@[simp] theorem completeCharacter_raised {q : Port} (s : State) (c : CharBits) (h : Raised q s) : Raised q (s.completeCharacter c) := by
  unfold State.completeCharacter; dsimp only; repeat' split
  all_goals simp (maxDischargeDepth := 20) [h]
@[simp] theorem standbyLocal_raised {q : Port} (s : State) (h : Raised q s) : Raised q (s.standbyLocal) := by
  unfold State.standbyLocal; repeat' split
  all_goals simp (maxDischargeDepth := 20) [h]
@[simp] theorem listeningLocal_raised {q : Port} (s : State) (h : Raised q s) : Raised q (s.listeningLocal) := by
  unfold State.listeningLocal; repeat' split
  all_goals simp (maxDischargeDepth := 20) [h]
@[simp] theorem closeSlot_raised {q : Port} (s : State) (h : Raised q s) : Raised q (s.closeSlot) := by
  simp only [State.closeSlot]
  exact settleAttempt_raised _ (h.of_port rfl)
@[simp] theorem detectStart_raised {q : Port} (s : State) (e : Nat) (h : Raised q s) : Raised q (s.detectStart e) := h.of_port (by simp)
@[simp] theorem boundaryEvent_raised {q : Port} (s : State) (b : BoundaryEvent) (h : Raised q s) : Raised q (s.boundaryEvent b) := by
  unfold State.boundaryEvent; repeat' split
  all_goals simp (maxDischargeDepth := 20) [h]
@[simp] theorem whenComesAbout_raised {q : Port} (s : State) (b : BoundaryEvent) (row : State → State → Bool) (h : Raised q s) : Raised q (s.whenComesAbout b row) := by
  unfold State.whenComesAbout; repeat' split
  all_goals simp (maxDischargeDepth := 20) [h]
@[simp] theorem setFast_raised {q : Port} (s : State) (l : FastLine) (n : Channel) (f : FastFilter) (h : Raised q s) : Raised q (s.setFast l n f) := h.of_port (by simp)
@[simp] theorem takeEdge_raised {q : Port} (s : State) (l : FastLine) (n : Channel) (b : Bool) (h : Raised q s) : Raised q (s.takeEdge l n b) := h.of_port (by simp)
@[simp] theorem checkSpeedEdge_raised {q : Port} (s : State) (n : Channel) (b : Bool) (h : Raised q s) : Raised q (s.checkSpeedEdge n b) := by
  unfold State.checkSpeedEdge; dsimp only; repeat' split
  all_goals simp (maxDischargeDepth := 20) [h]
@[simp] theorem checkIndexEdge_raised {q : Port} (s : State) (n : Channel) (h : Raised q s) : Raised q (s.checkIndexEdge n) := by
  unfold State.checkIndexEdge; repeat' split
  all_goals simp (maxDischargeDepth := 20) [h]
@[simp] theorem speedEdge_raised {q : Port} (s : State) (n : Channel) (b : Bool) (h : Raised q s) : Raised q (s.speedEdge n b) := by simp (maxDischargeDepth := 20) [State.speedEdge, h]
@[simp] theorem rdyRises_raised {q : Port} (s : State) (n : Channel) (h : Raised q s) : Raised q (s.rdyRises n) := h.of_port (by simp)
@[simp] theorem rdyFalls_raised {q : Port} (s : State) (n : Channel) (h : Raised q s) : Raised q (s.rdyFalls n) := by
  unfold State.rdyFalls; repeat' split
  all_goals simp (maxDischargeDepth := 20) [h]
@[simp] theorem changeRdy_raised {q : Port} (s : State) (n : Channel) (h : Raised q s) : Raised q (s.changeRdy n) := by
  unfold State.changeRdy; dsimp only; repeat' split
  all_goals simp (maxDischargeDepth := 20) [h]
@[simp] theorem changeFlt_raised {q : Port} (s : State) (n : Channel) (h : Raised q s) : Raised q (s.changeFlt n) := by
  unfold State.changeFlt; dsimp only; repeat' split
  all_goals simp (maxDischargeDepth := 20) [h]
@[simp] theorem releaseChannel_raised {q : Port} (s : State) (n : Channel) (h : Raised q s) : Raised q (s.releaseChannel n) := h.of_port (by simp)
@[simp] theorem latchBreak_raised {q : Port} (s : State) (h : Raised q s) : Raised q (s.latchBreak) := by
  unfold State.latchBreak; repeat' split
  all_goals simp (maxDischargeDepth := 20) [h]
@[simp] theorem changeBrk_raised {q : Port} (s : State) (h : Raised q s) : Raised q (s.changeBrk) := by
  unfold State.changeBrk; dsimp only; repeat' split
  all_goals simp (maxDischargeDepth := 20) [h]
@[simp] theorem settleReadout_raised {q : Port} (s : State) (k : Nat) (h : Raised q s) : Raised q (s.settleReadout k) := h.of_port (by simp)
@[simp] theorem endHighTime_raised {q : Port} (s : State) (o : PwmOutput) (h : Raised q s) : Raised q (s.endHighTime o) := h.of_port (by simp)

/-! ### SDO while time passes -/

/-- A transaction shifts out the same bytes whatever time passes. -/
@[simp] theorem advance_shiftedOut (s : State) (d : Wait) (k : Nat) : (s.advance d).shiftedOut k = s.shiftedOut k := by
  have h := advance_raised s d (raised_self s)
  simp [State.shiftedOut, State.pendingByte, h.txn, h.response]

/-- SDO after a wait carries the bit that the falling edges of SCK in it lead to. -/
theorem advance_sdo (s : State) (d : Wait) : (s.advance d).sdo = s.shiftedBit (s.pins.sckFalls + d.falls) := by
  simp only [State.sdo, State.shiftedBit, advance_shiftedOut, advance_pins, elapse_pins_sckFalls]
  split
  · next h => simp [State.shiftedOut, h]
  · rfl

end Sys2Proof.Machine
end

