-- ==== Sys2Proof/Laws/Boundary.lean ====
section
/-! SUPPORT. What a round boundary always does: the event that takes it, the round that it opens, the order of its
parts. -/

namespace Sys2Proof.Machine

set_option Elab.async false

/-! ### The base of a boundary -/

/-- The base of a boundary differs from the state before it in the Line Interface and the event flags alone. -/
theorem boundaryBase_keeps {β : Type} (p : State → β) (hl : ∀ (t : State) (l : LineInterface), p { t with line := l } = p t)
    (he : ∀ (t : State) (e : LinkError), p (t.linkError e) = p t) (s : State) (b : BoundaryEvent) :
    p (s.boundaryBase b) = p s := by
  unfold State.boundaryBase State.windowErrors State.linkErrorIf
  cases b with
  | standbyLocal => rfl
  | listeningLocal => rfl
  | character c =>
    dsimp only
    repeat' split
    all_goals first
      | exact hl _ _
      | exact (hl _ _).trans (hl _ _)
      | exact (he _ _).trans (hl _ _)
      | exact (he _ _).trans ((he _ _).trans (hl _ _))

@[simp] theorem boundaryBase_now (s : State) (b : BoundaryEvent) : (s.boundaryBase b).now = s.now :=
  boundaryBase_keeps (·.now) (fun _ _ => rfl) (by simp) s b
@[simp] theorem boundaryBase_power (s : State) (b : BoundaryEvent) : (s.boundaryBase b).power = s.power :=
  boundaryBase_keeps (·.power) (fun _ _ => rfl) (by simp) s b
@[simp] theorem boundaryBase_station (s : State) (b : BoundaryEvent) : (s.boundaryBase b).station = s.station :=
  boundaryBase_keeps (·.station) (fun _ _ => rfl) (by simp) s b
@[simp] theorem boundaryBase_config (s : State) (b : BoundaryEvent) : (s.boundaryBase b).config = s.config :=
  boundaryBase_keeps (·.config) (fun _ _ => rfl) (by simp) s b
@[simp] theorem boundaryBase_round (s : State) (b : BoundaryEvent) : (s.boundaryBase b).round = s.round :=
  boundaryBase_keeps (·.round) (fun _ _ => rfl) (by simp) s b
@[simp] theorem boundaryBase_link (s : State) (b : BoundaryEvent) : (s.boundaryBase b).link = s.link :=
  boundaryBase_keeps (·.link) (fun _ _ => rfl) (by simp) s b
@[simp] theorem boundaryBase_roster (s : State) (b : BoundaryEvent) : (s.boundaryBase b).roster = s.roster :=
  boundaryBase_keeps (·.roster) (fun _ _ => rfl) (by simp) s b
@[simp] theorem boundaryBase_ownReport (s : State) (b : BoundaryEvent) : (s.boundaryBase b).ownReport = s.ownReport :=
  boundaryBase_keeps (·.ownReport) (fun _ _ => rfl) (by simp) s b
@[simp] theorem boundaryBase_trial (s : State) (b : BoundaryEvent) : (s.boundaryBase b).trial = s.trial :=
  boundaryBase_keeps (·.trial) (fun _ _ => rfl) (by simp) s b
@[simp] theorem boundaryBase_lastOutcome (s : State) (b : BoundaryEvent) :
    (s.boundaryBase b).lastOutcome = s.lastOutcome :=
  boundaryBase_keeps (·.lastOutcome) (fun _ _ => rfl) (by simp) s b
@[simp] theorem boundaryBase_inputs (s : State) (b : BoundaryEvent) : (s.boundaryBase b).inputs = s.inputs :=
  boundaryBase_keeps (·.inputs) (fun _ _ => rfl) (by simp) s b
@[simp] theorem boundaryBase_counters (s : State) (b : BoundaryEvent) : (s.boundaryBase b).counters = s.counters :=
  boundaryBase_keeps (·.counters) (fun _ _ => rfl) (by simp) s b
@[simp] theorem boundaryBase_chans (s : State) (b : BoundaryEvent) : (s.boundaryBase b).chans = s.chans :=
  boundaryBase_keeps (·.chans) (fun _ _ => rfl) (by simp) s b
@[simp] theorem boundaryBase_meas (s : State) (b : BoundaryEvent) : (s.boundaryBase b).meas = s.meas :=
  boundaryBase_keeps (·.meas) (fun _ _ => rfl) (by simp) s b
@[simp] theorem boundaryBase_check (s : State) (b : BoundaryEvent) : (s.boundaryBase b).check = s.check :=
  boundaryBase_keeps (·.check) (fun _ _ => rfl) (by simp) s b
@[simp] theorem boundaryBase_draw (s : State) (b : BoundaryEvent) : (s.boundaryBase b).draw = s.draw :=
  boundaryBase_keeps (·.draw) (fun _ _ => rfl) (by simp) s b
@[simp] theorem boundaryBase_trim (s : State) (b : BoundaryEvent) : (s.boundaryBase b).trim = s.trim :=
  boundaryBase_keeps (·.trim) (fun _ _ => rfl) (by simp) s b
@[simp] theorem boundaryBase_pwm (s : State) (b : BoundaryEvent) : (s.boundaryBase b).pwm = s.pwm :=
  boundaryBase_keeps (·.pwm) (fun _ _ => rfl) (by simp) s b
@[simp] theorem boundaryBase_brk (s : State) (b : BoundaryEvent) : (s.boundaryBase b).brk = s.brk :=
  boundaryBase_keeps (·.brk) (fun _ _ => rfl) (by simp) s b
@[simp] theorem boundaryBase_log (s : State) (b : BoundaryEvent) : (s.boundaryBase b).log = s.log :=
  boundaryBase_keeps (·.log) (fun _ _ => rfl) (by simp) s b

/-! ### Places in the round -/

/-- The round of a start edge depends on the link and the Round Timer alone. -/
theorem roundOf_congr {s t : State} {e : Nat} (h : t.link = s.link) (k : t.round = s.round) : t.roundOf e = s.roundOf e := by
  unfold State.roundOf State.inThisRound State.roundFrame; rw [h, k]

theorem inWindow_congr {s t : State} {e : Nat} (h : t.link = s.link) (c : t.config = s.config) (k : t.round = s.round) :
    t.inWindow e = s.inWindow e := by
  unfold State.inWindow State.period State.cfg State.offset; rw [roundOf_congr h k, h, c]

theorem markTaken_congr {s t : State} {e : Nat} (h : t.link = s.link) (c : t.config = s.config) (k : t.round = s.round) :
    t.markTaken e = s.markTaken e := by
  unfold State.markTaken; rw [inWindow_congr h c k, roundOf_congr h k, h]

/-- A start edge of the round under way is placed by it. -/
theorem roundOf_of_le {s : State} {e : Nat} (h : s.round.start ≤ e) : s.roundOf e = s.roundFrame := by
  simp [State.roundOf, State.inThisRound, h]

/-! ### The event that takes a boundary -/

/-- A received character that takes a boundary takes it on the state with its link errors. -/
theorem received_of_receivedBoundary {s t : State} {st : Nat} {c : CharBits} {k : BoundaryKind} {n : BitVec 8}
    (hl : t.link = s.link) (hc : t.config = s.config) (hr : t.round = s.round)
    (h : s.receivedBoundary st c = some (k, n)) : t.received st c = (t.windowErrors c).takeBoundary k n := by
  unfold State.receivedBoundary at h
  unfold State.received State.windowErrors
  split at h
  · rename_i hm
    split at h
    · rename_i ht
      simp only [Option.some.injEq, Prod.mk.injEq] at h
      obtain ⟨rfl, rfl⟩ := h
      simp only [hm, if_true, State.takeMark]
      rw [if_pos]
      rw [markTaken_congr (s := s) (by simp [hl]) (by simp [hc]) (by simp [hr])]
      exact ht
    · simp at h
  · rename_i hm
    split at h
    · rename_i hw
      simp only [Option.some.injEq, Prod.mk.injEq] at h
      obtain ⟨rfl, rfl⟩ := h
      have hm' : (c.mark && c.stop) = false := by simpa using hm
      simp only [hm', Bool.false_eq_true, if_false, State.takeOther]
      rw [if_pos]
      · simp [hr]
      · rw [inWindow_congr (s := s) (by simp [hl]) (by simp [hc]) (by simp [hr])]; exact hw
    · simp at h

/-- Where an event takes a boundary, what it does is that boundary, on its base. -/
theorem boundaryEvent_of_boundaryOf {s : State} {b : BoundaryEvent} {k : BoundaryKind} {n : BitVec 8}
    (h : s.boundaryOf b = some (k, n)) : s.boundaryEvent b = (s.boundaryBase b).takeBoundary k n := by
  cases b with
  | standbyLocal =>
    simp only [State.boundaryOf] at h
    split at h <;> simp_all [State.boundaryEvent, State.standbyLocal, State.boundaryBase]
  | listeningLocal =>
    simp only [State.boundaryOf] at h
    split at h <;> simp_all [State.boundaryEvent, State.listeningLocal, State.boundaryBase]
  | character c =>
    simp only [State.boundaryOf, State.characterBoundary] at h
    simp only [State.boundaryEvent, State.completeCharacter]
    split at h
    · rename_i hd
      simp only [hd, if_true, State.boundaryBase]
      cases htx : s.line.tx with
      | mark m =>
        simp only [htx, Option.some.injEq, Prod.mk.injEq] at h
        obtain ⟨rfl, rfl⟩ := h
        rfl
      | frame r m => simp [htx] at h
      | released => exact received_of_receivedBoundary (s := s) rfl rfl rfl (by simpa [htx] using h)
    · rename_i hd
      split at h
      · rename_i hs
        simp only [hd, hs, if_true, State.boundaryBase]
        exact received_of_receivedBoundary rfl rfl rfl h
      · simp at h

/-! ### The round that a boundary opens -/

/-- The round that a boundary opens, but for whether its frames are assembled and its own slot observed. -/
theorem takeBoundary_round (s : State) (k : BoundaryKind) (n : BitVec 8) :
    (s.takeBoundary k n).round.number = n ∧ (s.takeBoundary k n).round.start = s.now
      ∧ (s.takeBoundary k n).round.windowOpen = false ∧ ((s.takeBoundary k n).round.lost = true ↔ k = .lost)
      ∧ (s.takeBoundary k n).round.slotsClosed = 0 ∧ (s.takeBoundary k n).round.startInWindow = false := by
  simp only [State.takeBoundary, clearBreakMark_round, State.endLeave]
  split <;> simp [State.completeLeave, State.enterStandby, State.sampled, State.linked, State.openRound]

@[simp] theorem takeBoundary_round_number (s : State) (k : BoundaryKind) (n : BitVec 8) :
    (s.takeBoundary k n).round.number = n := (takeBoundary_round s k n).1
@[simp] theorem takeBoundary_round_start (s : State) (k : BoundaryKind) (n : BitVec 8) :
    (s.takeBoundary k n).round.start = s.now := (takeBoundary_round s k n).2.1
@[simp] theorem takeBoundary_round_windowOpen (s : State) (k : BoundaryKind) (n : BitVec 8) :
    (s.takeBoundary k n).round.windowOpen = false := (takeBoundary_round s k n).2.2.1
@[simp] theorem takeBoundary_round_lost (s : State) (k : BoundaryKind) (n : BitVec 8) :
    (s.takeBoundary k n).round.lost = true ↔ k = .lost := (takeBoundary_round s k n).2.2.2.1

/-- The lost-round flag as a boundary leaves it. -/
theorem takeBoundary_round_lost_eq (s : State) (k : BoundaryKind) (n : BitVec 8) :
    (s.takeBoundary k n).round.lost = decide (k = .lost) := by
  have h := (takeBoundary_round s k n).2.2.2.1
  cases hb : (s.takeBoundary k n).round.lost <;> simp_all

/-! ### Which part of a boundary gives which block -/

theorem takeBoundary_chans (s : State) (k : BoundaryKind) (n : BitVec 8) :
    (s.takeBoundary k n).chans = s.measured.chans := by
  simp [State.takeBoundary, State.sampled, State.linked]

theorem takeBoundary_meas (s : State) (k : BoundaryKind) (n : BitVec 8) :
    (s.takeBoundary k n).meas = s.measured.meas := by
  simp [State.takeBoundary, State.sampled, State.linked]

theorem takeBoundary_draw (s : State) (k : BoundaryKind) (n : BitVec 8) :
    (s.takeBoundary k n).draw = (s.linked k n).measureDraw.draw := by
  simp [State.takeBoundary, State.sampled]

theorem takeBoundary_trial (s : State) (k : BoundaryKind) (n : BitVec 8) :
    (s.takeBoundary k n).trial
      = ((s.sampled k n).decide.rampTrims.testIdle (decide ((s.sampled k n).trial.phase = .recovering))).trial := by
  simp [State.takeBoundary, State.trialAndTrims]

/-- A record that the boundary did not find RECOVERING is what the controller decided. -/
theorem takeBoundary_trial_of_not_recovering {s : State} (k : BoundaryKind) (n : BitVec 8)
    (h : s.trial.phase ≠ .recovering) : (s.takeBoundary k n).trial = (s.sampled k n).decide.trial := by
  rw [takeBoundary_trial]; simp [h, State.testIdle]

theorem takeBoundary_lastOutcome (s : State) (k : BoundaryKind) (n : BitVec 8) :
    (s.takeBoundary k n).lastOutcome = (s.sampled k n).decide.lastOutcome := by
  simp [State.takeBoundary, State.trialAndTrims]

theorem takeBoundary_log (s : State) (k : BoundaryKind) (n : BitVec 8) :
    (s.takeBoundary k n).log = (s.sampled k n).decide.log := by
  simp [State.takeBoundary, State.trialAndTrims]

theorem takeBoundary_ownReport (s : State) (k : BoundaryKind) (n : BitVec 8) :
    (s.takeBoundary k n).ownReport = ((s.sampled k n).trialAndTrims).ownReport := by
  simp [State.takeBoundary]

/-- The trims of a boundary: those of the ramp, and the target chosen again when the break mark is cleared. -/
theorem takeBoundary_trim (s : State) (k : BoundaryKind) (n : BitVec 8) :
    (s.takeBoundary k n).trim
      = { (s.sampled k n).decide.rampTrims.trim with
          target := if s.brk.latch then 0
            else (s.sampled k n).decide.trim.trialTarget.getD (s.sampled k n).decide.trim.manual } := by
  simp [State.takeBoundary, State.clearBreakMark, State.reselect, State.trialAndTrims, State.breakInForce]
  simp [State.rampTrims]

/-- The own report, but for its trial fields, is built from the blocks as the boundary leaves them. -/
theorem takeBoundary_ownReport_phase (s : State) (k : BoundaryKind) (n : BitVec 8) :
    (s.takeBoundary k n).ownReport.phase
      = (((s.sampled k n).decide.rampTrims.testIdle (decide ((s.sampled k n).trial.phase = .recovering))).trialFields).1 := by
  simp [takeBoundary_ownReport, State.trialAndTrims, State.buildReport]

/-- The link as a boundary leaves it: counted, or in STANDBY when a leave is complete. -/
theorem takeBoundary_link (s : State) (k : BoundaryKind) (n : BitVec 8) :
    (s.takeBoundary k n).link
      = if (s.measured.linkStep k).link.state = .leaving ∧ (s.measured.linkStep k).link.leave = .sent then
          { state := .standby, listenCount := 0, joinCount := 0, leave := .idle }
        else (s.measured.linkStep k).link := by
  simp only [State.takeBoundary, clearBreakMark_link, State.endLeave]
  simp only [enterOwnEntry_link, trialAndTrims_link, State.sampled, State.linked, takeSample_link, measureDraw_link,
    openRound_link, Bool.and_eq_true, decide_eq_true_eq]
  split
  · simp [State.completeLeave, State.enterStandby]
  · simp

/-- Outside LISTENING the link state machine does nothing at a boundary but end a leave. -/
theorem linkStep_link_of_not_listening {s : State} (k : BoundaryKind) (h : s.link.state ≠ .listening) :
    (s.linkStep k).link = s.link := by
  simp only [State.linkStep, h, if_false]; split <;> simp

/-- In LISTENING a boundary counts. -/
theorem linkStep_link_of_listening {s : State} (k : BoundaryKind) (h : s.link.state = .listening) :
    (s.linkStep k).link = (s.countBoundary k s.round.ownSlot).link := by
  simp only [State.linkStep, h, if_true]; split <;> simp

/-- The roster after the link state machine and the ageing. -/
theorem linkStep_roster (s : State) (k : BoundaryKind) :
    (s.linkStep k).roster = if s.link.state.receives then s.agedRoster else s.roster := by
  simp only [State.linkStep]
  (repeat' split) <;> simp [State.ageRoster, State.agedRoster, State.entry, *]

/-- A boundary is just taken in the state that it leaves. -/
@[simp] theorem takeBoundary_justTaken (s : State) (k : BoundaryKind) (n : BitVec 8) :
    (s.takeBoundary k n).justTaken = true := by simp [State.justTaken]

@[simp] theorem windowErrors_raised {q : Port} (s : State) (c : CharBits) (h : Raised q s) : Raised q (s.windowErrors c) := by
  unfold State.windowErrors; dsimp only; split <;> simp [h]

/-- A boundary changes nothing of the port but event flags that it sets. -/
theorem boundary_raised (s : State) (b : BoundaryEvent) (k : BoundaryKind) (n : BitVec 8) :
    Raised s.port ((s.boundaryBase b).takeBoundary k n) := by
  have h : Raised s.port (s.boundaryBase b) := by
    unfold State.boundaryBase
    cases b <;> dsimp only
    · simp
    · simp
    · (repeat' split) <;> first | exact windowErrors_raised _ _ (raised_self s) | exact raised_self s
  simp [h]

/-- What a boundary has raised by the end of its measurement stands at its end. -/
theorem takeBoundary_raised_measured (s : State) (k : BoundaryKind) (n : BitVec 8) :
    Raised s.measured.port (s.takeBoundary k n) := by
  simp (maxDischargeDepth := 20) [State.takeBoundary, State.sampled, State.linked]

/-- What a boundary has raised by the end of its link step stands at its end. -/
theorem takeBoundary_raised_linkStep (s : State) (k : BoundaryKind) (n : BitVec 8) :
    Raised (s.measured.linkStep k).port (s.takeBoundary k n) := by
  simp (maxDischargeDepth := 20) [State.takeBoundary, State.sampled, State.linked]

/-- What a boundary has raised by its draw stands at its end. -/
theorem takeBoundary_raised_draw (s : State) (k : BoundaryKind) (n : BitVec 8) :
    Raised (s.linked k n).measureDraw.port (s.takeBoundary k n) := by
  simp (maxDischargeDepth := 20) [State.takeBoundary, State.sampled]

/-- What a boundary has raised by the controller's decisions stands at its end. -/
theorem takeBoundary_raised_decide (s : State) (k : BoundaryKind) (n : BitVec 8) :
    Raised (s.sampled k n).decide.port (s.takeBoundary k n) := by
  simp (maxDischargeDepth := 20) [State.takeBoundary, State.trialAndTrims]

@[simp] theorem sampled_link (s : State) (k : BoundaryKind) (n : BitVec 8) :
    (s.sampled k n).link = (s.measured.linkStep k).link := by simp [State.sampled, State.linked]

@[simp] theorem sampled_roster (s : State) (k : BoundaryKind) (n : BitVec 8) :
    (s.sampled k n).roster = (s.measured.linkStep k).roster := by simp [State.sampled, State.linked]

theorem length_linkStep {s : State} (k : BoundaryKind) (h : s.roster.length = 16) :
    (s.measured.linkStep k).roster.length = 16 := by
  rw [linkStep_roster]; split <;> simp [h]

/-- A leave is complete at this boundary. -/
theorem takeBoundary_entry_of_left {s : State} {k : BoundaryKind} (n : BitVec 8) (u : Station)
    (h : (s.measured.linkStep k).link.state = .leaving) (h' : (s.measured.linkStep k).link.leave = .sent) :
    (s.takeBoundary k n).entry u = Entry.cleared := by
  rw [State.takeBoundary, entry_congr (clearBreakMark_roster _), State.endLeave, if_pos (by simp [h, h'])]
  simp

/-- The roster as a boundary that ends no leave leaves it, entry by entry. -/
theorem takeBoundary_entry {s : State} {k : BoundaryKind} (n : BitVec 8) (u : Station) (hlen : s.roster.length = 16)
    (h : ¬((s.measured.linkStep k).link.state = .leaving ∧ (s.measured.linkStep k).link.leave = .sent)) :
    (s.takeBoundary k n).entry u
      = if (s.link.state = .listening ∧ (s.measured.linkStep k).link.state = .active) ∧ u = s.station then
          { presence := .present, miss := 0, heard := false, lastRound := n, report := (s.takeBoundary k n).ownReport }
        else (s.measured.linkStep k).entry u := by
  have he : (s.takeBoundary k n).entry u = ((s.sampled k n).trialAndTrims.enterOwnEntry s.link.state).entry u := by
    rw [State.takeBoundary, entry_congr (clearBreakMark_roster _), State.endLeave, if_neg (by simpa using h)]
  have hroster : ((s.sampled k n).trialAndTrims).roster = (s.measured.linkStep k).roster := by simp
  rw [he, State.enterOwnEntry]
  by_cases hown : s.link.state = .listening ∧ (s.measured.linkStep k).link.state = .active
  · rw [if_pos (by simp [hown]), State.writeOwnEntry, entry_setEntry _ _ _ (by rw [hroster]; exact length_linkStep k hlen)]
    by_cases hu : u = s.station
    · rw [if_pos (by simpa using hu), if_pos ⟨hown, hu⟩]
      simp [takeBoundary_ownReport, State.sampled, State.linked, State.openRound]
    · rw [if_neg (by simpa using hu), if_neg (fun h => hu h.2)]
      exact entry_congr hroster u
  · rw [if_neg (by simpa using hown), if_neg (fun h => hown h.1)]
    exact entry_congr hroster u

/-- A row that comes about at a boundary answers that boundary's state. -/
theorem whenComesAbout_of {s : State} {b : BoundaryEvent} {k : BoundaryKind} {n : BitVec 8}
    {row : State → State → Bool} (h : s.boundaryOf b = some (k, n))
    (hr : row s ((s.boundaryBase b).takeBoundary k n) = true) :
    s.whenComesAbout b row = (s.boundaryBase b).takeBoundary k n := by
  simp [State.whenComesAbout, boundaryEvent_of_boundaryOf h, hr]

/-! ### LOG_CLOSED at a boundary: the Trial Controller's decisions alone raise it (R162) -/

theorem linkErrorIf_logClosed (s : State) (p : Bool) (e : LinkError) :
    (s.linkErrorIf p e).hasEvent .logClosed = s.hasEvent .logClosed := by
  unfold State.linkErrorIf State.linkError; split
  · rw [hasEvent_raiseIf_of_ne _ _ (by decide)]; rfl
  · rfl

theorem linkError_logClosed (s : State) (e : LinkError) :
    (s.linkError e).hasEvent .logClosed = s.hasEvent .logClosed := by
  unfold State.linkError; rw [hasEvent_raiseIf_of_ne _ _ (by decide)]; rfl

theorem boundaryBase_logClosed (s : State) (b : BoundaryEvent) :
    (s.boundaryBase b).hasEvent .logClosed = s.hasEvent .logClosed :=
  boundaryBase_keeps (·.hasEvent .logClosed) (fun _ _ => rfl) linkError_logClosed s b

theorem dropAttempt_logClosed (s : State) : s.dropAttempt.hasEvent .logClosed = s.hasEvent .logClosed := by
  unfold State.dropAttempt; split
  · rfl
  · rw [linkErrorIf_logClosed]; rfl

theorem latchFault_logClosed (s : State) (n : Channel) (c : FaultCause) :
    (s.latchFault n c).hasEvent .logClosed = s.hasEvent .logClosed := by
  have h : ((s.setChannel n (.faulted c)).raise .channelFault).hasEvent .logClosed = s.hasEvent .logClosed := by
    rw [hasEvent_raise_of_ne _ (by decide)]; rfl
  unfold State.latchFault State.leaveReady
  split
  · unfold State.endCheck
    rw [hasEvent_raise_of_ne _ (by decide)]; exact h
  · exact h

theorem judgeChannels_logClosed (s : State) : s.judgeChannels.hasEvent .logClosed = s.hasEvent .logClosed := by
  have step : ∀ (t : State) (n : Channel) (f : Option FaultCause) (k : Nat),
      (match f with
        | some cause => (t.setSlip n 0).latchFault n cause
        | none => t.setSlip n k : State).hasEvent .logClosed = t.hasEvent .logClosed := by
    intro t n f k
    cases f with
    | none => rfl
    | some c => exact latchFault_logClosed (t.setSlip n 0) n c
  have fold : ∀ (l : List Channel) (g : State → Channel → State),
      (∀ t n, (g t n).hasEvent .logClosed = t.hasEvent .logClosed) →
      ∀ t : State, (l.foldl g t).hasEvent .logClosed = t.hasEvent .logClosed := by
    intro l g hg
    induction l with
    | nil => intro t; rfl
    | cons n r ih => intro t; exact (ih _).trans (hg t n)
  exact fold _ _ (fun t n => step t n _ _) s

theorem measured_logClosed (s : State) : s.measured.hasEvent .logClosed = s.hasEvent .logClosed := by
  have hj : ∀ t : State, t.judgeShares.hasEvent .logClosed = t.hasEvent .logClosed := by
    intro t; unfold State.judgeShares; split
    · dsimp only; rw [hasEvent_raiseIf_of_ne _ _ (by decide)]; exact hasEvent_congr rfl _
    · rfl
  rw [State.measured, State.measure, hj, hasEvent_congr (sectionValues_port _), judgeChannels_logClosed,
    hasEvent_congr (handOver_port _ _), dropAttempt_logClosed]

theorem linkStep_logClosed (s : State) (k : BoundaryKind) :
    (s.linkStep k).hasEvent .logClosed = s.hasEvent .logClosed := by
  have hc : ∀ (t : State) (o : SlotObservation), (t.countBoundary k o).hasEvent .logClosed = t.hasEvent .logClosed := by
    intro t o; unfold State.countBoundary; dsimp only; split
    · rw [hasEvent_raise_of_ne _ (by decide)]; rfl
    · rfl
  have ha : ∀ t : State, t.ageRoster.hasEvent .logClosed = t.hasEvent .logClosed := by
    intro t; unfold State.ageRoster; rw [hasEvent_raiseIf_of_ne _ _ (by decide)]; rfl
  unfold State.linkStep; dsimp only
  repeat' split
  all_goals simp [hc, ha]

/-- What a boundary does before the controller's decisions raises no LOG_CLOSED. -/
theorem sampled_logClosed (s : State) (k : BoundaryKind) (n : BitVec 8) :
    (s.sampled k n).hasEvent .logClosed = s.hasEvent .logClosed := by
  have hd : ∀ t : State, t.measureDraw.hasEvent .logClosed = t.hasEvent .logClosed := by
    intro t; unfold State.measureDraw; dsimp only; split
    · rfl
    · rw [hasEvent_raiseIf_of_ne _ _ (by decide)]; rfl
  exact (hd _).trans ((linkStep_logClosed _ _).trans (measured_logClosed s))

/-- What a boundary does after the controller's decisions raises none, for a record that it did not find RECOVERING. -/
theorem takeBoundary_logClosed {s : State} (k : BoundaryKind) (n : BitVec 8) (h : s.trial.phase ≠ .recovering) :
    (s.takeBoundary k n).hasEvent .logClosed = (s.sampled k n).decide.hasEvent .logClosed := by
  have ht : (s.sampled k n).trialAndTrims.hasEvent .logClosed = (s.sampled k n).decide.hasEvent .logClosed := by
    have hr : (decide ((s.sampled k n).trial.phase = .recovering)) = false := by simpa using h
    refine hasEvent_congr ?_ _
    rw [State.trialAndTrims, hr, State.testIdle, if_neg (by simp)]; simp
  have he : ∀ t : State, t.endLeave.hasEvent .logClosed = t.hasEvent .logClosed := by
    intro t; unfold State.endLeave; split
    · unfold State.completeLeave State.enterStandby State.clearRoster
      rw [hasEvent_raise_of_ne _ (by decide), hasEvent_raiseIf_of_ne _ _ (by decide)]; rfl
    · rfl
  unfold State.takeBoundary
  rw [hasEvent_congr (clearBreakMark_port _), he, hasEvent_congr (enterOwnEntry_port _ _), ht]

end Sys2Proof.Machine
end

