-- ==== Sys2Proof/Laws/Trial.lean ====
section
/-! SUPPORT. What the Trial Controller's operations do to the record, the trims and the log, said once. -/

namespace Sys2Proof.Machine

set_option Elab.async false

/-! ### Trims (R130 to R134) -/

theorem reselect_trim (s : State) :
    s.reselect.trim
      = { s.trim with target := if s.brk.latch || s.brk.mark then 0 else s.trim.trialTarget.getD s.trim.manual } := rfl

theorem setManual_trim (s : State) (v : Int) :
    (s.setManual v).trim
      = { s.trim with manual := v, target := if s.brk.latch || s.brk.mark then 0 else s.trim.trialTarget.getD v } := rfl

theorem present_trim (s : State) (v w : Int) (d : Option Channel) (c : RampClass) :
    (s.present v w d c).trim
      = { s.trim with
          trialTarget := if v = 0 then none else some v
          target := if s.brk.latch || s.brk.mark then 0 else (if v = 0 then none else some v).getD s.trim.manual
          shiftTarget := w, drive := d.getD s.trim.drive
          cls := if s.brk.latch then .recovery else c } := rfl

/-! ### The record -/

theorem enterRecovering_trial (s : State) (owed : Nat) (cause : Byte) (origin : Station) :
    (s.enterRecovering owed cause origin).trial
      = { s.trial with phase := .recovering, abortsOwed := owed, abortCause := cause, abortOrigin := origin,
                       request := .none, refusing := false } := rfl

theorem enterRecovering_trim (s : State) (owed : Nat) (cause : Byte) (origin : Station) :
    (s.enterRecovering owed cause origin).trim = (s.setManual 0).trim := rfl

theorem withdraw_trial (s : State) (code : Byte) (st : Station) :
    (s.withdraw code st).trial = (s.enterRecovering 3 Reason.withdrawn.code s.station).trial := rfl

theorem withdraw_lastOutcome (s : State) (code : Byte) (st : Station) :
    (s.withdraw code st).lastOutcome = { outcome := .withdrawn, id := s.trial.id, code := code, station := st } := rfl

theorem abortTrial_trial (s : State) (owed : Nat) (cause : Byte) (origin : Station) :
    (s.abortTrial owed cause origin).trial = (s.enterRecovering owed cause origin).trial := by
  simp only [State.abortTrial]; split <;> simp

theorem abortTrial_lastOutcome (s : State) (owed : Nat) (cause : Byte) (origin : Station) :
    (s.abortTrial owed cause origin).lastOutcome
      = { outcome := .aborted, id := s.trial.id, code := cause, station := origin } := by
  simp only [State.abortTrial]; split <;> simp [State.writeOutcome]

theorem abortTrial_trim (s : State) (owed : Nat) (cause : Byte) (origin : Station) :
    (s.abortTrial owed cause origin).trim = ((s.setManual 0).present 0 0 none .recovery).trim := by
  simp only [State.abortTrial]; split <;> simp [present_trim, enterRecovering_trim] <;> rfl

/-- What an abort does to the log. -/
theorem abortTrial_log (s : State) (owed : Nat) (cause : Byte) (origin : Station) :
    (s.abortTrial owed cause origin).log
      = if s.isMember = true ∧ s.underWay = true ∧ s.log.records.length < Config.logCapacity then
          { s.log with
            records := s.log.records ++ [{ seq := s.log.counter, type := .close, id := s.trial.id, sample := s.log.last,
                                           outcome := .aborted, cause := cause, origin := origin }]
            counter := s.log.counter + 1 }
        else s.log := by
  simp only [State.abortTrial]
  cases s.isMember <;> cases s.underWay <;> simp [State.appendClose, appendRecord_log]
  all_goals rfl

/-- An abort sets LOG_CLOSED when it appends its CLOSE record, and leaves the flag otherwise (R162). -/
theorem abortTrial_logClosed (s : State) (owed : Nat) (cause : Byte) (origin : Station) :
    (s.abortTrial owed cause origin).hasEvent .logClosed
      = if s.isMember = true ∧ s.underWay = true ∧ s.log.records.length < Config.logCapacity then true
        else s.hasEvent .logClosed := by
  have h : (((s.enterRecovering owed cause origin).present 0 0 none .recovery).writeOutcome .aborted s.trial.id cause
      origin).hasEvent .logClosed = s.hasEvent .logClosed := by
    unfold State.writeOutcome; rw [hasEvent_raise_of_ne _ (by decide)]; exact hasEvent_congr (by simp) _
  have ha : ∀ (t : State) (i : TrialId) (m : Sample) (o : TrialOutcome) (c : Byte) (g : Station),
      (t.appendRecord .close i m o c g).hasEvent .logClosed = t.hasEvent .logClosed :=
    fun t i m o c g => hasEvent_congr (by simp) _
  simp only [State.abortTrial]
  by_cases hm : s.isMember = true ∧ s.underWay = true
  · simp only [hm, Bool.and_self, if_true, State.appendClose, State.raiseIf]
    by_cases hl : s.log.records.length < Config.logCapacity
    · simp [hl]
    · simp [hl, ha, h]
  · have hm' : (s.isMember && s.underWay) = false := by
      cases h1 : s.isMember <;> cases h2 : s.underWay <;> simp_all
    have hn : ¬(s.isMember = true ∧ s.underWay = true ∧ s.log.records.length < Config.logCapacity) := fun x => hm ⟨x.1, x.2.1⟩
    rw [hm', if_neg hn]; exact h

/-- A GO that a member takes unready, or that any node takes from three rounds on, is aborted from SCHEDULED (R58, R65). -/
theorem takeGo_aborts (s : State) (start : BitVec 8) :
    ∃ sched : State, sched.trial.phase = .scheduled ∧ sched.trial.id = s.trial.id ∧ sched.isMember = s.isMember
      ∧ sched.station = s.station ∧ sched.log = s.log ∧ sched.port = s.port
      ∧ (3 ≤ s.startDistance start → s.takeGo start = sched.abortOwn .missedGo)
      ∧ (s.startDistance start < 3 → s.isMember = true →
          ((s.ineligible (if s.startDistance start = 0 then s.trim.applied else s.rampedTrim)).isSome = true
            ∨ s.trial.refusing = true ∨ s.ownReport.phase = .refuse) →
          s.takeGo start = sched.abortOwn .notReady) := by
  refine ⟨{ s with trial := { s.trial with
        phase := .scheduled, startRound := start
        watched := stationSet fun t => s.trial.params.inSpan t && (s.entry t).presence = .present
        readySet := if s.isMember then s.readySet else 0 } }, rfl, rfl, rfl, rfl, rfl, rfl, fun h => ?_, fun h hm hu => ?_⟩
  · rw [State.takeGo]; dsimp only; rw [if_pos h]
  · rw [State.takeGo]; dsimp only; rw [if_neg (Nat.not_le.mpr h), if_pos]
    simp only [hm, Bool.true_and, Bool.or_eq_true, decide_eq_true_eq]
    rcases hu with hu | hu | hu
    · exact .inl (.inl hu)
    · exact .inl (.inr hu)
    · exact .inr hu

theorem startTrial_trial (s : State) :
    s.startTrial.trial = { s.trial with phase := .running, remaining := s.trial.params.duration } := by
  simp only [State.startTrial]; (repeat' split) <;> simp

/-- What the start gives the trims: a step at its target, nothing elsewhere. -/
theorem startTrial_trim (s : State) :
    s.startTrial.trim
      = if s.trial.params.target = s.station then
          match s.trial.params.kind with
          | .drawStep => (s.present s.trial.params.step 0 none .trial).trim
          | .shareStep => (s.present 0 s.trial.params.step (some s.trial.params.drive) .trial).trim
          | .watch => s.trim
          | .none => s.trim
        else s.trim := by
  unfold State.startTrial
  cases s.isMember <;> cases s.trial.params.kind <;> simp <;> split <;> simp [present_trim] <;> rfl

theorem startTrial_log (s : State) :
    s.startTrial.log = if s.isMember then (s.moveRing s.trial.id).log else s.log := by
  have h : ∀ (l : List Sample) (i : TrialId) (t u : State), t.log = u.log →
      (l.foldl (fun t m => t.appendRecord .pre i m .none 0 0) t).log
        = (l.foldl (fun t m => t.appendRecord .pre i m .none 0 0) u).log := by
    intro l i
    induction l with
    | nil => intro t u h; exact h
    | cons m r ih => intro t u h; exact ih _ _ (by simp only [appendRecord_log, h])
  have hm : ∀ (i : TrialId) (t u : State), t.log = u.log → (t.moveRing i).log = (u.moveRing i).log := by
    intro i t u hl; simp only [State.moveRing, hl, h _ i t u hl]
  have key : ∀ x : State, x.log = s.log → (x.moveRing s.trial.id).log = (s.moveRing s.trial.id).log :=
    fun x hx => hm _ _ _ hx
  unfold State.startTrial
  dsimp only
  (repeat' split) <;> first
    | rfl
    | (rw [present_log]; exact key _ rfl)
    | exact key _ rfl

theorem startTrial_raised_start (s : State) :
    Raised (State.raise { s with trial := { s.trial with phase := .running, remaining := s.trial.params.duration } }
      .trialStart).port s.startTrial := by
  simp only [State.startTrial]; (repeat' split) <;> simp (maxDischargeDepth := 20)

/-- The ring becomes as many PRE records when there is room for them. -/
theorem moveRing_length (s : State) (i : TrialId) (h : s.log.records.length + s.log.ring.length ≤ Config.logCapacity) :
    (s.moveRing i).log.records.length = s.log.records.length + s.log.ring.length := by
  have key : ∀ (l : List Sample) (t : State), t.log.records.length + l.length ≤ Config.logCapacity →
      (l.foldl (fun t m => t.appendRecord .pre i m .none 0 0) t).log.records.length = t.log.records.length + l.length := by
    intro l
    induction l with
    | nil => intro t _; rfl
    | cons m r ih =>
      intro t ht
      simp only [List.length_cons] at ht
      have hl : t.log.records.length < Config.logCapacity := by omega
      rw [List.foldl_cons, ih]
      · simp [appendRecord_log, hl]; omega
      · simp [appendRecord_log, hl]; omega
  exact key _ _ h

@[simp] theorem moveRing_ring (s : State) (i : TrialId) : (s.moveRing i).log.ring = [] := rfl

theorem completeTrial_trial (s : State) :
    s.completeTrial.trial
      = { s.trial with phase := .recovering, abortsOwed := 0, abortCause := 0, abortOrigin := 0, request := .none,
                       refusing := false } := by
  simp only [State.completeTrial]; split <;> simp [enterRecovering_trial]

theorem completeTrial_trim (s : State) : s.completeTrial.trim = ((s.present 0 0 none .normal).setManual 0).trim := by
  simp only [State.completeTrial]; split <;> simp [enterRecovering_trim, setManual_trim, present_trim]

theorem completeTrial_lastOutcome (s : State) :
    s.completeTrial.lastOutcome = { outcome := .completed, id := s.trial.id, code := 0, station := s.trial.id.proposer } := by
  simp only [State.completeTrial]; split <;> simp [State.writeOutcome]

/-! ### The decision of a boundary -/

/-- The decision of a boundary is made on `decisionAt`. -/
theorem decide_eq_decisionAt (s : State) (b : BoundaryEvent) (k : BoundaryKind) (n : BitVec 8) :
    ((s.boundaryBase b).sampled k n).decide = (s.decisionAt b k n).decidePhase := rfl

/-- The record that a boundary decides on: the CLOSE record it owed is appended, and it is one boundary older unless it
is IDLE. -/
theorem decisionAt_trial (s : State) (b : BoundaryEvent) (k : BoundaryKind) (n : BitVec 8) :
    (s.decisionAt b k n).trial
      = if s.trial.phase = .idle then { s.trial with linkCloseOwed := false }
        else { s.trial with linkCloseOwed := false, count := s.trial.count + 1 } := by
  simp only [State.decisionAt, State.atDecision, State.countBoundaries, State.closeLink]
  by_cases h1 : s.trial.linkCloseOwed = true
  · simp [h1]; split <;> simp
  · have h2 : s.trial.linkCloseOwed = false := by simpa using h1
    simp [h1]; split <;> simp [← h2]

/-- Where no CLOSE record is owed, the controller decides on the log as the boundary found it, but for the new sample. -/
theorem decisionAt_log_of_not_owed (s : State) (b : BoundaryEvent) (k : BoundaryKind) (n : BitVec 8)
    (h : s.trial.linkCloseOwed = false) :
    (s.decisionAt b k n).log.records = s.log.records ∧ (s.decisionAt b k n).log.counter = s.log.counter
      ∧ (s.decisionAt b k n).hasEvent .logClosed = s.hasEvent .logClosed := by
  have hc : s.decisionAt b k n = ((s.boundaryBase b).sampled k n).countBoundaries := by
    rw [State.decisionAt, State.atDecision, State.closeLink, if_neg (by simp [h])]
  have hp : (s.decisionAt b k n).port = ((s.boundaryBase b).sampled k n).port := by rw [hc]; simp
  have hl : (s.decisionAt b k n).log = ((s.boundaryBase b).sampled k n).log := by rw [hc]; simp
  refine ⟨?_, ?_, ?_⟩
  · rw [hl]; simp [State.sampled, State.takeSample, State.linked]
  · rw [hl]; simp [State.sampled, State.takeSample, State.linked]
  · rw [hasEvent_congr hp, sampled_logClosed, boundaryBase_logClosed]

@[simp] theorem decisionAt_station (s : State) (b : BoundaryEvent) (k : BoundaryKind) (n : BitVec 8) :
    (s.decisionAt b k n).station = s.station := by simp [State.decisionAt]

@[simp] theorem decisionAt_brk (s : State) (b : BoundaryEvent) (k : BoundaryKind) (n : BitVec 8) :
    (s.decisionAt b k n).brk = s.brk := by simp [State.decisionAt]

@[simp] theorem decisionAt_trim (s : State) (b : BoundaryEvent) (k : BoundaryKind) (n : BitVec 8) :
    (s.decisionAt b k n).trim = s.trim := by simp [State.decisionAt]

@[simp] theorem decisionAt_config (s : State) (b : BoundaryEvent) (k : BoundaryKind) (n : BitVec 8) :
    (s.decisionAt b k n).config = s.config := by simp [State.decisionAt]

@[simp] theorem decisionAt_round_number (s : State) (b : BoundaryEvent) (k : BoundaryKind) (n : BitVec 8) :
    (s.decisionAt b k n).round.number = n := by simp [State.decisionAt, State.sampled, State.linked, State.openRound]

/-- What a guarded record does when no abort condition holds and no ABORT is heard. -/
theorem guarded_goes (s : State) (go : State → State) (h : s.abortCondition = none) (k : s.heardAbort = none) :
    s.guarded go = go s.refreshReady := by
  simp [State.guarded, h, k]

/-- The claims heard depend on the roster and the station alone. -/
theorem heardClaims_congr {s t : State} (h : s.roster = t.roster) (k : s.station = t.station) :
    s.heardClaims = t.heardClaims := by
  unfold State.heardClaims State.heardClaim State.heard State.entry; rw [h, k]

end Sys2Proof.Machine
end

