-- ==== Sys2Proof/WellFormed.lean ====
section
/-! DEFINITION. When a command is well formed: a row that comes about at a round boundary names a boundary it can
come about at. The operands' ranges are in their types. -/

namespace Sys2Proof

/-- Boundaries at which a node that takes part in the link can stand: ACTIVE and LEAVING take theirs from
characters alone (R11 to R15). -/
def BoundaryEvent.isCharacter : BoundaryEvent → Bool
  | .character _ => true
  | .standbyLocal => false
  | .listeningLocal => false

/-- Boundaries at which the roster is aged: those of LISTENING, ACTIVE and LEAVING (R38). -/
def BoundaryEvent.agesRoster : BoundaryEvent → Bool
  | .character _ => true
  | .standbyLocal => false
  | .listeningLocal => true

/-- A character that can be a valid mark: mark bit and stop bit recessive (R3). -/
def BoundaryEvent.isMark : BoundaryEvent → Bool
  | .character c => c.mark && c.stop
  | .standbyLocal => false
  | .listeningLocal => false

/-- The listen timeout is reached at a LISTENING local boundary and nowhere else (R25, R26). -/
def BoundaryEvent.isListeningLocal : BoundaryEvent → Bool
  | .listeningLocal => true
  | .character _ => false
  | .standbyLocal => false

/-- The check of every command: the boundary that a row names. -/
def Instr.wellFormed : Instr → Bool
  | .entrySilent _ b _ => b.agesRoster
  | .entryAgedOut _ b _ => b.agesRoster
  | .listenTimeout _ b => b.isListeningLocal
  | .joinQualified _ b => b.isMark
  | .leaveComplete _ b => b.isCharacter
  | .claimBoundary _ b => b.isCharacter
  | .claimLapsed _ b => b.isCharacter
  | .noQuorum _ b => b.isCharacter
  | .trialStart _ b => b.isCharacter
  | .trialCompleted _ b => b.isCharacter
  | .powerOnReset _ | .powerOnResetEnd _ _ | .resetPinAssert _ | .resetPinRelease _ _ | .powerLoss _ => true
  | .transactionStart _ | .transactionEnd _ _ | .readLogReadoutComplete _ => true
  | .unknownRequest _ | .nop _ | .readStatus _ _ | .readEvents _ | .setEventMask _ | .readLinkErrors _ => true
  | .clearLinkErrors _ | .readLog _ | .readTrial _ | .readRoster _ | .configure _ | .join _ | .leave _ => true
  | .proposeTrial _ | .abortTrial _ | .manualTrim _ | .snap _ | .flushLog _ | .revCheck _ | .cancelCheck _ => true
  | .readCheck _ | .clearFaults _ | .clearBreak _ | .softReset _ => true
  | .characterStart _ _ | .characterComplete _ _ | .readbackMismatch _ | .markWindowOpen _ | .origination _ => true
  | .standbyLocalBoundary _ | .listeningLocalBoundary _ | .ownSlotOpen _ | .slotWindowClose _ => true
  | .speedEdge _ _ _ | .loadEdge _ _ | .indexEdge _ _ | .rdyChange _ _ | .fltChange _ _ | .brkChange _ => true
  | .stall _ _ | .indexTimeout _ | .pwmPeriodStart _ | .pwmHighTimeEnd _ _ => true
  | .slip _ _ _ | .shareAlarm _ _ | .shareAlarmClear _ _ | .drawAlarm _ _ | .drawAlarmClear _ _ => true
  | .recoveryDone _ _ => true
  | .fastFilterFallingEdge _ _ _ | .slowFilterSample _ _ => true

end Sys2Proof
end

