-- ==== Sys2Proof/Tests/Slice0.lean ====
section
/-! SUPPORT. Tests: an ill-formed term for each check, the spec's worked examples, and for each obligation with hypotheses
a concrete state that meets them. -/

namespace Sys2Proof.Tests

open Sys2Proof.Machine

set_option Elab.async false

/-- A wait of n µs in which every raw line is low. -/
def still (n : Nat) : Wait := [⟨n, ⟨0, 0, 0⟩, 0⟩]

/-- The next state that a command answers. -/
def after (c : Instr) (s : State) : State :=
  match exec c s with
  | .next t => t
  | _ => s

/-! ### Ill-formed commands: a row named with a boundary it cannot come about at -/

theorem test_illFormed_entrySilent : (Instr.entrySilent [] .standbyLocal 3).wellFormed = false := by decide
theorem test_illFormed_entryAgedOut : (Instr.entryAgedOut [] .standbyLocal 3).wellFormed = false := by decide
theorem test_illFormed_listenTimeout : (Instr.listenTimeout [] .standbyLocal).wellFormed = false := by decide
theorem test_illFormed_joinQualified : (Instr.joinQualified [] (.character ⟨7, false, true⟩)).wellFormed = false := by decide
theorem test_illFormed_leaveComplete : (Instr.leaveComplete [] .listeningLocal).wellFormed = false := by decide
theorem test_illFormed_claimBoundary : (Instr.claimBoundary [] .listeningLocal).wellFormed = false := by decide
theorem test_illFormed_claimLapsed : (Instr.claimLapsed [] .standbyLocal).wellFormed = false := by decide
theorem test_illFormed_noQuorum : (Instr.noQuorum [] .standbyLocal).wellFormed = false := by decide
theorem test_illFormed_trialStart : (Instr.trialStart [] .standbyLocal).wellFormed = false := by decide
theorem test_illFormed_trialCompleted : (Instr.trialCompleted [] .listeningLocal).wellFormed = false := by decide

/-! ### The spec's worked examples -/

/-- 12, A frame as sent. -/
theorem test_frameAsSent :
    Report.frame
        { Report.empty with
          station := 6, readyCount := 2, phase := .run, speed := 60420#24, load := 512#16, trim := 30#16, id := ⟨6, 4⟩
          params := ⟨TrialParams.byteA ⟨.drawStep, 5, 7, 6, 0, 40, 3⟩, TrialParams.byteB ⟨.drawStep, 5, 7, 6, 0, 40, 3⟩, 0x28, 3⟩ }
      = [0x06, 0x52, 0x00, 0xEC, 0x04, 0x02, 0x00, 0x00, 0x1E, 0x64, 0x86, 0x57, 0x28, 0x03, 0x2C] := by decide

/-- 12, the log record, READ_TRIAL and READ_CHECK, byte by byte. -/
theorem test_bodies :
    let m : Sample :=
      { round := 9, speed := some 60420, load := none, loads := ⟨some 1, some (-2), none, some 3⟩, ready := 5,
        draw := -39, drawUndefined := false, trim := 30, brk := true, alarm := false, lost := true }
    LogRecord.bytes { seq := 0x0102, type := .close, id := ⟨6, 4⟩, sample := m, outcome := .aborted, cause := 13, origin := 7 }
        = [0x01, 0x02, 0xA3, 0x64, 9, 0x00, 0xEC, 0x04, 0x80, 0x00, 0xFF, 0xD9, 0x00, 0x1E, 0, 1, 0xFF, 0xFE, 0x80, 0x00, 0, 3,
            0x75, 0x8D]
      ∧ State.trialBytes { State.reset with
            trial := { TrialRecord.empty with
              phase := .running, role := .member, id := ⟨6, 4⟩, params := ⟨.shareStep, 5, 7, 6, 2, -9, 200⟩, startRound := 77
              remaining := 66, required := 0x0102, accepted := 0x0304, watched := 0x0506, readySet := 11, count := 255
              abortsOwed := 3, request := .abort, refusing := true }
            lastOutcome := ⟨.withdrawn, ⟨1, 2⟩, 19, 15⟩ }
          = [4, 2, 0x64, 3, 2, 6, 5, 7, 0xF7, 200, 77, 66, 1, 2, 3, 4, 5, 6, 11, 255, 3, 2, 1, 3, 0x12, 19, 15]
      ∧ State.checkBytes { State.reset with
            check := ⟨.done, 0, -5, .incomplete .noIndex, .stopped 60000000, 0, 0x01020304⟩ }
          = [3, 0, 0, 0, 0xFF, 0xFF, 0xFB, 4, 2, 0xEA, 0x60, 1, 2, 3, 4] := by decide +kernel

/-- 08, A share step overtaken: the splits at s, s + 3 and s + 4, and their high times. -/
theorem test_splits :
    (channels.map fun n => splitShare (fun _ => true) 25 1 n) = [-9, 25, -8, -8]
      ∧ (channels.map fun n => splitShare (fun n => n != 3) 15 1 n) = [-8, 15, -7, 0]
      ∧ (channels.map fun n => splitShare (fun n => n != 3) 5 1 n) = [-3, 5, -2, 0]
      ∧ (channels.map fun n => shtHigh (splitShare (fun _ => true) 25 1 n)) = [482, 550, 484, 484] := by decide

/-- 08, The dither frame at a trim of −125. -/
theorem test_dither :
    (stations.map fun i => trmPeriod (trmHigh (-125)) i)
      = [454, 453, 453, 453, 453, 453, 453, 453, 454, 453, 453, 453, 453, 453, 453, 453] := by decide

/-- 07, A draw step seen from both sides. -/
theorem test_draws : drawOf 60420 60000 = 70 ∧ drawOf 60780 60000 = 130 ∧ drawOf 60900 60780 = 19 ∧ drawOf 60900 61140 = -39 := by
  decide

/-! ### The states of the tests -/

/-- The channels of the section of the slipping-drive example of 05. -/
def section3 : Quad ChannelConfig :=
  ⟨⟨125000, 400, 2048, 1000, 11000⟩, ⟨125000, 400, 2048, 1000, 11000⟩, ⟨125000, 200, 2048, 1000, 11000⟩, ⟨0, 0, 0, 0, 0⟩⟩

/-- A configuration record: P = 10 ms, three drives, upstream 4, the limits of the examples. -/
def record : ConfigRecord :=
  { periodCode := 1, upstream := some 4, driveCount := 3, chan := section3, fastWidth := 3, slowTime := 20,
    stallTime := 300, minSpeed := 1000, minLoad := 100, slipTolerance := 50, shareTolerance := 60, softLow := 20,
    softHigh := 120, hardLow := -40, hardHigh := 180, trimLimit := 200, shareTrimLimit := 40, rampNormal := 10,
    rampTrial := 30, rampRecovery := 50, separateRamps := true }

/-- A configured node of station 5 in a link state, three channels READY, its last boundary at instant 0. -/
def at_ (l : LinkState) : State :=
  { State.reset with
    station := 5, config := some record, chans := ⟨.ready, .ready, .ready, .disabled⟩
    link := { state := l, listenCount := 0, joinCount := 0, leave := .idle }
    round := { RoundTimer.reset with number := 9 } }

/-- An entry whose report was heard in the round that closes. -/
def heard (r : Report) : Entry := { presence := .present, miss := 0, heard := true, lastRound := 9, report := r }

/-- A report of a station that runs at 600 m/min. -/
def running (t : Station) (ph : TrialPhase) (id : TrialId) (p : ParamBytes) : Report :=
  { Report.empty with station := t, readyCount := 3, speed := 60000#24, phase := ph, id := id, params := p }

/-- An ACTIVE node in a synchronised round that hears station 4. -/
def active : State :=
  { at_ .active with
    round := { RoundTimer.reset with number := 9, synced := true, ownSlot := .heard }
    roster := [.cleared, .cleared, .cleared, .cleared, heard (running 4 .none .zero ⟨0, 0, 0, 0⟩),
      { Entry.cleared with presence := .present }, .cleared, .cleared, .cleared, .cleared, .cleared, .cleared, .cleared,
      .cleared, .cleared, .cleared] }

/-- A request in execution. -/
def asks (q : Request) (p : List Byte) (s : State) : State :=
  { s with port := { s.port with srdy := false, request := q.code :: p } }

/-- A received character under way that began at an instant. -/
def receiving (start : Nat) (s : State) : State := { s with line := { s.line with rx := some start } }

/-- The mark of the next round, complete at 10,100 µs. -/
def mark : BoundaryEvent := .character ⟨10, true, true⟩

/-- The trial of station 5: a DRAW_STEP of +60 at itself over itself alone. -/
def step60 : TrialParams := { kind := .drawStep, spanFirst := 5, spanLast := 5, target := 5, drive := 0, step := 60, duration := 5 }

/-- A trial record of that trial in a phase. -/
def tracked (ph : LocalPhase) : TrialRecord :=
  { TrialRecord.empty with phase := ph, role := .proposerMember, id := ⟨5, 1⟩, params := step60 }

/-- An ACTIVE node with that record, whose mark completes 10,100 µs after the boundary. -/
def withTrial (t : TrialRecord) : State := { receiving 10078 active with trial := t }

/-! ### Steps, resets and the port -/

theorem test_queue :
    ({ State.reset with pending := [.nop [], .join []] } : State).pending = .nop [] :: [.join []] ∧ State.reset.pending = [] := by
  decide

/-- Nothing is due after reset; with only TRM high, the end of its first high time is due at 500 µs. -/
theorem test_timeBase :
    let s : State := { State.reset with pwm := { State.reset.pwm with sht := .all false } }
    s.pending = [] ∧ s.dueCommands = [] ∧ (s.advance (still 499)).dueCommands = []
      ∧ (s.advance (still 500)).dueCommands = [.pwmHighTimeEnd [] .trm] := by decide +kernel

theorem test_heldNode :
    ({ State.reset with power := ⟨true, false, true⟩ } : State).running = false ∧ takenInReset (.nop []) = false
      ∧ State.reset.power.resetPin = false := by decide

theorem test_resetEnds :
    ({ State.reset with power := ⟨true, true, false⟩ } : State).power = { supplied := true, por := true, resetPin := false }
      ∧ ({ State.reset with power := ⟨true, false, true⟩ } : State).power = { supplied := true, por := false, resetPin := true } := by
  decide

theorem test_takes_softReset : (asks .softReset [] (at_ .active)).takes .softReset [] := by decide

theorem test_transactionStarts :
    State.reset.running = true ∧ State.reset.port.sselLow = false ∧ State.reset.port.srdy = true
      ∧ (asks .nop [] State.reset).running = true ∧ (asks .nop [] State.reset).port.srdy = false := by decide

/-- A transaction is under way. -/
def selected (t : Txn) (s : State) : State := { s with port := { s.port with sselLow := true, txn := t } }

theorem test_transactionEnds :
    (selected .ordinary State.reset).port.sselLow = true ∧ (selected .ordinary State.reset).readoutOpen = false
      ∧ wholeBytes [false, false, false, true, false, false, false, true, true] = [0x11]
      ∧ storedRequest [0x03, 1, 2, 3] = [0x03, 1, 2] ∧ storedRequest [0x99, 1, 2] = [0x99]
      ∧ (selected .busy State.reset).port.txn ≠ .ordinary ∧ (selected .busy State.reset).readoutOpen = false := by decide

/-- One record in the log. -/
def logged (s : State) : State :=
  { s with log := { s.log with counter := 8, records := [{ seq := 7, type := .snap, id := .zero, sample := .empty, outcome := .none, cause := 0, origin := 0 }] } }

/-- Its response is being read out. -/
def readingOut : State :=
  let s := selected .ordinary (logged (at_ .standby))
  { s with log := { s.log with removal := true }, port := { s.port with response := some { status := .ok, body := [], readLog := true } } }

theorem test_readLog :
    (asks .readLog [] (logged State.reset)).takes .readLog []
      ∧ (logged State.reset).log.records = [{ seq := 7, type := .snap, id := .zero, sample := .empty, outcome := .none, cause := 0, origin := 0 }]
      ∧ (asks .readLog [] State.reset).takes .readLog [] ∧ State.reset.log.records = []
      ∧ readingOut.readoutOpen = true ∧ readingOut.port.sselLow = true ∧ (List.replicate 199 false).length < 200 := by
  decide +kernel

/-- The transaction of a read-out ends: with a whole byte and fewer than 200 edges, with 200, and without a whole byte. -/
theorem test_readoutEnds :
    wholeBytes (List.replicate 199 false) = List.replicate 24 0 ∧ readingOut.port.txn = .ordinary
      ∧ 200 ≤ (List.replicate 200 false).length ∧ wholeBytes [true] = []
      ∧ (after (.transactionEnd [] (List.replicate 199 false)) readingOut).log.records.length = 1
      ∧ (after (.transactionEnd [] (List.replicate 200 false)) readingOut).log.records = []
      ∧ (after (.transactionEnd [] [true]) readingOut).log.removal = false := by decide +kernel

/-- ALERT is low for an enabled flag, and high for a flag that is not enabled. -/
theorem test_alert :
    ({ State.reset with port := { Port.reset with events := 0x0010, mask := 0x0010 } } : State).alertLow = true
      ∧ ({ State.reset with port := { Port.reset with events := 0x0010, mask := 0x7FEF } } : State).alertLow = false := by
  decide +kernel

/-- SCK falls n times. -/
def clocks (n : Nat) : Wait := [⟨1, ⟨0, 0, 0⟩, n⟩]

/-- The bits of a response come out most significant first, one at each fall of SCK, and zeros after them; a busy
transaction shifts out ones; outside a transaction SDO is released and SCK ignored. -/
theorem test_sdo :
    let s := { State.reset with port := { Port.reset with response := some (.ok [0xA5]) } }
    let t := after (.transactionStart []) s
    (List.range 17).map (fun k => (t.advance (clocks k)).sdo)
        = [false, false, false, false, false, false, false, true, true, false, true, false, false, true, false, true,
            false].map some
      ∧ ((t.advance (clocks 7)).advance (clocks 1)).sdo = some true
      ∧ ((after (.transactionStart []) (asks .nop [] State.reset)).advance (clocks 20)).sdo = some true
      ∧ (after (.transactionEnd [] []) t).sdo = none ∧ (s.advance (clocks 5)).pins.sckFalls = 0 := by decide +kernel

/-- At the 200th rising edge of a read-out SDO carries the last bit of the record. -/
theorem test_sdoAtTheReadoutsEnd :
    ∀ b ∈ [(0 : Byte), 1],
      let body := List.replicate 23 (0xFF - b) ++ [b]
      let s := { readingOut with port := { readingOut.port with response := some { status := .ok, body := body, readLog := true } } }
      s.readoutOpen = true ∧ (after (.readLogReadoutComplete []) s).sdo = some (b.getLsbD 0)
        ∧ (s.advance (clocks 199)).sdo = some (b.getLsbD 0) := by decide +kernel

theorem test_shiftsOut :
    (selected .busy State.reset).port.txn = .busy ∧ (selected .ordinary State.reset).port.txn = .ordinary
      ∧ (selected .ordinary State.reset).port.response = none ∧ readingOut.port.txn = .ordinary
      ∧ readingOut.port.response = some { status := .ok, body := [], readLog := true } := by decide +kernel

theorem test_requestChecks :
    (asks .manualTrim [1] (at_ .active)).running = true ∧ (asks .manualTrim [1] (at_ .active)).port.srdy = false
      ∧ [(1 : Byte)].length < Request.manualTrim.paramLength ∧ Request.manualTrim.availableIn LinkState.unconfigured = false
      ∧ Request.manualTrim.paramLength ≤ [(1 : Byte), 2].length ∧ Request.ofCode 0x09 = none := by decide +kernel

theorem test_takes_always :
    ∀ q ∈ [Request.nop, .readStatus, .readEvents, .readLinkErrors, .clearLinkErrors, .readLog, .readTrial],
      (asks q [] State.reset).takes q [] := by decide +kernel

theorem test_takes_configured :
    ∀ q ∈ [Request.readRoster, .snap, .flushLog, .cancelCheck, .readCheck, .clearFaults, .clearBreak, .join],
      (asks q [] (at_ .standby)).takes q [] := by decide +kernel

theorem test_takes_mask : (asks .setEventMask [0xFF, 0xFF] State.reset).takes .setEventMask [0xFF, 0xFF] := by decide

/-- The 78 parameter bytes of a record with one drive. -/
def configBytes : List Byte :=
  [1, 0xFF, 1] ++ bytes24 125000 ++ unsigned16 1000 ++ unsigned16 2048 ++ unsigned16 1000 ++ unsigned16 11000
    ++ List.replicate 33 0 ++ [3, 20] ++ unsigned16 300 ++ bytes24 1000 ++ unsigned16 100 ++ unsigned16 50 ++ unsigned16 60
    ++ signed16 20 ++ signed16 120 ++ signed16 (-40) ++ signed16 180 ++ unsigned16 200 ++ [40] ++ unsigned16 10
    ++ unsigned16 30 ++ unsigned16 50 ++ [1]

/-- CONFIGURE is accepted with these bytes, and refused at index 1 with a period code of 4. -/
theorem test_configure :
    (asks .configure configBytes State.reset).takes .configure configBytes ∧ configFailure 0 configBytes = none
      ∧ (asks .configure (4 :: configBytes.drop 1) State.reset).takes .configure (4 :: configBytes.drop 1)
      ∧ configFailure 0 (4 :: configBytes.drop 1) = some 1 := by decide +kernel

/-- The fields of those bytes, and the fast lines that are high when they are accepted. -/
theorem test_configureAccepts :
    let t := after (.configure [⟨1, ⟨1, 2, 4⟩, 0⟩]) (asks .configure configBytes State.reset)
    let c := ConfigRecord.ofBytes configBytes
    c.upstream = none ∧ c.chan.get 0 = ⟨125000, 1000, 2048, 1000, 11000⟩ ∧ c.hardLow = -40 ∧ c.rampRecovery = 50
      ∧ c.separateRamps = true ∧ (ConfigRecord.ofBytes (configBytes.set 1 4)).upstream = some 4
      ∧ t.inputs.spd = ⟨⟨false, 0, true⟩, .low, .low, .low⟩ ∧ t.inputs.ldf = ⟨.low, ⟨false, 0, true⟩, .low, .low⟩
      ∧ t.inputs.idx = ⟨.low, .low, ⟨false, 0, true⟩, .low⟩ := by decide +kernel

/-- The first failing field: a slope of 99 at index 8, a hard limit beyond 3000 at 34, a ramp mode of 2 at 40. -/
theorem test_configureFields :
    configFailure 0 (configBytes.set 12 0x04 |>.set 13 0x4B) = some 8 ∧ configFailure 0 (configBytes.set 66 0x0B |>.set 67 0xB9) = some 34
      ∧ configFailure 0 (configBytes.set 77 2) = some 40 := by decide +kernel

theorem test_leave :
    (asks .leave [] (at_ .listening)).takes .leave [] ∧ (asks .leave [] active).takes .leave []
      ∧ (asks .leave [] active).trialIdle = true ∧ (asks .leave [] (withTrial (tracked .running))).takes .leave []
      ∧ (withTrial (tracked .running)).trialIdle = false := by decide +kernel

/-- PROPOSE_TRIAL: accepted, BUSY, INVALID, TARGET_ABSENT. -/
theorem test_propose :
    (asks .proposeTrial [2, 0, 5, 5, 5, 60, 5] active).takes .proposeTrial [2, 0, 5, 5, 5, 60, 5]
      ∧ active.trialIdle = true ∧ active.busyStation = none
      ∧ (TrialParams.ofRequest [2, 0, 5, 5, 5, 60, 5]).valid = true ∧ (active.entry 5).presence ≠ .absent
      ∧ (TrialParams.ofRequest [2, 0, 5, 5, 5, 60, 0]).valid = false
      ∧ (TrialParams.ofRequest [2, 0, 6, 5, 6, 60, 5]).valid = true ∧ (active.entry 6).presence = .absent
      ∧ (withTrial (tracked .accepting)).trialIdle = false := by decide +kernel

theorem test_abortTrial :
    ∀ t ∈ [{ TrialRecord.empty with request := .propose ⟨5, 1⟩ step60 }, TrialRecord.empty, tracked .recovering,
        tracked .accepting, { tracked .accepting with params := { step60 with spanFirst := 6, spanLast := 7, target := 6 } },
        tracked .proposing, tracked .scheduled, tracked .running],
      (asks .abortTrial [] (withTrial t)).takes .abortTrial [] := by decide +kernel

theorem test_membership :
    (withTrial (tracked .accepting)).isMember = true
      ∧ (withTrial { tracked .accepting with params := { step60 with spanFirst := 6, spanLast := 7, target := 6 } }).isMember = false := by
  decide +kernel

/-- MANUAL_TRIM at its limit, beyond it, and with the break latched. -/
theorem test_manualTrim :
    (asks .manualTrim [0, 200] active).takes .manualTrim [0, 200] ∧ active.trialIdle = true ∧ active.brk.latch = false
      ∧ (word16 [0, 200] 0).toInt.natAbs ≤ active.cfg.trimLimit ∧ active.cfg.trimLimit < (word16 [0, 201] 0).toInt.natAbs
      ∧ ({ active with brk := ⟨true, false⟩ } : State).brk.latch = true := by decide +kernel

theorem test_snap :
    active.trialIdle = true ∧ active.log.records.length < 256
      ∧ 256 ≤ ({ active with log := { active.log with records := List.replicate 256 { seq := 7, type := .snap, id := .zero, sample := .empty, outcome := .none, cause := 0, origin := 0 } } } : State).log.records.length := by
  decide +kernel

theorem test_revCheck :
    (asks .revCheck [2] active).takes .revCheck [2] ∧ active.checkUnderWay = false ∧ active.chans.get 2 = .ready
      ∧ active.chans.get 3 ≠ .ready ∧ (asks .revCheck [4] active).takes .revCheck [4] ∧ 3 < (nth [4] 0).toNat
      ∧ ({ active with check := { active.check with state := .armed } } : State).checkUnderWay = true := by decide +kernel

theorem test_clearBreak :
    active.inputs.brk.active = false
      ∧ ({ active with inputs := { active.inputs with brk := ⟨true, 0⟩ } } : State).inputs.brk.active = true := by decide +kernel

/-! ### The Drawlink -/

/-- A mark in the window, one before it, and one in LISTENING. -/
theorem test_marks :
    (receiving 9000 active).running = true ∧ (receiving 9000 active).line.tx = .released ∧ active.period ≤ (9000 - active.round.start) + 1000
      ∧ (8999 - active.round.start) + 1000 < active.period ∧ (receiving 9000 active).line.rx = some 9000
      ∧ active.link.state.onLink = true ∧ 9000 + 22 ≤ ((receiving 9000 active).advance (still 9022)).now
      ∧ (receiving 50 (at_ .listening)).link.state = .listening ∧ active.hasLinkError .lostMark = false := by decide +kernel

/-- A start at an idle receiver, one 21 µs after that of the character under way, and one 20 µs after it. -/
theorem test_characterStarts :
    active.running = true ∧ active.link.state.receives = true ∧ active.line.rx = none
      ∧ (receiving 100 active).line.rx = some 100 ∧ (receiving 100 active).line.rxNext = none
      ∧ 100 + 21 ≤ ((receiving 100 active).advance (still 122)).now - 1
      ∧ ((receiving 100 active).advance (still 121)).now - 1 < 100 + 21
      ∧ (after (.characterStart [⟨122, ⟨0, 0, 0⟩, 0⟩] true) (receiving 100 active)).line.rxNext = some 121 := by decide +kernel

/-- A character that began 10 µs before the last boundary, which closed a round of some state. -/
def straddling (l : LinkState) : State :=
  let s := receiving 20090 active
  { s with round := { s.round with start := 20100, before := { start := 10000, state := l, synced := true, lost := false } } }

/-- Its mark is adopted after a LISTENING round, and in the window of an ACTIVE one; a character that is no mark in that
window makes a lost round. -/
theorem test_straddling :
    ∀ l ∈ [LinkState.listening, .active],
      (straddling l).line.rx = some 20090 ∧ 20090 < (straddling l).round.start ∧ (straddling l).round.before.state = l
        ∧ (straddling l).period ≤ (20090 - (straddling l).round.before.start) + 1000
        ∧ 20090 + 22 ≤ ((straddling l).advance (still 20112)).now
        ∧ (after (.characterComplete (still 20112) ⟨77, true, true⟩) (straddling l)).round.number = 77
        ∧ (l = .active →
            (after (.characterComplete (still 20112) ⟨77, false, true⟩) (straddling l)).round.lost = true) := by
  decide +kernel

/-- The own mark and the own frame under way. -/
def sending (t : Tx) (s : State) : State := { s with line := { s.line with tx := t } }

theorem test_ownSending :
    (sending (.mark 10) (receiving 10250 active)).line.tx = .mark 10 ∧ (sending (.frame Report.empty 14) active).line.tx = .frame .empty 14
      ∧ (sending (.frame Report.empty 14) (receiving 2200 active)).line.rx = some 2200 ∧ active.roster.length = 16 := by
  decide +kernel

theorem test_conflicts :
    (sending (.frame Report.empty 3) (withTrial (tracked .running))).trial.phase ≠ .idle
      ∧ (withTrial (tracked .running)).trial.phase ≠ .recovering ∧ (withTrial (tracked .recovering)).trial.phase = .recovering
      ∧ (withTrial { TrialRecord.empty with request := .propose ⟨5, 1⟩ step60 }).trial.phase = .idle := by decide +kernel

/-- The window of station 5 opens at 9,000 µs and its mark is due at 10,250 µs. -/
theorem test_window :
    active.round.windowOpen = false ∧ active.period ≤ ((active.advance (still 9000)).now - active.round.start) + 1000
      ∧ ({ active with round := { active.round with windowOpen := true } } : State).round.startInWindow = false
      ∧ active.period + 50 * active.station.val ≤ (active.advance (still 10250)).now - active.round.start
      ∧ ({ active with round := { active.round with startInWindow := true } } : State).round.startInWindow = true := by
  decide +kernel

/-- The own slot of station 5 opens at 1,840 µs. -/
theorem test_ownSlot :
    active.round.lost = false ∧ active.round.ownSlotDone = false ∧ active.line.tx = .released
      ∧ (active.advance (still 1840)).now - active.round.start = 40 + 360 * active.station.val ∧ active.round.synced = true := by
  decide +kernel

/-- Fourteen characters of station 4's report in its slot, which opens at 1,480 µs, and the fifteenth under way. -/
def fourteen : State :=
  let s := receiving 1788 active
  let heardSoFar : Attempt := ⟨4, (running 4 .none .zero ⟨0, 0, 0, 0⟩).frame.take 14, false, false, 1788⟩
  { s with line := { s.line with attempt := some heardSoFar } }

theorem test_validFrame :
    fourteen.slotOf 1788 = some 4 ∧ fourteen.inWindow 1788 = false ∧ fourteen.round.synced = true ∧ fourteen.line.overrun = none
      ∧ fourteen.round.lost = false ∧ fourteen.round.slotsClosed ≤ 4 ∧ (4 : Station) ≠ fourteen.station
      ∧ fourteen.line.rx = some 1788 ∧ fourteen.roster.length = 16
      ∧ ((running 4 .none .zero ⟨0, 0, 0, 0⟩).frame.take 14).length = 14
      ∧ (running 4 .none .zero ⟨0, 0, 0, 0⟩).frame.take 14 ++ [nth (running 4 .none .zero ⟨0, 0, 0, 0⟩).frame 14]
          = (running 4 .none .zero ⟨0, 0, 0, 0⟩).frame := by decide +kernel

/-- A fifteenth character that began inside the window and ends after its close joins the attempt. -/
def overhanging : State :=
  { fourteen with line := { fourteen.line with rx := some 1839 }, round := { fourteen.round with slotsClosed := 4 } }

/-- The last byte of that report. -/
def lastByte : CharBits := ⟨nth (running 4 .none .zero ⟨0, 0, 0, 0⟩).frame 14, false, true⟩

theorem test_slotClosesInside :
    (after (.slotWindowClose (still 1840)) overhanging).line.attempt = overhanging.line.attempt
      ∧ (after (.slotWindowClose (still 1840)) overhanging).round.slotsClosed = 5
      ∧ (let t := after (.characterComplete (still 22) lastByte) (after (.slotWindowClose (still 1840)) overhanging)
         t.line.attempt = none ∧ (t.entry 4).presence = .present ∧ (t.entry 4).lastRound = 9)
      ∧ (after (.slotWindowClose (still 1841)) { overhanging with line := { overhanging.line with rx := none } }).line.attempt = none
      ∧ (after (.slotWindowClose (still 1840)) { overhanging with line := { overhanging.line with rx := some 1840 } }).hasLinkError .short = true := by
  decide +kernel

/-- The window of slot 4 closes at 1,840 µs before the start edge of 1,839 µs is reported at that instant, at station 6,
where nothing else is due. -/
def closedFirst : State :=
  let s := after (.slotWindowClose (still 1840)) { overhanging with line := { overhanging.line with rx := none } }
  { s with station := 6, config := none, pwm := .heldLow }

/-- The attempt waits for it, and the frame is delivered; without a start the instant passes, and it is SHORT. -/
theorem test_slotClosesFirst :
    closedFirst.line.attempt = overhanging.line.attempt ∧ closedFirst.line.attempt.isSome = true
      ∧ closedFirst.round.slotsClosed = 5 ∧ closedFirst.now = 1840
      ∧ (let t := after (.characterStart [] true) closedFirst
         t.line.rx = some 1839 ∧ t.line.attempt = closedFirst.line.attempt
           ∧ ((after (.characterComplete (still 21) lastByte) t).entry 4).lastRound = 9)
      ∧ (after (.characterStart (still 1) true) closedFirst).hasLinkError .short = true
      ∧ closedFirst.pending = [] ∧ closedFirst.dueCommands = [] ∧ 40 + 360 * (4 + 1) ≤ closedFirst.now - closedFirst.round.start
      ∧ closedFirst.idle.now = 1841 ∧ closedFirst.idle.line.attempt = none ∧ closedFirst.idle.hasLinkError .short = true := by
  decide +kernel

/-- A request that executes at the instant of the closing finds SHORT clear; one that executes 3 µs later finds it set and
can clear it for good. -/
theorem test_shortStandsOnceTheInstantIsOver :
    let read := asks .readLinkErrors [] closedFirst
    let clear := asks .clearLinkErrors [] closedFirst
    (after (.readLinkErrors []) read).port.response = some (.ok [0])
      ∧ (after (.readLinkErrors (still 3)) read).port.response = some (.ok [LinkError.short.flag])
      ∧ (after (.readLinkErrors (still 3)) read).hasEvent .linkError = true
      ∧ (after (.nop (still 9)) (after (.clearLinkErrors (still 3)) clear)).line.errors = 0
      ∧ closedFirst.round.slotsClosed = 5 ∧ closedFirst.line.attempt.all (·.slot = 4) = true := by decide +kernel

/-- The fifteenth character began 22 µs before the own slot opens: its stop bit is sampled, and it completes there. -/
def sampled : State := { overhanging with line := { overhanging.line with rx := some 1818 } }

/-- Whichever of the own slot and the completion is taken first, the frame is delivered, and the own one goes on. A mark in
its place is early. -/
theorem test_ownSlotKeepsTheSampledCharacter :
    let opened := after (.ownSlotOpen (still 1840)) sampled
    let t := after (.characterComplete [] lastByte) opened
    let u := after (.characterComplete (still 22) lastByte) t
    (sampled.advance (still 1840)).completes 1818 ∧ opened.completes 1818 ∧ opened.characterDue = false
      ∧ opened.line.rxSampled = some 1818 ∧ opened.line.attempt = sampled.line.attempt ∧ opened.line.errors = 0
      ∧ t.line.attempt = none ∧ (t.entry 4).presence = .present ∧ (t.entry 4).lastRound = 9 ∧ t.line.errors = 0
      ∧ t.line.tx = opened.line.tx ∧ t.line.rx = some 1840 ∧ t.line.rxSampled = none
      ∧ u.line.tx = .frame opened.slotReport 1
      ∧ (after (.slotWindowClose []) opened).line.attempt = sampled.line.attempt
      ∧ (let s := after (.ownSlotOpen []) (after (.characterComplete (still 1840) lastByte) sampled)
         (s.entry 4).lastRound = 9 ∧ s.line.tx = opened.line.tx ∧ s.line.rx = some 1840)
      ∧ (after (.characterComplete [] ⟨77, true, true⟩) opened).hasLinkError .earlyMark = true := by decide +kernel

/-- The own slot opens while an attempt of a closed slot waits for a character whose stop bit is not sampled: it gets none. -/
theorem test_ownSlotDropsTheAttempt :
    let s := { overhanging with round := { overhanging.round with slotsClosed := 5 } }
    s.line.attempt.isSome = true ∧ s.round.lost = false ∧ s.round.ownSlotDone = false
      ∧ (s.advance (still 1840)).now - s.round.start = 40 + 360 * s.station.val
      ∧ (after (.ownSlotOpen (still 1840)) s).line.attempt = none
      ∧ (after (.ownSlotOpen (still 1840)) s).hasLinkError .short = true := by decide +kernel

/-- The fifteenth character of station 4's slot with a ready count of 5, and of the own slot. -/
def fifteenth (slot : Station) (r : Report) (s : State) : State :=
  let bytes : List Byte := (r.frame.take 14).set 1 5
  let start := 40 + 360 * slot.val + 308
  { receiving start s with
    line := { (receiving start s).line with attempt := some ⟨slot, bytes, false, false, start⟩ }
    round := { s.round with synced := true } }

/-- The byte that makes its sum 0. -/
def closing (s : State) : CharBits := ⟨0 - sumBytes ((s.line.attempt.map (·.bytes)).getD []), false, true⟩

theorem test_validFramesThatDeliverNothing :
    let r := running 4 .none .zero ⟨0, 0, 0, 0⟩
    let own := { r with station := 5 }
    let lost := { active with round := { active.round with lost := true } }
    (let s := fifteenth 4 r active
     after (.characterComplete (still 1810) (closing s)) s
        = { s.advance (still 1810) with line := { s.line with rx := none, attempt := none } })
      ∧ (let s := fifteenth 4 r lost
         after (.characterComplete (still 1810) (closing s)) s
            = { s.advance (still 1810) with line := { s.line with rx := none, attempt := none } })
      ∧ (let s := fifteenth 5 own (at_ .listening)
         (after (.characterComplete (still 2170) (closing s)) s).link.state = .standby)
      ∧ (let s := fifteenth 5 own lost
         (after (.characterComplete (still 2170) (closing s)) s).hasEvent .duplicate = true) := by decide +kernel

/-- A received character completes 22 µs after its start edge. -/
def takes (start : Nat) (c : CharBits) (s : State) : State := after (.characterComplete (still (start + 22 - s.now)) c) (receiving start s)

/-- A frame character in slot 4 opens an attempt, and the next one joins it, with or without a framing fault; one outside
every slot window sets SLOT; neither does anything in an unsynchronised round, nor sets a flag in a lost one. -/
theorem test_charactersOfAFrame :
    let c : CharBits := ⟨0x12, false, true⟩
    let opened := takes 1480 c active
    (receiving 1480 active).slotOf 1480 = some 4 ∧ ((receiving 1480 active).advance (still 1502)).completes 1480
      ∧ (1480 - active.round.start) + 1000 < active.period
      ∧ opened.line = { active.line with attempt := some ⟨4, [0x12], false, false, 1502⟩ } ∧ opened.port = active.port
      ∧ (takes 1502 ⟨0x34, false, true⟩ opened).line.attempt = some ⟨4, [0x12, 0x34], false, false, 1524⟩
      ∧ (takes 1502 ⟨0x34, false, false⟩ opened).line.attempt = some ⟨4, [0x12, 0x34], true, false, 1524⟩
      ∧ (takes 1502 ⟨0x34, false, false⟩ opened).line.errors = LinkError.framing.flag
      ∧ (takes 39 c active).line.errors = LinkError.slot.flag ∧ (takes 5800 c active).line.attempt = none
      ∧ (takes 39 c { active with round := { active.round with lost := true } }).line = active.line
      ∧ (takes 1480 c (at_ .listening)).line = (at_ .listening).line
      ∧ (takes 1480 { c with stop := false } (at_ .listening)).line.errors = LinkError.framing.flag
      ∧ (takes 1480 { c with stop := false } active).line.attempt = none := by decide +kernel

/-- An attempt left in another slot gives way with SHORT, a train cut at its closing goes on with SLOT, and a character
whose window has closed sets SHORT: but with a framing fault it leaves the next window's frame alone. -/
theorem test_charactersAtAClosing :
    let c : CharBits := ⟨0x12, false, true⟩
    let cutTrain := { active with line := { active.line with overrun := some ⟨4, 1860⟩ }, round := { active.round with slotsClosed := 5 } }
    let closed := { active with round := { active.round with slotsClosed := 5 } }
    let late := takes 1830 { c with stop := false } closed
    (takes 1850 c (takes 1480 c active)).line.errors = LinkError.short.flag
      ∧ (takes 1850 c (takes 1480 c active)).line.attempt = some ⟨5, [0x12], false, false, 1872⟩
      ∧ (takes 1850 c cutTrain).line = { active.line with overrun := some ⟨4, 1872⟩, errors := LinkError.slot.flag }
      ∧ (takes 1830 c closed).line = { active.line with overrun := some ⟨4, 1852⟩, errors := LinkError.short.flag }
      ∧ late.line = { active.line with errors := LinkError.framing.flag }
      ∧ (takes 1852 c late).line.attempt = some ⟨5, [0x12], false, false, 1874⟩ := by decide +kernel

/-- The train of an attempt cut in slot 3 goes on over slot 4: SLOT for a character of slot 4, whether that window is still
open or closed, and outside every window; nothing for one that began before the close of slot 3. -/
theorem test_trainOfACutAttempt :
    let c : CharBits := ⟨0x12, false, true⟩
    let cutAt3 (st closed : Nat) : State := { active with
      line := { active.line with overrun := some ⟨3, st⟩ }, round := { active.round with slotsClosed := closed } }
    (takes 1828 c (cutAt3 1828 5)).line = { active.line with overrun := some ⟨3, 1850⟩, errors := LinkError.slot.flag }
      ∧ (takes 1700 c (cutAt3 1700 4)).line = { active.line with overrun := some ⟨3, 1722⟩, errors := LinkError.slot.flag }
      ∧ (takes 39 c (cutAt3 39 4)).line = { active.line with overrun := some ⟨3, 61⟩, errors := LinkError.slot.flag }
      ∧ (takes 1470 c (cutAt3 1479 4)).line = { active.line with overrun := some ⟨3, 1492⟩ } := by decide +kernel

/-- An early mark after the last character of such a train ends it: the frame character that follows opens an attempt
(log 47). -/
theorem test_earlyMarkEndsATrain :
    let c : CharBits := ⟨0x12, false, true⟩
    let cut : State := { active with
      line := { active.line with overrun := some ⟨4, 1850⟩ }, round := { active.round with slotsClosed := 5 } }
    let marked := takes 1850 ⟨10, true, true⟩ cut
    marked.line = { cut.line with errors := LinkError.earlyMark.flag }
      ∧ (takes 1872 c marked).line.attempt = some ⟨5, [0x12], false, false, 1894⟩
      ∧ (takes 1872 c marked).line.errors = LinkError.earlyMark.flag := by decide +kernel

/-- A completed attempt that is not valid: a wrong sum, another station's field, a mark inside; and in a lost round. -/
theorem test_failedAttempts :
    let ends (f : Attempt → Attempt) (c : CharBits) (s : State) : State :=
      let t := { fourteen with round := s.round, line := { fourteen.line with attempt := fourteen.line.attempt.map f } }
      after (.characterComplete (still 1810) c) t
    let wrong := { lastByte with data := lastByte.data + 1 }
    let other (f : Attempt) : Attempt := { f with bytes := (f.bytes.set 0 3).set 2 (nth f.bytes 2 + 1) }
    let lost := { active with round := { active.round with lost := true } }
    fourteen.line.attempt.all (fun f => f.bytes.length = 14 && sumBytes (f.bytes ++ [wrong.data]) != 0) = true
      ∧ (ends id wrong active).line = { active.line with errors := LinkError.check.flag }
      ∧ (ends id wrong active).hasEvent .linkError = true
      ∧ (ends other lastByte active).line = { active.line with errors := LinkError.slot.flag }
      ∧ (ends (fun f => { f with markInside := true }) lastByte active).line = { active.line with errors := LinkError.short.flag }
      ∧ (ends id { lastByte with stop := false } active).line = { active.line with errors := LinkError.framing.flag }
      ∧ (ends id wrong active).roster = active.roster ∧ (ends id wrong lost).line = active.line := by decide +kernel

/-- The own frame goes on with its next character. -/
theorem test_ownCharacter :
    let s := sending (.frame Report.empty 3) (receiving 1906 active)
    s.line.tx = .frame .empty 3 ∧ s.line.rx = some 1906
      ∧ after (.characterComplete (still 1928) ⟨0, false, true⟩) s
          = { s.advance (still 1928) with line := { s.line with tx := .frame .empty 4, rx := some 1928 } } := by
  decide +kernel

/-- A valid frame in the own slot of a lost round ends a running trial, and the next boundary closes its log. -/
theorem test_conflictByFrame :
    let lost := { withTrial (tracked .running) with round := { active.round with lost := true } }
    let s := fifteenth 5 { running 4 .none .zero ⟨0, 0, 0, 0⟩ with station := 5 } lost
    let t := after (.characterComplete (still 2170) (closing s)) s
    let u := after (.standbyLocalBoundary (still 10000)) t
    t.trial.phase = .recovering ∧ t.lastOutcome.code = Reason.link.code ∧ t.trial.linkCloseOwed = true
      ∧ u.log.records = [{ seq := 0, type := .close, id := ⟨5, 1⟩, sample := u.log.last, outcome := .aborted,
                           cause := Reason.link.code, origin := 5 }]
      ∧ u.trial.linkCloseOwed = false ∧ u.hasEvent .logClosed = true := by decide +kernel

theorem test_slotCloses :
    fourteen.round.slotsClosed < 16 ∧ 40 + 360 * (fourteen.round.slotsClosed + 1) ≤ (fourteen.advance (still 400)).now - fourteen.round.start
      ∧ ({ fourteen with round := { fourteen.round with slotsClosed := 4 } } : State).round.slotsClosed = 4 := by decide +kernel

/-! ### Round boundaries -/

theorem test_boundaries :
    (withTrial TrialRecord.empty |>.advance (still 10100)).boundaryOf mark = some (.adopted, 10)
      ∧ ((at_ .standby).advance (still 10000)).boundaryOf .standbyLocal = some (.localTimed, 10)
      ∧ ((at_ .listening).advance (still 10800)).boundaryOf .listeningLocal = some (.localTimed, 10)
      ∧ (at_ .standby).period ≤ ((at_ .standby).advance (still 10000)).now ∧ (at_ .listening).line.rx = none := by decide +kernel

/-- LISTENING with a count at 2; LEAVING with the flagged report sent. -/
def counting (lc jc : Nat) (o : SlotObservation) : State :=
  let s := receiving 10078 (at_ .listening)
  { s with link := { s.link with listenCount := lc, joinCount := jc }, round := { s.round with ownSlot := o, synced := true } }

theorem test_linkChanges :
    ((counting 0 2 .silent).advance (still 10100)).boundaryOf mark = some (.adopted, 10) ∧ (counting 0 2 .silent).link.joinCount = 2
      ∧ (counting 0 2 .silent).roster.length = 16 ∧ (counting 0 2 .silent).round.ownSlot = .silent
      ∧ ((counting 2 0 .unobserved).advance (still 10900)).boundaryOf .listeningLocal = some (.localTimed, 10)
      ∧ (counting 2 0 .unobserved).link.listenCount = 2
      ∧ ({ active with link := ⟨.leaving, 0, 0, .sent⟩ } : State).link.leave = .sent
      ∧ (({ receiving 10078 active with link := ⟨.leaving, 0, 0, .sent⟩ } : State).advance (still 10100)).boundaryOf mark = some (.adopted, 10) := by
  decide +kernel

/-- The counts of a LISTENING node at boundaries of either kind, and whether the round that each opens is synchronised. -/
theorem test_listening :
    let adopted (o : SlotObservation) := after (.characterComplete (still 10100) ⟨10, true, true⟩) (counting 1 1 o)
    let alone := after (.listeningLocalBoundary (still 10900)) { counting 1 1 .silent with line := .reset }
    let seen (s : State) := (s.link.listenCount, s.link.joinCount, s.round.synced, s.round.ownSlot)
    seen (adopted .silent) = (0, 2, true, .silent) ∧ seen (adopted .heard) = (0, 0, true, .silent)
      ∧ seen (adopted .unobserved) = (0, 0, true, .silent) ∧ seen alone = (2, 0, false, .unobserved)
      ∧ (after (.standbyLocalBoundary (still 10000)) (at_ .standby)).round.synced = false
      ∧ (after (.characterComplete (still 10100) ⟨10, true, true⟩) (receiving 10078 active)).round.synced = true := by
  decide +kernel

/-- Station 4 missed twice and thrice. -/
def missed (p : Presence) (m : Nat) : State :=
  { receiving 10078 active with roster := active.roster.set 4 { Entry.cleared with presence := p, miss := m } }

theorem test_ageing :
    ((missed .present 2).advance (still 10100)).boundaryOf mark = some (.adopted, 10) ∧ (missed .present 2).link.state.receives = true
      ∧ (missed .present 2).roster.length = 16 ∧ ((missed .present 2).entry 4).heard = false
      ∧ ((missed .present 2).entry 4).presence = .present ∧ ((missed .present 2).entry 4).miss = 2
      ∧ ((missed .silent 15).entry 4).presence = .silent ∧ ((missed .silent 15).entry 4).miss = 15 := by decide +kernel

/-- The slipping-drive example of 05: counts of a round of 10,000 µs. -/
def slipping (k : Nat) : State :=
  let s := receiving 9978 active
  { s with
    counters := ⟨⟨133, 65, .empty, 0, false⟩, ⟨134, 68, .empty, 0, false⟩, ⟨120, 40, .empty, 0, false⟩, .reset⟩
    meas := { s.meas with chan := s.meas.chan.set 2 { s.meas.chan.c2 with slip := k } } }

/-- The measurement of that round: section values at boundary b, and the latching at b + 2. -/
theorem test_slippingDrive :
    ((slipping 0).measure 10000).meas.speed = some 96750 ∧ ((slipping 0).measure 10000).meas.load = some 512
      ∧ ((slipping 0).measure 10000).meas.chan.toList.map (·.deviation) = [some 29, some 53, some (-83), none]
      ∧ ((slipping 0).measure 10000).meas.chan.toList.map (·.slip) = [0, 0, 1, 0]
      ∧ ((slipping 2).measure 10000).meas.speed = some 100125 ∧ ((slipping 2).measure 10000).meas.load = some 452
      ∧ ((slipping 2).measure 10000).chans.get 2 = .faulted .slip := by decide +kernel

theorem test_slipHypotheses :
    let a := (slipping 2).advance (still 10000)
    let found := (a.boundaryBase mark).dropAttempt.handOver (a.now - (slipping 2).round.start)
    a.boundaryOf mark = some (.adopted, 10) ∧ (slipping 2).ready 2 = true ∧ found.finding found.meanSpeed 2 = some .slip := by
  decide +kernel

/-- The alarms one boundary before they change. -/
def alarming (alarm : Bool) (outRun inRun : Nat) (tolerance : Nat) : State :=
  let s := slipping 0
  { s with
    config := some { record with shareTolerance := tolerance }
    meas := { s.meas with alarm := alarm, outRun := outRun, inRun := inRun } }

theorem test_shareAlarmHypotheses :
    let a := (alarming false 3 0 60).advance (still 10000)
    let valued := (((a.boundaryBase mark).dropAttempt.handOver a.now).judgeChannels).sectionValues
    let c := (alarming true 0 3 100).advance (still 10000)
    let valued' := (((c.boundaryBase mark).dropAttempt.handOver c.now).judgeChannels).sectionValues
    a.boundaryOf mark = some (.adopted, 10) ∧ valued.meas.sharesComputed = true ∧ valued.ready 2 = true
      ∧ (valued.meas.chan.get 2).deviation = some (-83) ∧ (alarming false 3 0 60).cfg.shareTolerance < (-83 : Int).natAbs
      ∧ c.boundaryOf mark = some (.adopted, 10) ∧ valued'.meas.sharesComputed = true
      ∧ valued'.meas.chan.toList.map (·.deviation) = [some 29, some 53, some (-83), none]
      ∧ (alarming true 0 3 100).cfg.shareTolerance = 100 := by
  decide +kernel

/-- The alarm's other steps: outside and inside with runs below 3, and a boundary without shares. -/
theorem test_shareAlarmOtherSteps :
    (slipping 0).meas.outRun + 1 ≠ 4 ∧ ((alarming false 2 0 60).measure 10000).meas.outRun = 3
      ∧ ((alarming true 0 2 100).measure 10000).meas.inRun = 3 ∧ ((alarming true 0 2 60).measure 10000).meas.inRun = 0
      ∧ ((alarming false 2 0 100).measure 10000).meas.outRun = 0
      ∧ ((withTrial TrialRecord.empty).measure 10000).meas.sharesComputed = false := by decide +kernel

/-- The four methods of a round: a count of 16, an interval, a first edge, and no history; a reversed channel. -/
def measured : State :=
  { slipping 0 with
    counters := ⟨⟨16, 65, .empty, 0, false⟩, ⟨3, 68, .two 100 4100 false, 0, false⟩, ⟨-15, 40, .one 4100 true, 0, false⟩, .reset⟩ }

theorem test_measurement :
    let t := after (.characterComplete (still 10000) ⟨10, true, true⟩) measured
    t.meas.chan.toList.map (·.method) = [.count, .period, .start, .none]
      ∧ t.meas.chan.toList.map (·.speed) = [some 12000, some (-1875), some 0, none]
      ∧ t.chans.get 1 = .faulted .reversed ∧ t.hasEvent .channelFault = true
      ∧ (after (.characterComplete (still 10000) ⟨10, true, true⟩)
          { measured with counters := .all { Counters.reset with net := 15 } }).meas.chan.c0.method = .stalled
      ∧ (after (.characterComplete (still 10000) ⟨10, true, true⟩) (slipping 1)).meas.chan.c2.slip = 2 := by decide +kernel

/-- A check under way on channel 2 ends when the boundary latches SLIP there. -/
theorem test_slipEndsTheCheck :
    let s := { slipping 2 with check := { RevCheck.reset with state := .armed, channel := 2, timer := .running 0 } }
    let t := after (.characterComplete (still 10000) ⟨10, true, true⟩) s
    s.checkUnderWay = true ∧ t.chans.get 2 = .faulted .slip ∧ t.check.verdict = .incomplete .channel
      ∧ t.hasEvent .revCheckDone = true := by decide +kernel

/-- The sample of a boundary describes the round that closes, and a full ring loses its oldest. -/
theorem test_sample :
    let full := { slipping 0 with log := { Log.reset with ring := List.replicate 8 Sample.empty } }
    let t := after (.characterComplete (still 10000) ⟨10, true, true⟩) full
    t.log.last.round = 9 ∧ t.log.last.speed = some 96750 ∧ t.log.last.ready = 7 ∧ t.log.ring.length = 8
      ∧ t.log.ring = List.replicate 7 Sample.empty ++ [t.log.last] ∧ t.ownReport.speed = 96750#24
      ∧ t.ownReport.readyCount = 3 := by decide +kernel

/-- The draw of the slipping section against station 4, outside and inside a soft window. -/
def drawing (alarm : Bool) (outRun inRun : Nat) (high : Int) : State :=
  let s := slipping 0
  { s with config := some { record with softHigh := high, hardHigh := 3000 }, draw := { s.draw with alarm := alarm, outRun := outRun, inRun := inRun } }

theorem test_drawAlarmHypotheses :
    let a := (drawing false 1 0 120).advance (still 10000)
    let c := (drawing true 0 1 3000).advance (still 10000)
    a.boundaryOf mark = some (.adopted, 10) ∧ ((a.boundaryBase mark).linked .adopted 10).drawInputs = .inr (96750, 60000)
      ∧ (drawing false 1 0 120).cfg.softHigh < drawOf 96750 60000
      ∧ c.boundaryOf mark = some (.adopted, 10) ∧ ((c.boundaryBase mark).linked .adopted 10).drawInputs = .inr (96750, 60000)
      ∧ (drawing true 0 1 3000).cfg.softLow ≤ drawOf 96750 60000
      ∧ drawOf 96750 60000 ≤ (drawing true 0 1 3000).cfg.softHigh := by decide +kernel

/-- The alarm's other steps, and an UNDEFINED draw. -/
theorem test_drawAlarmOtherSteps :
    let d (s : State) := (((s.advance (still 10000)).boundaryBase mark).linked .adopted 10).measureDraw.draw
    (d (drawing false 0 0 120)).outRun = 1 ∧ (d (drawing false 1 0 3000)).outRun = 0 ∧ (d (drawing true 0 0 3000)).inRun = 1
      ∧ (d (drawing true 0 1 120)).inRun = 0 ∧ (d (drawing true 0 1 120)).alarm = true
      ∧ ((((withTrial TrialRecord.empty).advance (still 10100)).boundaryBase mark).linked .adopted 10).drawInputs = .inr (0, 60000)
      ∧ ((({ slipping 0 with config := some { record with upstream := none } } : State).advance (still 10000)).boundaryBase mark
            |>.linked .adopted 10).drawInputs = .inl .noUpstream := by decide +kernel

/-- The reasons of an UNDEFINED draw in the order of the table, one boundary for each. -/
theorem test_undefinedDraws :
    let reason (s : State) := (after (.characterComplete (still 10000) ⟨10, true, true⟩) s).draw.state
    let from4 (w : BitVec 24) := { slipping 0 with
      roster := active.roster.set 4 (heard { running 4 .none .zero ⟨0, 0, 0, 0⟩ with speed := w }) }
    reason { slipping 0 with config := some { record with upstream := none } } = .undefined .noUpstream
      ∧ reason { slipping 0 with roster := active.roster.set 4 .cleared } = .undefined .upstreamNotPresent
      ∧ reason { slipping 0 with chans := .all .offline } = .undefined .ownInvalid
      ∧ reason (from4 0x800000) = .undefined .upstreamInvalid ∧ reason (from4 300001) = .undefined .upstreamInvalid
      ∧ reason (from4 999) = .undefined .upstreamSlow ∧ reason (from4 1000) = .defined := by decide +kernel

/-! ### Trials -/

/-- The pending proposal of station 5, with what station 4 reports and how its own entry stands. -/
def proposing (r : Report) (p : TrialParams) : State :=
  { withTrial { TrialRecord.empty with request := .propose ⟨5, 1⟩ p } with roster := active.roster.set 4 (heard r) }

/-- A valid claim of station 4. -/
def claim4 : TrialParams := { kind := .watch, spanFirst := 4, spanLast := 5, target := 4, drive := 0, step := 0, duration := 2 }

theorem test_claimBoundaryHypotheses :
    let lost := ((proposing (running 4 .claim ⟨4, 2⟩ claim4.claimBytes) step60).advance (still 10100)).decisionAt mark .adopted 10
    let busy := ((proposing (running 4 .run ⟨4, 2⟩ ⟨0, 0, 0, 1⟩) step60).advance (still 10100)).decisionAt mark .adopted 10
    let free := ((proposing (running 4 .none .zero ⟨0, 0, 0, 0⟩) step60).advance (still 10100)).decisionAt mark .adopted 10
    lost.heardClaims.find? (fun c => decide (c.1.proposer < (5 : Station))) = some (⟨4, 2⟩, claim4)
      ∧ busy.heardClaims.find? (fun c => decide (c.1.proposer < (5 : Station))) = none ∧ busy.busyStation = some 4
      ∧ free.heardClaims.find? (fun c => decide (c.1.proposer < (5 : Station))) = none ∧ free.busyStation = none
      ∧ (free.entry 6).presence = .absent ∧ (free.entry 5).presence ≠ .absent
      ∧ ((proposing (running 4 .none .zero ⟨0, 0, 0, 0⟩) step60).advance (still 10100)).boundaryOf mark = some (.adopted, 10) := by
  decide +kernel

/-- A bystander's record at its fifth boundary, and a proposer's at its fourth with station 6 unaccepted. -/
def waiting : State :=
  withTrial { tracked .accepting with role := .bystander, id := ⟨4, 2⟩, params := { claim4 with spanLast := 4 }, count := 5 }

/-- See `waiting`. -/
def unanswered : State :=
  { withTrial { tracked .proposing with params := { step60 with spanLast := 6 }, count := 4, required := 0x60 } with
    roster := active.roster.set 6 (heard (running 6 .none .zero ⟨0, 0, 0, 0⟩))
    counters := ⟨⟨100, 65, .empty, 0, false⟩, ⟨100, 65, .empty, 0, false⟩, ⟨100, 65, .empty, 0, false⟩, .reset⟩ }

theorem test_lapseHypotheses :
    let d := (waiting.advance (still 10100)).decisionAt mark .adopted 10
    (waiting.advance (still 10100)).boundaryOf mark = some (.adopted, 10) ∧ waiting.trial.request = .none ∧ d.replacement = none
      ∧ waiting.trial.phase = .accepting ∧ waiting.trial.count = 5 ∧ d.heardAborts = [] ∧ d.heardGo = none
      ∧ d.heardRun = false := by decide +kernel

theorem test_noQuorumHypotheses :
    let d := (unanswered.advance (still 10100)).decisionAt mark .adopted 10
    let gathered : State := { d with trial := { d.trial with accepted := d.nowAccepted } }
    (unanswered.advance (still 10100)).boundaryOf mark = some (.adopted, 10) ∧ unanswered.trial.request = .none
      ∧ d.replacement = none ∧ unanswered.trial.phase = .proposing ∧ unanswered.trial.count = 4 ∧ d.heardAbort = none
      ∧ d.proposerUnfit = none ∧ d.heardRefusal = none ∧ d.requiredLost = none ∧ gathered.unaccepted = some 6 := by
  decide +kernel

/-- The boundary that the mark of round 10 makes. -/
def boundary (s : State) : State := after (.characterComplete (still 10100) ⟨10, true, true⟩) s

/-- A proposer of station 5 whose required stations have all accepted sets GO for round 12. -/
theorem test_goIsSet :
    let s := { unanswered with trial := { unanswered.trial with accepted := 0x60, count := 1 } }
    let d := (s.advance (still 10100)).decisionAt mark .adopted 10
    let gathered : State := { d with trial := { d.trial with accepted := d.nowAccepted } }
    s.trial.request = .none ∧ 1 ≤ s.trial.count ∧ d.heardAbort = none ∧ d.replacement = none ∧ d.proposerUnfit = none
      ∧ d.heardRefusal = none ∧ d.requiredLost = none ∧ gathered.unaccepted = none
      ∧ (boundary s).trial.phase = .scheduled ∧ (boundary s).trial.startRound = 12
      ∧ (boundary s).ownReport.params.d = 12 := by decide +kernel

/-- A member of station 4's trial that hears its GO for a start round, and that may refuse it. -/
def told (start : BitVec 8) (refusing : Bool) : State :=
  { withTrial { tracked .accepting with role := .member, id := ⟨4, 2⟩, params := claim4, count := 2, refusing := refusing } with
    roster := active.roster.set 4 (heard (running 4 .go ⟨4, 2⟩ { claim4.claimBytes with d := start }))
    config := some { record with upstream := none }
    counters := ⟨⟨100, 65, .empty, 0, false⟩, ⟨100, 65, .empty, 0, false⟩, ⟨100, 65, .empty, 0, false⟩, .reset⟩ }

/-- The distances 0, 1, 2 and 3 of a GO, and a member that refuses it. -/
theorem test_goIsTaken :
    (∀ g ∈ [10, 11, 12, 13],
      let d := ((told g false).advance (still 10100)).decisionAt mark .adopted 10
      d.heardAborts = [] ∧ (d.heardGo.map (·.params.d)) = some g ∧ (told g false).brk = ⟨false, false⟩ ∧ d.draw.hard = false
        ∧ d.ineligible (told g false).trim.applied = none ∧ d.ineligible d.rampedTrim = none
        ∧ (told g false).ownReport.phase ≠ .refuse)
      ∧ (boundary (told 10 false)).trial.phase = .running ∧ (boundary (told 11 false)).trial.phase = .scheduled
      ∧ (boundary (told 12 false)).trial.watched = 0x30 ∧ (boundary (told 13 false)).trial.abortCause = Reason.missedGo.code
      ∧ (boundary (told 11 true)).trial.abortCause = Reason.notReady.code := by decide +kernel

/-- What a boundary leaves of a trial: its phase, and the outcome with its code and station. -/
def left (s : State) : LocalPhase × TrialOutcome × Byte × Station :=
  ((boundary s).trial.phase, (boundary s).lastOutcome.outcome, (boundary s).lastOutcome.code, (boundary s).lastOutcome.station)

/-- A bystander of the trial of station 4 that hears its GO for round 13. -/
def toldBeside : State := { told 13 false with
  trial := { (told 13 false).trial with role := .bystander, params := { claim4 with spanLast := 4 } }
  roster := active.roster.set 4
    (heard (running 4 .go ⟨4, 2⟩ { TrialParams.claimBytes { claim4 with spanLast := 4 } with d := 13 })) }

/-- A state whose log holds this many records. -/
def withRecords (k : Nat) (s : State) : State :=
  { s with log := { Log.reset with records := List.replicate k ⟨0, .snap, .zero, .empty, .none, 0, 0⟩ } }

/-- What a boundary leaves in the log: the number of records, and the last one's type, cause and origin. -/
def closedBy (s : State) : Nat × Option (RecordType × Byte × Station) :=
  ((boundary s).log.records.length, (boundary s).log.records.getLast?.map fun r => (r.type, r.cause, r.origin))

/-- R162: a member that aborts at the boundary that takes the GO closes in a log with room, and appends nothing to a full
one. -/
theorem test_closeAtTheGo :
    closedBy (withRecords 255 (told 13 false)) = (256, some (.close, Reason.missedGo.code, 5))
      ∧ closedBy (told 11 true) = (1, some (.close, Reason.notReady.code, 5))
      ∧ closedBy (withRecords 256 (told 13 false)) = (256, some (.snap, 0, 0))
      ∧ closedBy (withRecords 256 (told 11 false)) = (256, some (.snap, 0, 0)) := by decide +kernel

/-- The bystander's end, and LOG_CLOSED, which goes with the record that is appended. -/
theorem test_logClosedAtTheGo :
    toldBeside.isMember = false ∧ left toldBeside = (.recovering, .aborted, Reason.missedGo.code, 5)
      ∧ (boundary toldBeside).log.records = [] ∧ (boundary (told 11 true)).hasEvent .logClosed = true
      ∧ (boundary (withRecords 256 (told 11 false))).hasEvent .logClosed = false
      ∧ (boundary (withRecords 256 (told 11 false))).hasEvent .trialEnd = true
      ∧ (boundary toldBeside).hasEvent .logClosed = false := by decide +kernel

/-- An IDLE record hears station 4's claim: it answers ACCEPT, or REFUSE with NOT_NEUTRAL for a standing manual trim. -/
theorem test_adoption :
    let s := { told 10 false with
      trial := TrialRecord.empty, roster := active.roster.set 4 (heard (running 4 .claim ⟨4, 2⟩ claim4.claimBytes)) }
    let d := (s.advance (still 10100)).decisionAt mark .adopted 10
    d.link.state = .active ∧ d.heardClaims = [(⟨4, 2⟩, claim4)] ∧ claim4.inSpan s.station = true
      ∧ (boundary s).trial.phase = .accepting ∧ (boundary s).ownReport.phase = .accept
      ∧ (boundary { s with trim := { Trim.reset with manual := 5, target := 5, applied := 5 } }).ownReport.params.a
          = Reason.notNeutral.code := by decide +kernel

/-- The ends of an ACCEPTING record: its own request, an ABORT, a withdrawal, a RUN at a member and at a bystander, and a
lower claim that replaces it. -/
theorem test_acceptingEnds :
    let from4 (ph : TrialPhase) (p : ParamBytes) (t : TrialRecord) : State := { told 11 false with
      trial := t, roster := active.roster.set 4 (heard (running 4 ph ⟨4, 2⟩ p)) }
    let member := (told 11 false).trial
    let beside := { member with role := .bystander, params := { claim4 with spanLast := 4 } }
    left (from4 .claim claim4.claimBytes { beside with request := .abort }) = (.idle, .dropped, Reason.requested.code, 4)
      ∧ left (from4 .abort ⟨Reason.brk.code, 4, 0, 0⟩ member) = (.recovering, .aborted, Reason.brk.code, 4)
      ∧ left (from4 .abort ⟨Reason.withdrawn.code, 4, 0, 0⟩ member) = (.idle, .dropped, Reason.withdrawn.code, 4)
      ∧ left (from4 .run ⟨0, 0, 0, 2⟩ member) = (.recovering, .aborted, Reason.missedGo.code, 5)
      ∧ left (from4 .run ⟨0, 0, 0, 2⟩ beside) = (.idle, .dropped, Reason.missedGo.code, 4)
      ∧ (let s := from4 .claim claim4.claimBytes { member with id := ⟨9, 1⟩, params := { claim4 with kind := .drawStep } }
         left s = (.accepting, .none, 0, 0) ∧ (boundary s).trial.id = ⟨4, 2⟩) := by decide +kernel

/-- A member of a claim that hears nothing for it. -/
def unheard (refusing : Bool) : State := { told 11 refusing with roster := active.roster }

/-- A bystander of one. -/
def beside : State :=
  { unheard false with trial := { (unheard false).trial with role := .bystander, params := { claim4 with spanLast := 4 } } }

/-- What the report of the new round says: its phase, and its first parameter byte. -/
def answerOf (s : State) : TrialPhase × Byte := ((boundary s).ownReport.phase, (boundary s).ownReport.params.a)

/-- An ACCEPTING record that hears nothing stays: it accepts, refuses by request, or with a reason, which comes first; a
bystander says nothing. -/
theorem test_acceptingStays :
    let d := ((unheard false).advance (still 10100)).decisionAt mark .adopted 10
    d.heardAborts = [] ∧ d.heardGo = none ∧ d.heardRun = false ∧ d.replacement = none ∧ (unheard false).trial.count < 5
      ∧ (boundary (unheard false)).trial = { (unheard false).trial with count := 3 }
      ∧ left (unheard true) = (.accepting, .none, 0, 0) ∧ left beside = (.accepting, .none, 0, 0)
      ∧ answerOf (unheard false) = (.accept, claim4.byteA) ∧ answerOf (unheard true) = (.refuse, Reason.requested.code)
      ∧ answerOf { unheard true with brk := ⟨true, true⟩ } = (.refuse, Reason.brk.code)
      ∧ answerOf beside = (.none, 0) := by decide +kernel

/-- The ends of a PROPOSING record: its own request, a lower claim, its own eligibility, a REFUSE, a required station
lost; and one that goes on. -/
theorem test_proposingEnds :
    let proposer (r : Report) (t : TrialRecord) : State := { unanswered with
      trial := t, roster := (active.roster.set 4 (heard (running 4 .none .zero ⟨0, 0, 0, 0⟩))).set 6 (heard r) }
    let t := { unanswered.trial with count := 1 }
    let quiet := running 6 .none .zero ⟨0, 0, 0, 0⟩
    left (proposer quiet { t with request := .abort }) = (.recovering, .withdrawn, Reason.requested.code, 5)
      ∧ left { proposer quiet t with roster := active.roster.set 4 (heard (running 4 .claim ⟨4, 2⟩ claim4.claimBytes)) }
          = (.accepting, .lost, 0, 4)
      ∧ left { proposer quiet t with brk := ⟨true, true⟩ } = (.recovering, .withdrawn, Reason.brk.code, 5)
      ∧ left (proposer (running 6 .refuse ⟨5, 1⟩ ⟨Reason.draw.code, 0, 0, 0⟩) t) = (.recovering, .withdrawn, Reason.draw.code, 6)
      ∧ left { proposer quiet t with roster := active.roster } = (.recovering, .withdrawn, Reason.peerLost.code, 6)
      ∧ (boundary (proposer quiet t)).trial.phase = .proposing ∧ (boundary (proposer quiet t)).ownReport.phase = .claim := by
  decide +kernel

/-- The DRAW_STEP of 08 about to start, and about to complete. -/
def scheduled (p : TrialParams) : State :=
  { withTrial { tracked .scheduled with params := p, startRound := 10, readySet := 7, watched := 0x20 } with
    config := some { record with upstream := none } }

/-- See `scheduled`. -/
def lastRound : State := { scheduled step60 with trial := { tracked .running with remaining := 1, readySet := 7, watched := 0x20 } }

theorem test_trialStartHypotheses :
    ∀ p ∈ [step60, { step60 with kind := .shareStep, step := 25 }],
      let d := ((scheduled p).advance (still 10100)).decisionAt mark .adopted 10
      ((scheduled p).advance (still 10100)).boundaryOf mark = some (.adopted, 10) ∧ (scheduled p).trial.phase = .scheduled
        ∧ (scheduled p).trial.linkCloseOwed = false ∧ (scheduled p).trial.startRound = 10 ∧ d.abortCondition = none
        ∧ d.heardAbort = none ∧ (scheduled p).isMember = true ∧ d.log.records.length + d.log.ring.length ≤ 256
        ∧ (scheduled p).brk = ⟨false, false⟩ := by decide +kernel

/-- A SCHEDULED record whose start round is 11 waits at boundary 10. -/
theorem test_scheduledWaits :
    let s := { scheduled step60 with trial := { (scheduled step60).trial with startRound := 11, readySet := 5 } }
    let d := (s.advance (still 10100)).decisionAt mark .adopted 10
    (s.advance (still 10100)).boundaryOf mark = some (.adopted, 10) ∧ d.abortCondition = none ∧ d.heardAbort = none
      ∧ (boundary s).trial = { s.trial with count := 1, readySet := 7 } ∧ (boundary s).ownReport.phase = .go
      ∧ (boundary s).ownReport.params.d = 11 ∧ (boundary s).log.records = [] ∧ (boundary s).lastOutcome = s.lastOutcome := by
  decide +kernel

theorem test_trialCompletedHypotheses :
    let d := (lastRound.advance (still 10100)).decisionAt mark .adopted 10
    (lastRound.advance (still 10100)).boundaryOf mark = some (.adopted, 10) ∧ lastRound.trial.phase = .running
      ∧ lastRound.trial.linkCloseOwed = false ∧ lastRound.trial.remaining ≤ 1 ∧ d.abortCondition = none ∧ d.heardAbort = none
      ∧ lastRound.isMember = true ∧ d.log.records.length + 2 ≤ 256 ∧ lastRound.brk = ⟨false, false⟩ := by decide +kernel

/-- Its ring holds two samples: they become PRE records numbered from the counter. -/
theorem test_preRecords :
    let s := { scheduled step60 with log := { Log.reset with counter := 40, ring := [Sample.empty] } }
    (boundary s).log.records.map (fun r => (r.seq, r.type, r.id)) = [(40, .pre, ⟨5, 1⟩), (41, .pre, ⟨5, 1⟩)]
      ∧ (boundary s).log.counter = 42 ∧ (boundary s).log.ring = [] := by decide +kernel

/-- The rounds of a RUNNING record: one that counts, one that the operator aborts, one that the break aborts, one in which
READY is lost, and one that hears an ABORT of station 4. -/
def midway : State := { lastRound with trial := { lastRound.trial with remaining := 4 } }

theorem test_runningGoesOn :
    let d := (midway.advance (still 10100)).decisionAt mark .adopted 10
    midway.trial.phase = .running ∧ midway.trial.request ≠ .abort ∧ midway.brk = ⟨false, false⟩ ∧ d.chans.c0 = .ready
      ∧ d.draw.hard = false ∧ (d.entry 5).presence = .present ∧ d.heardAbort = none ∧ 1 < midway.trial.remaining
      ∧ d.log.records.length < 256 ∧ (boundary midway).trial.remaining = 3
      ∧ (boundary midway).log.records.map (·.type) = [.run] := by decide +kernel

theorem test_runningAborts :
    let causes (s : State) := ((boundary s).trial.phase, (boundary s).trial.abortsOwed, (boundary s).trial.abortCause)
    causes { midway with trial := { midway.trial with request := .abort } } = (.recovering, 3, Reason.requested.code)
      ∧ causes { midway with brk := ⟨true, true⟩ } = (.recovering, 3, Reason.brk.code)
      ∧ causes { midway with chans := midway.chans.set 1 .offline } = (.recovering, 3, Reason.driveFault.code)
      ∧ causes { midway with trial := { midway.trial with watched := 0x60 } } = (.recovering, 3, Reason.peerLost.code)
      ∧ causes { scheduled step60 with trial := { (scheduled step60).trial with startRound := 9 }, round := { active.round with number := 8 } }
          = (.recovering, 3, Reason.missedGo.code)
      ∧ (let s := { midway with
            trial := { midway.trial with readySet := 5 }
            roster := active.roster.set 4 (heard (running 4 .abort ⟨5, 1⟩ ⟨Reason.drawLimit.code, 4, 0, 0⟩)) }
         causes s = (.recovering, 1, Reason.drawLimit.code) ∧ (boundary s).trial.abortOrigin = 4
           ∧ (boundary s).trial.readySet = 7 ∧ (boundary s).hasEvent .logClosed = true) := by decide +kernel

/-- The last ramp back, with no claim heard and with one heard. -/
def recovering (r : Report) : State :=
  { proposing r step60 with trial := tracked .recovering, trim := { Trim.reset with applied := 10 } }

theorem test_recoveryHypotheses :
    ∀ r ∈ [running 4 .none .zero ⟨0, 0, 0, 0⟩, running 4 .claim ⟨4, 2⟩ claim4.claimBytes],
      let d := ((recovering r).advance (still 10100)).decisionAt mark .adopted 10
      ((recovering r).advance (still 10100)).boundaryOf mark = some (.adopted, 10) ∧ (recovering r).trial.phase = .recovering
        ∧ (recovering r).trial.abortsOwed = 0 ∧ d.rampedTrim = 0 ∧ d.rampedShift = 0 ∧ d.link.state = .active
        ∧ (d.heardClaims = [] ∨ d.heardClaims = [(⟨4, 2⟩, claim4)]) := by decide +kernel

/-- A record that still ramps refuses a heard claim whose span holds it, and reports NONE to one that does not. -/
theorem test_busyRefusal :
    let ramping (c : TrialParams) := { recovering (running 4 .claim ⟨4, 2⟩ c.claimBytes) with trim := { Trim.reset with applied := 200 } }
    (boundary (ramping claim4)).trial.phase = .recovering ∧ (boundary (ramping claim4)).ownReport.phase = .refuse
      ∧ (boundary (ramping claim4)).ownReport.id = ⟨4, 2⟩
      ∧ (boundary (ramping { claim4 with spanLast := 4 })).ownReport.phase = .none := by decide +kernel

/-! ### The drive lines and the outputs -/

/-- Channel 0's fast filters stand at one level, having differed from it at d looks, held or not. -/
def looking (level : Bool) (d : Nat) (held : Bool) (s : State) : State :=
  let f : FastFilter := ⟨level, d, held⟩
  { s with inputs := { s.inputs with spd := s.inputs.spd.set 0 f, ldf := s.inputs.ldf.set 0 f, idx := s.inputs.idx.set 0 f } }

/-- An edge is taken after the width's 3 µs and one look more, not before, and never while the line is held. -/
theorem test_edges :
    (∀ level ∈ [false, true], ∀ l ∈ [FastLine.spd, .ldf, .idx],
      (((looking level 4 false active).advance []).fastFilter l 0).level = level
        ∧ ((looking level 4 false active).fastFilter l 0).held = false ∧ active.cfg.fastWidth = 3)
      ∧ (after (.speedEdge [] 0 true) (looking false 4 false active)).counters.c0.net = 1
      ∧ (after (.speedEdge [] 0 true) (looking false 3 false active)).counters.c0.net = 0
      ∧ (after (.speedEdge [⟨1, ⟨1, 0, 0⟩, 0⟩] 0 true) (looking false 3 false active)).counters.c0.net = 1
      ∧ (after (.loadEdge [] 0) (looking false 0 true active)).counters.c0.loads = 0 := by decide +kernel

/-- Looks of a raw level: a rise of 3 µs is discarded, one of 4 µs is taken, a held line is seen low, and channel 3,
DISABLED, never looks. -/
theorem test_looks :
    let filter (w : Wait) (s : State) := (s.advance w).inputs.spd.c0
    filter [⟨3, ⟨1, 0, 0⟩, 0⟩, ⟨1, ⟨0, 0, 0⟩, 0⟩] (looking false 0 false active) = ⟨false, 0, false⟩
      ∧ filter [⟨4, ⟨1, 0, 0⟩, 0⟩, ⟨1, ⟨0, 0, 0⟩, 0⟩] (looking false 0 false active) = ⟨false, 4, false⟩
      ∧ filter [⟨9, ⟨1, 0, 0⟩, 0⟩] (looking false 0 true active) = ⟨false, 0, true⟩
      ∧ filter [⟨1, ⟨0, 0, 0⟩, 0⟩] (looking false 0 true active) = ⟨false, 0, false⟩
      ∧ (active.advance [⟨9, ⟨15, 15, 15⟩, 0⟩]).inputs.spd.c3 = active.inputs.spd.c3 := by decide +kernel

/-- A check under way on channel 0, its count at the limit or not, its timer at 60 s. -/
def checking (st : CheckState) (n : Int) : State :=
  { active with check := { active.check with state := st, count := n, timer := .running 0 } }

theorem test_checks :
    (checking .counting 65534).check.state = .counting ∧ ((65534 : Int) + 1).natAbs ≤ 65535
      ∧ 65535 < ((65535 : Int) + 1).natAbs ∧ (checking .armed 0).checkUnderWay = true
      ∧ 60000000 ≤ ((checking .armed 0).advance (still 60000000)).indexReading
      ∧ (let t := after (.speedEdge [] 0 true) (looking false 4 false (checking .counting 65534))
         t.check.count = 65535 ∧ t.check.state = .counting)
      ∧ (let t := after (.speedEdge [] 0 true) (looking false 4 false (checking .counting 65535))
         t.check.verdict = .incomplete .overrange ∧ t.hasEvent .revCheckDone = true)
      ∧ (let t := after (.indexEdge [] 0) (looking false 4 false (checking .counting 2049))
         t.check.verdict = .isMatch ∧ t.check.state = .done)
      ∧ (after (.indexEdge [] 0) (looking false 4 false (checking .counting 2050))).check.verdict = .mismatch := by
  decide +kernel

/-- RDY turning inactive and FLT turning active end a check under way on their channel. -/
theorem test_channelEndsTheCheck :
    (let s := { checking .armed 0 with inputs := { active.inputs with rdy := .all ⟨true, 20⟩ } }
     let t := after (.rdyChange [] 0) s
     s.chans.get 0 = .ready ∧ t.chans.get 0 = .offline ∧ t.check.verdict = .incomplete .channel)
      ∧ (let s := { checking .armed 0 with inputs := { active.inputs with flt := .all ⟨false, 20⟩ } }
         let t := after (.fltChange [] 0) s
         t.chans.get 0 = .faulted .faultInput ∧ t.check.verdict = .incomplete .channel ∧ t.hasEvent .revCheckDone = true) := by
  decide +kernel

/-- The slow filters with a change of every line due at the next instant. -/
def flipping (a : Bool) : State :=
  { active with inputs := { active.inputs with rdy := .all ⟨a, 20⟩, flt := .all ⟨a, 20⟩, brk := ⟨a, 20⟩ } }

theorem test_flips :
    ∀ a ∈ [true, false],
      ((flipping a).inputs.rdy.get 0).run = (flipping a).cfg.slowTime ∧ ((flipping a).inputs.flt.get 0).run = (flipping a).cfg.slowTime
        ∧ (flipping a).inputs.brk.run = (flipping a).cfg.slowTime ∧ (flipping a).config.isSome = true
        ∧ (flipping a).isFaulted 0 = false ∧ (flipping a).inputs.brk.active = a := by decide +kernel

theorem test_stallAndSample :
    ({ active with counters := .all { Counters.reset with stalled := false } } : State).counters.c0.stalled = false
      ∧ active.counters.c0.stallFrom + 1000 * active.cfg.stallTime ≤ (active.advance (still 300000)).now
      ∧ active.inputs.sensedFrom + 1000 * (active.inputs.samples + 1) ≤ (active.advance (still 1000)).now := by decide +kernel

/-- R73, R76: a sample counts a level that differs, and the wait before it, with SPD0 and SPD3 high, is looks of the fast
filter of channel 0, and none of the DISABLED channel 3. -/
theorem test_slowSample :
    let t := after (.slowFilterSample [⟨998, ⟨0, 0, 0⟩, 0⟩, ⟨2, ⟨9, 0, 0⟩, 0⟩] ⟨1, 0xF, true⟩) active
    t.inputs.samples = 1 ∧ t.inputs.rdy.c0 = ⟨false, 1⟩ ∧ t.inputs.rdy.c1 = ⟨false, 0⟩ ∧ t.inputs.brk = ⟨false, 0⟩
      ∧ t.inputs.spd.c0 = ⟨false, 2, false⟩ ∧ t.inputs.spd.c3 = ⟨false, 0, false⟩ := by decide +kernel

theorem test_outputs :
    active.pwm.running = true ∧ active.pwm.start + 1000 ≤ (active.advance (still 1000)).now ∧ active.pwm.trm = true
      ∧ active.pwm.start + active.pwm.trmNow ≤ (active.advance (still 500)).now ∧ active.pwm.sht.get 0 = true
      ∧ active.pwm.start + active.pwm.shtNow.get 0 ≤ (active.advance (still 500)).now := by decide +kernel

/-- An ACTIVE node with one record, a standing manual trim and a command in its queue. -/
def standing : State :=
  let s := logged active
  { s with trim := { Trim.reset with manual := 20, target := 20, applied := 10 }, pending := [.standbyLocalBoundary []] }

theorem test_invariantHypotheses_log : standing.logInOrder := by
  unfold State.logInOrder; decide +kernel

theorem test_invariantHypotheses_link : standing.followsLink := by
  unfold State.followsLink State.lineFollowsLink State.rosterFollowsLink State.trialFollowsLink State.configFollowsLink
    State.countsInRange
  decide +kernel

theorem test_invariantHypotheses_trims : standing.trimsWithinLimits := by
  unfold State.trimsWithinLimits State.targetIsChosen State.stepWithinLimits
  refine ⟨by decide +kernel, by decide +kernel, ?_, by decide +kernel, by decide +kernel, by decide +kernel,
    by decide +kernel, by decide +kernel, by decide +kernel, by decide +kernel, ?_⟩
  · intro v h; cases h
  · intro i p h; cases h

theorem test_invariantHypotheses_step : ∃ t, step standing = .next t := ⟨_, rfl⟩

/-- Targets chosen from the manual trim, from a trial, and under a break. -/
theorem test_targetIsChosen :
    (({ active with trim := { Trim.reset with manual := 20, target := 20 } } : State).trim.target
        = (if active.breakInForce then 0 else (none : Option Int).getD 20))
      ∧ (let s : State := { active with brk := ⟨true, true⟩, trim := { Trim.reset with trialTarget := some 60, target := 0 } }
         s.trim.target = if s.breakInForce then 0 else s.trim.trialTarget.getD s.trim.manual) := by decide

/-- A boundary under the break latch ramps toward 0 by the RECOVERY limit, and forms the high times. -/
theorem test_rampAtBoundary :
    let s := { withTrial TrialRecord.empty with brk := ⟨true, true⟩, trim := { Trim.reset with trialTarget := some 60, applied := 60, cls := .normal } }
    s.trim.target = (if s.breakInForce then 0 else 60) ∧ (boundary s).trim.applied = 10
      ∧ (boundary s).pwm.trmNext = 8060 := by decide +kernel

/-- After CLEAR_BREAK an accepted MANUAL_TRIM ends the RECOVERY rate, while the mark still holds the target at 0. -/
theorem test_manualTrimAfterBreak :
    let s := { withTrial TrialRecord.empty with brk := ⟨false, true⟩, trim := { Trim.reset with applied := 60, cls := .recovery } }
    let t := after (.manualTrim []) (asks .manualTrim [0, 100] s)
    t.trim.cls = .normal ∧ (boundary t).trim.applied = 50 := by decide +kernel

theorem test_ramp :
    ((60 : Int) - 30).natAbs ≤ 30 ∧ ((30 : Nat) : Int) < 60 - 0 ∧ (0 : Int) - 60 < -((50 : Nat) : Int) := by decide

theorem test_formats : Report.empty.readyCount ≤ 4 ∧ step60.valid = true := by decide

end Sys2Proof.Tests
end

section
/-! PROOFS. The section measurement of a boundary (05): what the second pass makes of the channels as the latchings left
them, how the share alarm steps by its table, and what of both stands in the state that the boundary leaves. -/

namespace Sys2Proof.Machine

/-! ### Integers -/

/-- Away from a divisor of 0 the model's quotient is the truncating one. -/
theorem truncDiv_of_ne_zero (x : Int) {d : Int} (h : d ≠ 0) : truncDiv x d = x.tdiv d := by
  rw [truncDiv, if_neg h]

theorem clamp_eq_max_min {lo hi : Int} (h : lo ≤ hi) (x : Int) : clamp lo hi x = max lo (min hi x) := by
  unfold clamp
  split
  · omega
  · split <;> omega

/-! ### The alarm's table, row by row (R100, R123) -/

theorem alarmStep_clear_inside (limit o i : Nat) : alarmStep limit false o i false = (false, 0, 0) := rfl

theorem alarmStep_set_outside (limit o i : Nat) : alarmStep limit true o i true = (true, 0, 0) := rfl

theorem alarmStep_clear_outside {limit o : Nat} (i : Nat) (h : o + 1 ≠ limit) :
    alarmStep limit false o i true = (false, o + 1, 0) := by simp [alarmStep, h]

theorem alarmStep_clear_outside_last {limit o : Nat} (i : Nat) (h : o + 1 = limit) :
    alarmStep limit false o i true = (true, 0, 0) := by simp [alarmStep, h]

theorem alarmStep_set_inside {limit i : Nat} (o : Nat) (h : i + 1 ≠ limit) :
    alarmStep limit true o i false = (true, 0, i + 1) := by simp [alarmStep, h]

theorem alarmStep_set_inside_last {limit i : Nat} (o : Nat) (h : i + 1 = limit) :
    alarmStep limit true o i false = (false, 0, 0) := by simp [alarmStep, h]

/-! ### The section's values of a state (R97 to R99) -/

/-- Without a READY channel there is no section speed. -/
theorem meanSpeed_of_none_ready {s : State} (h : channels.filter s.ready = []) : s.meanSpeed = none := by
  simp [State.meanSpeed, State.readyCount, h]

/-- The section speed is the mean over the READY channels. -/
theorem meanSpeed_of_ready {s : State} (h : channels.filter s.ready ≠ []) :
    s.meanSpeed = some (((channels.filter s.ready).map s.channelSpeed).sum.tdiv (channels.filter s.ready).length) := by
  have hn : s.readyCount ≠ 0 := fun h0 => h (List.length_eq_zero_iff.mp h0)
  rw [State.meanSpeed, if_neg hn, truncDiv_of_ne_zero _ (by exact_mod_cast hn)]
  rfl

theorem sectionLoad_of_none_ready {s : State} (h : channels.filter s.ready = []) : s.sectionLoad = none := by
  simp [State.sectionLoad, State.readyCount, h]

theorem sectionLoad_of_ready {s : State} (h : channels.filter s.ready ≠ []) :
    s.sectionLoad = some (s.weightedLoad.tdiv 1000) := by
  have hn : s.readyCount ≠ 0 := fun h0 => h (List.length_eq_zero_iff.mp h0)
  rw [State.sectionLoad, if_neg hn, truncDiv_of_ne_zero _ (by decide)]

/-- Shares are computed when a channel is READY, the section load reaches its minimum and the weighted load is positive. -/
theorem sharesDue_iff (s : State) :
    s.sharesDue = true
      ↔ channels.filter s.ready ≠ [] ∧ (s.cfg.minLoad : Int) ≤ s.weightedLoad.tdiv 1000 ∧ 0 < s.weightedLoad := by
  unfold State.sharesDue
  by_cases h : channels.filter s.ready = []
  · simp [sectionLoad_of_none_ready h, h]
  · simp [sectionLoad_of_ready h, h]

theorem actualShare_of_sharesDue {s : State} (h : s.sharesDue = true) (m : Channel) :
    s.actualShare m
      = max (-2000) (min 2000 ((s.channelLoad m * (s.cfg.chan.get m).share * 1000).tdiv s.weightedLoad)) := by
  obtain ⟨-, -, hpos⟩ := (sharesDue_iff s).mp h
  rw [State.actualShare, clamp_eq_max_min (by decide), truncDiv_of_ne_zero _ (Int.ne_of_gt hpos)]

theorem targetAmongReady_of_ne_zero {s : State} (h : s.readyShares ≠ 0) (m : Channel) :
    s.targetAmongReady m = (((s.cfg.chan.get m).share : Int) * 1000).tdiv s.readyShares := by
  rw [State.targetAmongReady, truncDiv_of_ne_zero _ (by exact_mod_cast h)]

/-! ### States with the same channels -/

/-- What the section's values are formed from is the same in two states. -/
structure SameChannels (t s : State) : Prop where
  ready : t.ready = s.ready
  speed : t.channelSpeed = s.channelSpeed
  load : t.channelLoad = s.channelLoad
  cfg : t.cfg = s.cfg

namespace SameChannels

variable {s t : State}

/-- Channel states, channel values and configuration fix what the section's values are formed from. -/
theorem of_fields (hchans : t.chans = s.chans) (hvalues : t.meas.chan = s.meas.chan) (hconfig : t.config = s.config) :
    SameChannels t s where
  ready := by funext m; simp only [State.ready, hchans]
  speed := by funext m; simp only [State.channelSpeed, hvalues]
  load := by funext m; simp only [State.channelLoad, hvalues]
  cfg := by simp only [State.cfg, hconfig]

theorem readyCount (h : SameChannels t s) : t.readyCount = s.readyCount := by
  simp only [State.readyCount, h.ready]

theorem meanSpeed (h : SameChannels t s) : t.meanSpeed = s.meanSpeed := by
  unfold State.meanSpeed; rw [h.readyCount, h.ready, h.speed]

theorem weightedLoad (h : SameChannels t s) : t.weightedLoad = s.weightedLoad := by
  simp only [State.weightedLoad, h.ready, h.load, h.cfg]

theorem sectionLoad (h : SameChannels t s) : t.sectionLoad = s.sectionLoad := by
  unfold State.sectionLoad; rw [h.readyCount, h.weightedLoad]

theorem sharesDue (h : SameChannels t s) : t.sharesDue = s.sharesDue := by
  simp only [State.sharesDue, h.sectionLoad, h.cfg, h.weightedLoad]

theorem actualShare (h : SameChannels t s) : t.actualShare = s.actualShare := by
  funext m; simp only [State.actualShare, h.load, h.cfg, h.weightedLoad]

theorem targetAmongReady (h : SameChannels t s) : t.targetAmongReady = s.targetAmongReady := by
  funext m; simp only [State.targetAmongReady, State.readyShares, h.ready, h.cfg]

end SameChannels

/-! ### What the second pass leaves -/

/-- The section speed, load and shares of a state are those of its own channels. -/
structure SectionValued (t : State) : Prop where
  speed : t.meas.speed = t.meanSpeed
  load : t.meas.load = t.sectionLoad
  computed : t.meas.sharesComputed = t.sharesDue
  share : ∀ m, (t.meas.chan.get m).share = if t.sharesDue && t.ready m then some (t.actualShare m) else none
  deviation : ∀ m, (t.meas.chan.get m).deviation
    = if t.sharesDue && t.ready m then some (t.actualShare m - t.targetAmongReady m) else none

/-- The second pass leaves the channels it judges on as they were. -/
theorem sectionValues_sameChannels (s : State) : SameChannels s.sectionValues s where
  ready := rfl
  speed := by funext m; simp only [State.channelSpeed, State.sectionValues, Quad.get_ofFn]; split <;> rfl
  load := by funext m; simp only [State.channelLoad, State.sectionValues, Quad.get_ofFn]; split <;> rfl
  cfg := rfl

theorem sectionValues_sectionValued (s : State) : SectionValued s.sectionValues := by
  have h := sectionValues_sameChannels s
  refine ⟨h.meanSpeed.symm, h.sectionLoad.symm, h.sharesDue.symm, fun m => ?_, fun m => ?_⟩
  · rw [h.sharesDue, h.ready, h.actualShare]
    simp only [State.sectionValues, Quad.get_ofFn]; split <;> rfl
  · rw [h.sharesDue, h.ready, h.actualShare, h.targetAmongReady]
    simp only [State.sectionValues, Quad.get_ofFn]; split <;> rfl

/-- A step of the alarm leaves the section's values what they are. -/
theorem SectionValued.of_meas {s t : State} (h : SectionValued s) {alarm : Bool} {outRun inRun : Nat}
    (hchans : t.chans = s.chans) (hconfig : t.config = s.config)
    (hmeas : t.meas = { s.meas with alarm := alarm, outRun := outRun, inRun := inRun }) : SectionValued t := by
  have hc : SameChannels t s := .of_fields hchans (by rw [hmeas]) hconfig
  constructor
  case speed => rw [hc.meanSpeed, hmeas]; exact h.speed
  case load => rw [hc.sectionLoad, hmeas]; exact h.load
  case computed => rw [hc.sharesDue, hmeas]; exact h.computed
  case share => rw [hc.sharesDue, hc.ready, hc.actualShare, hmeas]; exact h.share
  case deviation => rw [hc.sharesDue, hc.ready, hc.actualShare, hc.targetAmongReady, hmeas]; exact h.deviation

namespace SectionValued

variable {t : State}

theorem speed_load_of_none_ready (h : SectionValued t) (hnone : channels.filter t.ready = []) :
    t.meas.speed = none ∧ t.meas.load = none :=
  ⟨h.speed.trans (meanSpeed_of_none_ready hnone), h.load.trans (sectionLoad_of_none_ready hnone)⟩

/-- The section speed and load over the READY channels (R97). -/
theorem speed_load_of_ready (h : SectionValued t) (hsome : channels.filter t.ready ≠ []) :
    t.meas.speed = some (((channels.filter t.ready).map t.channelSpeed).sum.tdiv (channels.filter t.ready).length)
      ∧ t.meas.load = some (t.weightedLoad.tdiv 1000) :=
  ⟨h.speed.trans (meanSpeed_of_ready hsome), h.load.trans (sectionLoad_of_ready hsome)⟩

theorem computed_iff (h : SectionValued t) :
    t.meas.sharesComputed = true
      ↔ channels.filter t.ready ≠ [] ∧ (t.cfg.minLoad : Int) ≤ t.weightedLoad.tdiv 1000 ∧ 0 < t.weightedLoad := by
  rw [h.computed]; exact sharesDue_iff t

/-- A READY channel's share, where shares are computed (R99). -/
theorem share_of_computed (h : SectionValued t) {m : Channel} (hd : t.meas.sharesComputed = true) (hm : t.ready m = true) :
    (t.meas.chan.get m).share
      = some (max (-2000) (min 2000 ((t.channelLoad m * (t.cfg.chan.get m).share * 1000).tdiv t.weightedLoad))) := by
  have hdue : t.sharesDue = true := h.computed ▸ hd
  simp [h.share, hdue, hm, actualShare_of_sharesDue hdue]

/-- A READY channel's deviation, where shares are computed and a READY channel has a share target (R98, R99). -/
theorem deviation_of_computed (h : SectionValued t) {m : Channel} (hd : t.meas.sharesComputed = true)
    (hm : t.ready m = true) (ht : t.readyShares ≠ 0) :
    (t.meas.chan.get m).deviation
      = some (max (-2000) (min 2000 ((t.channelLoad m * (t.cfg.chan.get m).share * 1000).tdiv t.weightedLoad))
          - (((t.cfg.chan.get m).share : Int) * 1000).tdiv t.readyShares) := by
  have hdue : t.sharesDue = true := h.computed ▸ hd
  simp [h.deviation, hdue, hm, actualShare_of_sharesDue hdue, targetAmongReady_of_ne_zero ht]

/-- Where shares are not computed, and for a channel that is not READY, there is neither share nor deviation. -/
theorem none_of_not_computed (h : SectionValued t) {m : Channel} (hn : t.meas.sharesComputed = false ∨ t.ready m = false) :
    (t.meas.chan.get m).share = none ∧ (t.meas.chan.get m).deviation = none := by
  have hoff : (t.sharesDue && t.ready m) = false := by
    rcases hn with hd | hm
    · rw [← h.computed, hd, Bool.false_and]
    · rw [hm, Bool.and_false]
  simp [h.share, h.deviation, hoff]

/-- Only a READY channel has a deviation. -/
theorem ready_of_deviation (h : SectionValued t) {m : Channel} {d : Int} (hd : (t.meas.chan.get m).deviation = some d) :
    t.ready m = true := by
  by_contra hm
  simp [(h.none_of_not_computed (.inr (by simpa using hm))).2] at hd

end SectionValued

theorem mem_ready_iff (s : State) (m : Channel) : m ∈ channels.filter s.ready ↔ s.ready m = true := by
  have hm : m ∈ channels := by fin_cases m <;> simp [channels]
  simp [hm]

/-! ### The share alarm's step (R100, R101) -/

/-- A READY channel's deviation is larger in magnitude than the share tolerance. -/
theorem shareOutside_iff {s : State} (h : SectionValued s) :
    s.shareOutside = true
      ↔ ∃ (m : Channel) (d : Int), s.ready m = true ∧ (s.meas.chan.get m).deviation = some d
          ∧ s.cfg.shareTolerance < d.natAbs := by
  simp only [State.shareOutside, List.any_eq_true]
  constructor
  · rintro ⟨m, -, hm⟩
    split at hm
    · next d hd => exact ⟨m, d, h.ready_of_deviation hd, hd, by simpa using hm⟩
    · simp at hm
  · rintro ⟨m, d, -, hd, hlt⟩
    exact ⟨m, by fin_cases m <;> simp [channels], by simp [hd, hlt]⟩

/-- The share alarm with its outside run and its inside run after a boundary. -/
def State.shareAlarmAfter (s : State) : Bool × Nat × Nat :=
  if s.meas.sharesComputed then alarmStep 4 s.meas.alarm s.meas.outRun s.meas.inRun s.shareOutside
  else (s.meas.alarm, s.meas.outRun, s.meas.inRun)

/-- The alarm's step gives the alarm and its runs, and leaves every other value of the section as it was. -/
theorem judgeShares_meas (s : State) :
    s.judgeShares.meas
      = { s.meas with
          alarm := s.shareAlarmAfter.1, outRun := s.shareAlarmAfter.2.1, inRun := s.shareAlarmAfter.2.2 } := by
  unfold State.judgeShares State.shareAlarmAfter
  split
  · simp
  · rfl

/-- SHARE_ALARM is raised when the alarm becomes set. -/
theorem judgeShares_hasEvent {s : State} (hc : s.meas.alarm = false) (hs : s.shareAlarmAfter.1 = true) :
    s.judgeShares.hasEvent .shareAlarm = true := by
  unfold State.shareAlarmAfter at hs
  rw [hc] at hs
  unfold State.judgeShares
  split at hs
  · next hd => simp [hd, hc, hs, State.raiseIf]
  · simp at hs

/-! ### The section at a boundary -/

/-- The alarm of a boundary is judged on the values of its second pass. -/
def State.valued (s : State) : State := ((s.dropAttempt.handOver (s.now - s.round.start)).judgeChannels).sectionValues

theorem measured_eq_judgeShares (s : State) : s.measured = s.valued.judgeShares := rfl

theorem valued_sectionValued (s : State) : SectionValued s.valued := sectionValues_sectionValued _

@[simp] theorem valued_config (s : State) : s.valued.config = s.config := by simp [State.valued]

theorem handOver_alarm (s : State) (T : Nat) : (s.handOver T).meas.alarm = s.meas.alarm := rfl
theorem handOver_outRun (s : State) (T : Nat) : (s.handOver T).meas.outRun = s.meas.outRun := rfl
theorem handOver_inRun (s : State) (T : Nat) : (s.handOver T).meas.inRun = s.meas.inRun := rfl

/-- A slip count and a latching leave the alarm and its runs alone. -/
theorem judgeChannels_alarm (s : State) :
    s.judgeChannels.meas.alarm = s.meas.alarm ∧ s.judgeChannels.meas.outRun = s.meas.outRun
      ∧ s.judgeChannels.meas.inRun = s.meas.inRun := by
  refine ⟨foldl_keeps _ (·.meas.alarm) ?_ _ _, foldl_keeps _ (·.meas.outRun) ?_ _ _,
    foldl_keeps _ (·.meas.inRun) ?_ _ _⟩
  all_goals intro t n; split <;> simp [State.setSlip]

/-- Before its step the alarm stands as the boundary found it. -/
theorem valued_alarm (s : State) :
    s.valued.meas.alarm = s.meas.alarm ∧ s.valued.meas.outRun = s.meas.outRun ∧ s.valued.meas.inRun = s.meas.inRun := by
  obtain ⟨halarm, hout, hin⟩ := judgeChannels_alarm (s.dropAttempt.handOver (s.now - s.round.start))
  rw [handOver_alarm, dropAttempt_meas] at halarm
  rw [handOver_outRun, dropAttempt_meas] at hout
  rw [handOver_inRun, dropAttempt_meas] at hin
  exact ⟨halarm, hout, hin⟩

/-- The alarm's step at a boundary without shares. -/
theorem shareAlarmAfter_of_not_computed {s : State} (h : s.valued.meas.sharesComputed = false) :
    s.valued.shareAlarmAfter = (s.meas.alarm, s.meas.outRun, s.meas.inRun) := by
  obtain ⟨ha, ho, hi⟩ := valued_alarm s
  simp [State.shareAlarmAfter, h, ha, ho, hi]

/-- The alarm's step at a boundary with shares. -/
theorem shareAlarmAfter_of_computed {s : State} (h : s.valued.meas.sharesComputed = true) :
    s.valued.shareAlarmAfter = alarmStep 4 s.meas.alarm s.meas.outRun s.meas.inRun s.valued.shareOutside := by
  obtain ⟨ha, ho, hi⟩ := valued_alarm s
  simp [State.shareAlarmAfter, h, ha, ho, hi]

/-- The section's values that a boundary leaves. -/
theorem takeBoundary_meas_eq (s : State) (k : BoundaryKind) (n : BitVec 8) :
    (s.takeBoundary k n).meas
      = { s.valued.meas with
          alarm := s.valued.shareAlarmAfter.1, outRun := s.valued.shareAlarmAfter.2.1
          inRun := s.valued.shareAlarmAfter.2.2 } := by
  rw [takeBoundary_meas, measured_eq_judgeShares, judgeShares_meas]

/-- What the alarm's step answers is what the boundary leaves of the alarm and its runs. -/
theorem takeBoundary_alarm_of {s : State} {alarm : Bool} {outRun inRun : Nat} (k : BoundaryKind) (n : BitVec 8)
    (h : s.valued.shareAlarmAfter = (alarm, outRun, inRun)) :
    (s.takeBoundary k n).meas.alarm = alarm ∧ (s.takeBoundary k n).meas.outRun = outRun
      ∧ (s.takeBoundary k n).meas.inRun = inRun := by
  rw [takeBoundary_meas_eq, h]; exact ⟨rfl, rfl, rfl⟩

theorem takeBoundary_sharesComputed (s : State) (k : BoundaryKind) (n : BitVec 8) :
    (s.takeBoundary k n).meas.sharesComputed = s.valued.meas.sharesComputed := by rw [takeBoundary_meas_eq]

/-- A boundary leaves section values that are those of the channels as it leaves them. -/
theorem takeBoundary_sectionValued (s : State) (k : BoundaryKind) (n : BitVec 8) : SectionValued (s.takeBoundary k n) :=
  (valued_sectionValued s).of_meas (by rw [takeBoundary_chans, measured_eq_judgeShares, judgeShares_chans])
    (by simp) (takeBoundary_meas_eq s k n)

/-- A boundary that sets the share alarm leaves SHARE_ALARM set. -/
theorem takeBoundary_shareAlarm {s : State} (k : BoundaryKind) (n : BitVec 8) (hc : s.meas.alarm = false)
    (hs : s.valued.shareAlarmAfter.1 = true) : (s.takeBoundary k n).hasEvent .shareAlarm = true := by
  apply (takeBoundary_raised_measured s k n).hasEvent
  rw [measured_eq_judgeShares]
  exact judgeShares_hasEvent ((valued_alarm s).1.trans hc) hs

/-! ### The commands at a boundary -/

/-- A boundary's own command takes its event. -/
theorem exec_boundaryCommand (after : Wait) (b : BoundaryEvent) (s : State) :
    exec (boundaryCommand after b) s = .next ((s.advance after).boundaryEvent b) := by cases b <;> rfl

/-- A boundary's own command takes the boundary. -/
theorem exec_boundaryCommand_of {after : Wait} {b : BoundaryEvent} {s : State} {k : BoundaryKind} {n : BitVec 8}
    (h : (s.advance after).boundaryOf b = some (k, n)) :
    exec (boundaryCommand after b) s = .next (((s.advance after).boundaryBase b).takeBoundary k n) := by
  rw [exec_boundaryCommand, boundaryEvent_of_boundaryOf h]

/-- SHARE_ALARM takes the boundary that sets the alarm. -/
theorem exec_shareAlarm_of {after : Wait} {b : BoundaryEvent} {s : State} {k : BoundaryKind} {n : BitVec 8}
    (h : (s.advance after).boundaryOf b = some (k, n)) (hc : s.meas.alarm = false)
    (hs : (((s.advance after).boundaryBase b).takeBoundary k n).meas.alarm = true) :
    exec (.shareAlarm after b) s = .next (((s.advance after).boundaryBase b).takeBoundary k n) := by
  show Host.Outcome.next ((s.advance after).whenComesAbout b fun s t => !s.meas.alarm && t.meas.alarm) = _
  rw [whenComesAbout_of h (by simp [hc, hs])]

/-- SHARE_ALARM_CLEAR takes the boundary that clears the alarm. -/
theorem exec_shareAlarmClear_of {after : Wait} {b : BoundaryEvent} {s : State} {k : BoundaryKind} {n : BitVec 8}
    (h : (s.advance after).boundaryOf b = some (k, n)) (hs : s.meas.alarm = true)
    (hc : (((s.advance after).boundaryBase b).takeBoundary k n).meas.alarm = false) :
    exec (.shareAlarmClear after b) s = .next (((s.advance after).boundaryBase b).takeBoundary k n) := by
  show Host.Outcome.next ((s.advance after).whenComesAbout b fun s t => s.meas.alarm && !t.meas.alarm) = _
  rw [whenComesAbout_of h (by simp [hc, hs])]

/-- Settles O39: the values by `SectionValued`, which the second pass establishes and nothing after it in the boundary
disturbs; the alarm by the rows of its table. -/
theorem shareAlarmSteps : Obligations.ShareAlarmSteps := by
  intro after b k n s a valued outside hb
  set base := a.boundaryBase b with hbase
  set t := base.takeBoundary k n with ht
  have hcfg : s.cfg = t.cfg := by simp [State.cfg, ht, hbase, a]
  have hvalued : valued = base.valued := by simp [valued, State.valued, hbase, a]
  have hv : SectionValued t := takeBoundary_sectionValued base k n
  have hrun : exec (boundaryCommand after b) s = .next t := exec_boundaryCommand_of hb
  have hfound : base.meas = s.meas := by simp [hbase, a]
  have houtside : base.valued.shareOutside = true ↔ outside := by
    rw [shareOutside_iff (valued_sectionValued base)]
    simp [outside, hvalued, State.cfg, hbase, a]
  have hinside : ¬outside → base.valued.shareOutside = false := fun ho => Bool.eq_false_iff.mpr (mt houtside.mp ho)
  rw [hvalued]
  refine ⟨⟨t, hrun, ?_⟩, fun hd => ?_, fun hd => ?_⟩
  · rw [hcfg]
    refine ⟨hv.speed_load_of_none_ready, hv.speed_load_of_ready, hv.computed_iff,
      fun m => ⟨fun hd hm => ?_, fun hn => ?_⟩⟩
    · have hready := (mem_ready_iff t m).mp hm
      exact ⟨hv.share_of_computed hd hready, hv.deviation_of_computed hd hready⟩
    · exact hv.none_of_not_computed (hn.imp_right fun hm => Bool.eq_false_iff.mpr (mt (mem_ready_iff t m).mpr hm))
  · have hstep := shareAlarmAfter_of_not_computed hd
    rw [hfound] at hstep
    exact ⟨t, hrun, (takeBoundary_sharesComputed base k n).trans hd, takeBoundary_alarm_of k n hstep⟩
  · have hstep := shareAlarmAfter_of_computed hd
    rw [hfound] at hstep
    refine ⟨⟨t, hrun, (takeBoundary_sharesComputed base k n).trans hd, fun hc ho hl => ?_, fun hc ho => ?_,
      fun hs ho hl => ?_, fun hs ho => ?_⟩, fun hc ho hl => ?_, fun hs ho hl => ?_⟩
    · rw [hc, houtside.mpr ho, alarmStep_clear_outside _ hl] at hstep
      exact takeBoundary_alarm_of k n hstep
    · rw [hc, hinside ho, alarmStep_clear_inside] at hstep
      exact takeBoundary_alarm_of k n hstep
    · rw [hs, hinside ho, alarmStep_set_inside _ hl] at hstep
      exact takeBoundary_alarm_of k n hstep
    · rw [hs, houtside.mpr ho, alarmStep_set_outside] at hstep
      exact takeBoundary_alarm_of k n hstep
    · rw [hc, houtside.mpr ho, alarmStep_clear_outside_last _ hl] at hstep
      obtain ⟨halarm, hruns⟩ := takeBoundary_alarm_of k n hstep
      have hraised := takeBoundary_shareAlarm k n (by rw [hfound, hc]) (by rw [hstep])
      exact ⟨t, exec_shareAlarm_of hb hc halarm, halarm, hruns.1, hruns.2, hraised⟩
    · rw [hs, hinside ho, alarmStep_set_inside_last _ hl] at hstep
      obtain ⟨halarm, hruns⟩ := takeBoundary_alarm_of k n hstep
      exact ⟨t, exec_shareAlarmClear_of hb hs halarm, halarm, hruns⟩

end Sys2Proof.Machine
end

section
/-! PROOFS. The pulse-width outputs (08): the high times that the trims give, the dither frame of TRM, and the commands of
the period's start and of a high time's end. -/

namespace Sys2Proof.Machine

/-! ### High times (R143, R145) -/

/-- Down to a trim of −1333 the high time of TRM is not cut off at 0. -/
theorem trmHigh_eq {x : Int} (h : 0 ≤ 8000 + 6 * x) : (trmHigh x : Int) = 8000 + 6 * x := Int.toNat_of_nonneg h

/-- Down to a share trim of −250 the high time of a share-trim output is not cut off at 0. -/
theorem shtHigh_eq {x : Int} (h : 0 ≤ 500 + 2 * x) : (shtHigh x : Int) = 500 + 2 * x := Int.toNat_of_nonneg h

/-! ### The dither frame of TRM (R143, R144) -/

/-- Every place of the spread order is the place of one dither position. -/
theorem ditherPlace_perm : (stations.map ditherPlace).Perm (List.range 16) := by decide

/-- Of the numbers below `n`, those below `f` are counted. -/
theorem countP_range_lt (f n : Nat) : (List.range n).countP (· < f) = min n f := by
  induction n with
  | zero => simp
  | succ n ih =>
    rw [List.range_succ, List.countP_append, ih, List.countP_singleton]
    by_cases h : n < f <;> simp [h] <;> omega

/-- As many dither positions are below a fraction in the spread order as the fraction says. -/
theorem countP_ditherPlace_lt {f : Nat} (h : f < 16) : (stations.countP fun i => ditherPlace i < f) = f := by
  calc (stations.countP fun i => ditherPlace i < f)
      = (stations.map ditherPlace).countP (· < f) := by rw [List.countP_map]; rfl
    _ = (List.range 16).countP (· < f) := ditherPlace_perm.countP_eq _
    _ = f := by rw [countP_range_lt, Nat.min_eq_right h.le]

/-- Periods of which some are one microsecond longer than the rest add up to the rest's and one for each of them. -/
theorem sum_map_lengthened {α : Type} (l : List α) (p : α → Bool) (w : Nat) :
    (l.map fun i => if p i then w + 1 else w).sum = l.length * w + l.countP p := by
  induction l with
  | nil => simp
  | cons x l ih =>
    rw [List.map_cons, List.sum_cons, ih, List.length_cons, List.countP_cons, Nat.succ_mul]
    split <;> omega

/-- A period is a lengthened one exactly at the positions whose place is below the fraction. -/
theorem trmPeriod_eq_lengthened_iff (H : Nat) (i : Fin 16) : trmPeriod H i = H / 16 + 1 ↔ ditherPlace i < H % 16 := by
  unfold trmPeriod; split <;> simp [*]

/-- The sixteen periods of a frame add up to the high time in sixteenths of a µs. -/
theorem sum_trmPeriod (H : Nat) : (stations.map fun i => trmPeriod H i).sum = H := by
  have hcount := countP_ditherPlace_lt (Nat.mod_lt H (by decide))
  calc (stations.map fun i => trmPeriod H i).sum
      = stations.length * (H / 16) + stations.countP fun i => ditherPlace i < H % 16 := by
        simpa [trmPeriod] using sum_map_lengthened stations (ditherPlace · < H % 16) (H / 16)
    _ = H := by rw [hcount]; exact Nat.div_add_mod H 16

/-- Of a frame's sixteen periods as many are lengthened as the fraction says. -/
theorem length_filter_lengthened (H : Nat) :
    (stations.filter fun i => trmPeriod H i = H / 16 + 1).length = H % 16 := by
  simp only [trmPeriod_eq_lengthened_iff, ← List.countP_eq_length_filter]
  exact countP_ditherPlace_lt (Nat.mod_lt H (by decide))

/-! ### The commands of the outputs (R142) -/

/-- A wait neither starts nor ends a reset. -/
@[simp] theorem advance_running (s : State) (d : Wait) : (s.advance d).running = s.running := by simp [State.running]

theorem pwmPeriodDue_iff (s : State) :
    s.pwmPeriodDue = true ↔ s.running = true ∧ s.pwm.running = true ∧ s.pwm.start + Config.pwmPeriod ≤ s.now := by
  simp [State.pwmPeriodDue, and_assoc]

theorem highTimeDue_trm_iff (s : State) :
    s.highTimeDue .trm = true
      ↔ s.running = true ∧ s.pwm.running = true ∧ s.pwm.trm = true ∧ s.pwm.start + s.pwm.trmNow ≤ s.now := by
  simp [State.highTimeDue, and_assoc]

theorem highTimeDue_sht_iff (s : State) (n : Channel) :
    s.highTimeDue (.sht n) = true
      ↔ s.running = true ∧ s.pwm.running = true ∧ s.pwm.sht.get n = true
        ∧ s.pwm.start + s.pwm.shtNow.get n ≤ s.now := by
  simp [State.highTimeDue, and_assoc]

/-- PWM_PERIOD_START starts the period that is due when it arrives. -/
theorem exec_pwmPeriodStart_of_due {after : Wait} {s : State} (h : (s.advance after).pwmPeriodDue = true) :
    exec (.pwmPeriodStart after) s = .next (s.advance after).startPwmPeriod := by
  show command after _ s = _
  rw [command_next, if_pos h]

/-- PWM_HIGH_TIME_END ends the high time that has run out when it arrives. -/
theorem exec_pwmHighTimeEnd_of_due {after : Wait} {o : PwmOutput} {s : State}
    (h : (s.advance after).highTimeDue o = true) :
    exec (.pwmHighTimeEnd after o) s = .next ((s.advance after).endHighTime o) := by
  show command after _ s = _
  rw [command_next, if_pos h]

/-- Settles O53: the dither frame by `ditherPlace_perm`, the places being those of 0 to 15 in another order; the commands
by what makes each due, which a wait moves on by its time alone. -/
theorem pwmPeriods : Obligations.PwmPeriods := by
  refine ⟨fun x hlow _ => trmHigh_eq (by omega), fun x hlow _ => shtHigh_eq (by omega), by decide, fun _ _ => rfl,
    fun H => ⟨sum_trmPeriod H, length_filter_lengthened H⟩, ?_⟩
  intro after s hrun hpwm a
  refine ⟨fun hdue => ?start, fun hhigh hdue => ?trm, fun n hhigh hdue => ?sht⟩
  case start =>
    rw [exec_pwmPeriodStart_of_due ((pwmPeriodDue_iff a).mpr (by simpa [a, hrun, hpwm, Config.pwmPeriod] using hdue))]
    simp [State.startPwmPeriod, Config.pwmPeriod, a]
  case trm =>
    rw [exec_pwmHighTimeEnd_of_due ((highTimeDue_trm_iff a).mpr (by simpa [a, hrun, hpwm, hhigh] using hdue))]
    rfl
  case sht =>
    rw [exec_pwmHighTimeEnd_of_due ((highTimeDue_sht_iff a n).mpr (by simpa [a, hrun, hpwm, hhigh] using hdue))]
    simp [State.endHighTime, a]

end Sys2Proof.Machine
end

section
/-! PROOFS. The break line (09): what a change of the filtered BRK level does to the latch, the mark, the trims and the
event BREAK, from a clear latch and from a set one. -/

namespace Sys2Proof.Machine

section

variable {s : State}

/-! ### The latching (R149, R151) -/

/-- At a latching from clear the manual trim target and the class are forced, and BREAK is raised. -/
theorem latchBreak_of_clear (h : s.brk.latch = false) :
    s.latchBreak
      = ((State.setManual { s with brk := { latch := true, mark := true } } 0).setClass .recovery).raise .brk := by
  simp [State.latchBreak, h]

/-- At a latching from set only the mark is set, and the target chosen again. -/
theorem latchBreak_of_set (h : s.brk.latch = true) :
    s.latchBreak = State.reselect { s with brk := { latch := true, mark := true } } := by
  simp [State.latchBreak, h]

@[simp] theorem latchBreak_brk (s : State) : s.latchBreak.brk = { latch := true, mark := true } := by
  cases h : s.brk.latch
  case false => simp [latchBreak_of_clear h]
  case true => simp [latchBreak_of_set h]

theorem latchBreak_trim_of_clear (h : s.brk.latch = false) :
    s.latchBreak.trim = { s.trim with manual := 0, cls := .recovery, target := 0 } := by
  simp [latchBreak_of_clear h, State.setClass, setManual_trim]

theorem latchBreak_hasEvent_of_clear (h : s.brk.latch = false) : s.latchBreak.hasEvent .brk = true := by
  simp [latchBreak_of_clear h]

theorem latchBreak_trim_of_set (h : s.brk.latch = true) : s.latchBreak.trim = { s.trim with target := 0 } := by
  simp [latchBreak_of_set h, reselect_trim]

theorem latchBreak_port_of_set (h : s.brk.latch = true) : s.latchBreak.port = s.port := by
  simp [latchBreak_of_set h]

/-! ### The change of the filtered level (R76, R149) -/

/-- The BRK filter alone takes its new level; `changeBrk_of_inactive` and `changeBrk_of_active` tie it to the model. -/
def State.flipBrk (s : State) : State := { s with inputs := { s.inputs with brk := s.inputs.brk.flip } }

@[simp] theorem flipBrk_inputs_brk (s : State) :
    s.flipBrk.inputs.brk = { active := !s.inputs.brk.active, run := 0 } := rfl
@[simp] theorem flipBrk_brk (s : State) : s.flipBrk.brk = s.brk := rfl
@[simp] theorem flipBrk_trim (s : State) : s.flipBrk.trim = s.trim := rfl
@[simp] theorem flipBrk_port (s : State) : s.flipBrk.port = s.port := rfl

/-- A filtered level that becomes active latches the break. -/
theorem changeBrk_of_inactive (h : s.inputs.brk.active = false) : s.changeBrk = s.flipBrk.latchBreak := by
  simp [State.changeBrk, State.flipBrk, SlowFilter.flip, h]

/-- A filtered level that becomes inactive changes the filter alone. -/
theorem changeBrk_of_active (h : s.inputs.brk.active = true) : s.changeBrk = s.flipBrk := by
  simp [State.changeBrk, State.flipBrk, SlowFilter.flip, h]

/-- A slow filter that is due to flip is still due after a wait. -/
@[simp] theorem advance_flipDue (s : State) (d : Wait) (f : SlowFilter) : (s.advance d).flipDue f = s.flipDue f := by
  have hcfg : (s.advance d).cfg = s.cfg := by simp [State.cfg]
  rw [State.flipDue, State.flipDue, advance_running, advance_config, hcfg]

/-- BRK_CHANGE takes the new filtered level that is due. -/
theorem exec_brkChange_of_due (after : Wait) (h : s.flipDue s.inputs.brk = true) :
    exec (.brkChange after) s = .next (s.advance after).changeBrk := by
  have hdue : (s.advance after).flipDue (s.advance after).inputs.brk = true := by simpa using h
  show command after _ s = _
  rw [command_next, if_pos hdue]

end

/-- Settles O49: the change is due when its command arrives, and by the filtered level and the latch that it finds it
latches from clear, latches from set, or leaves the break as it stands. -/
theorem breakIsLatched : Obligations.BreakIsLatched := by
  intro after s hrun hconfig hq a
  have hexec : exec (.brkChange after) s = .next a.changeBrk :=
    exec_brkChange_of_due after (by simp [State.flipDue, hrun, hconfig, hq])
  have hlevel : a.inputs.brk.active = s.inputs.brk.active := by simp [a]
  have hlatch : a.flipBrk.brk.latch = s.brk.latch := by simp [a]
  refine ⟨fun hinactive hclear => ?fromClear, fun hinactive hset => ?fromSet, fun hactive => ?released⟩
  case fromClear =>
    rw [changeBrk_of_inactive (hlevel.trans hinactive)] at hexec
    have h := hlatch.trans hclear
    exact ⟨_, hexec, latchBreak_brk _, latchBreak_hasEvent_of_clear h,
      by simp [latchBreak_trim_of_clear h, a], by simp [a, hinactive]⟩
  case fromSet =>
    rw [changeBrk_of_inactive (hlevel.trans hinactive)] at hexec
    have h := hlatch.trans hset
    exact ⟨_, hexec, latchBreak_brk _, latchBreak_port_of_set h,
      by simp [latchBreak_trim_of_set h, a], by simp [a, hinactive]⟩
  case released =>
    rw [changeBrk_of_active (hlevel.trans hactive)] at hexec
    exact ⟨_, hexec, by simp [a], flipBrk_port a, by simp [a], by simp [a, hactive]⟩

end Sys2Proof.Machine
end

section
/-! PROOFS. The service port (11): the execution of a request that its command finds taken, and NOP's answer. -/

namespace Sys2Proof.Machine

/-- The command of a request that the node takes waits, does the request's work and answers: a wait leaves the request
as it is. -/
theorem command_execution_of_takes {s : State} {q : Request} {p : List Byte} (after : Wait)
    (work : List Byte → State → State × Response) (h : s.takes q p) :
    command after (execution q work) s
      = .next ((work p (s.advance after)).1.answer (work p (s.advance after)).2) := by
  rw [command_next, execution_of_takes work ((takes_advance s after q p).mpr h)]

/-- NOP, which is available in every link state and has no parameters, is taken whenever it is in the request buffer
(R176, R195). -/
theorem takes_nop {s : State} {p : List Byte} (hrun : s.running = true) (hbusy : s.port.srdy = false)
    (hreq : s.port.request = Request.nop.code :: p) : s.takes .nop p :=
  ⟨hrun, hbusy, hreq, Nat.zero_le _, rfl⟩

/-- Settles O12: NOP passes the checks of every request, and its work is to leave the state and to answer OK. -/
theorem nopAnswersOk : Obligations.NopAnswersOk := by
  intro after p s hrun hbusy hreq
  exact command_execution_of_takes after (fun _ s => (s, .ok [])) (takes_nop hrun hbusy hreq)

end Sys2Proof.Machine
end

section
/-! PROOFS. What a step can do: the work of each request, and what every command comes to on the state that it arrives at.
The invariants of Safety.lean are proved over these cases. -/

namespace Sys2Proof.Machine

/-- The work of a request in its own arm; `exec_requestCommand` ties it to `exec`. -/
def Request.work (q : Request) (straps : BitVec 4) : List Byte → State → State × Response :=
  match q with
  | .nop => fun _ s => (s, .ok [])
  | .readStatus => readStatusWork straps
  | .readEvents => readEventsWork
  | .setEventMask => setEventMaskWork
  | .readLinkErrors => fun _ s => (s, .ok [s.line.errors])
  | .clearLinkErrors => clearLinkErrorsWork
  | .readLog => readLogWork
  | .readTrial => fun _ s => (s, .ok s.trialBytes)
  | .readRoster => fun _ s => (s, .ok s.rosterBytes)
  | .configure => configureWork
  | .join => joinWork
  | .leave => leaveWork
  | .proposeTrial => proposeTrialWork
  | .abortTrial => abortTrialWork
  | .manualTrim => manualTrimWork
  | .snap => snapWork
  | .flushLog => flushLogWork
  | .revCheck => revCheckWork
  | .cancelCheck => cancelCheckWork
  | .readCheck => fun _ s => (s, .ok s.checkBytes)
  | .clearFaults => clearFaultsWork
  | .clearBreak => clearBreakWork
  | .softReset => softResetWork

/-- A request's command executes the request with its work. -/
theorem exec_requestCommand (q : Request) (after : Wait) (straps : BitVec 4) (s : State) :
    exec (q.command after straps) s = command after (execution q (q.work straps)) s := by cases q <;> rfl

/-- A request that the node takes does its work on the state at its command's arrival, and answers. -/
theorem exec_requestCommand_of_takes {s : State} {q : Request} {p : List Byte} (after : Wait) (straps : BitVec 4)
    (h : s.takes q p) :
    exec (q.command after straps) s
      = .next ((q.work straps p (s.advance after)).1.answer (q.work straps p (s.advance after)).2) := by
  rw [exec_requestCommand, command_execution_of_takes after _ h]

/-- Everything that a command can do to the state that it arrives at. -/
inductive Effect (a : State) : State → Prop
  | nothing : Effect a a
  | hold (p : Power) : Effect a (State.holdReset { a with power := p })
  | power (p : Power) : Effect a { a with power := p }
  | endReset (p : Power) (straps : BitVec 4) : Effect a (State.endReset { a with power := p } straps)
  | selFalls : Effect a a.selFalls
  | selRises (bits : List Bool) : Effect a (a.selRises bits)
  | readout : Effect a (a.removeHead.setFalls (Config.readoutEdges - 1))
  | answer (r : Response) : Effect a (a.answer r)
  | request (q : Request) (straps : BitVec 4) (p : List Byte) (h : a.takes q p) :
      Effect a ((q.work straps p a).1.answer (q.work straps p a).2)
  | startDetected (h : a.link.state.receives = true) : Effect a (a.detectStart (a.now - 1)).settleAttempt
  | character (c : CharBits) : Effect a (a.completeCharacter c)
  | collision (n : BitVec 8) (h : a.line.tx = .mark n) :
      Effect a (State.linkError { a with line := { a.line with tx := .released } } .collision)
  | conflict (r : Report) (sent : Nat) (h : a.line.tx = .frame r sent) : Effect a a.conflict
  | windowOpen (h : a.windowDue = true) : Effect a { a with round := { a.round with windowOpen := true } }
  | originate (h : a.originationDue = true) : Effect a (a.beginSending (.mark (a.round.number + 1)))
  | standbyLocal : Effect a a.standbyLocal
  | listeningLocal : Effect a a.listeningLocal
  | ownSlot (h : a.ownSlotDue = true) :
      Effect a (State.beginSending { a with round := { a.round with ownSlotDone := true } }
        (.frame a.slotReport 0)).settleAttempt
  | closeSlot (h : a.slotCloseDue = true) : Effect a a.closeSlot
  | speedEdge (n : Channel) (dir : Bool) : Effect a (a.speedEdge n dir)
  | loadEdge (n : Channel) :
      Effect a ((a.takeEdge .ldf n true).setCounters n ((a.takeEdge .ldf n true).counters.get n).loadEdge)
  | indexEdge (n : Channel) : Effect a ((a.takeEdge .idx n true).checkIndexEdge n)
  | fallingEdge (l : FastLine) (n : Channel) : Effect a (a.takeEdge l n false)
  | changeRdy (n : Channel) (h : a.flipDue (a.inputs.rdy.get n) = true) : Effect a (a.changeRdy n)
  | changeFlt (n : Channel) (h : a.flipDue (a.inputs.flt.get n) = true) : Effect a (a.changeFlt n)
  | changeBrk (h : a.flipDue a.inputs.brk = true) : Effect a a.changeBrk
  | sampleSlow (v : SlowLevels) : Effect a (a.sampleSlow v)
  | stall (n : Channel) : Effect a (a.stallChannel n)
  | indexTimeout : Effect a (a.endCheck (.incomplete .noIndex))
  | pwmPeriod : Effect a a.startPwmPeriod
  | pwmHighTime (o : PwmOutput) : Effect a (a.endHighTime o)

/-- An effect that is taken under a condition, and is nothing otherwise. -/
theorem Effect.ite {a t : State} {p : Bool} (h : p = true → Effect a t) : Effect a (if p then t else a) := by
  cases p
  · exact .nothing
  · exact h rfl

theorem Effect.execution (a : State) (q : Request) (straps : BitVec 4) : Effect a (execution q (q.work straps) a) := by
  rcases execution_cases q (q.work straps) a with h | ⟨r, h⟩ | ⟨p, ht, h⟩ <;> rw [h]
  · exact .nothing
  · exact .answer r
  · exact .request q straps p ht

theorem Effect.maybeEndReset (a : State) (p : Power) (straps : BitVec 4) :
    Effect a (State.maybeEndReset { a with power := p } straps) := by
  unfold State.maybeEndReset
  split
  · exact .endReset p straps
  · exact .power p

theorem Effect.boundaryEvent (a : State) (b : BoundaryEvent) : Effect a (a.boundaryEvent b) := by
  cases b with
  | standbyLocal => exact .standbyLocal
  | listeningLocal => exact .listeningLocal
  | character c => exact .character c

/-- A row that comes about at a boundary is that boundary or nothing. -/
theorem Effect.whenComesAbout (a : State) (b : BoundaryEvent) (row : State → State → Bool) :
    Effect a (a.whenComesAbout b row) :=
  Effect.ite fun _ => Effect.boundaryEvent a b

theorem Effect.readbackMismatch (a : State) :
    Effect a (if a.running then
        match a.line.tx with
        | .released => a
        | .mark _ => State.linkError { a with line := { a.line with tx := .released } } .collision
        | .frame _ _ => a.conflict
      else a) := by
  refine Effect.ite fun _ => ?_
  split
  · exact .nothing
  · next n h => exact .collision n h
  · next r sent h => exact .conflict r sent h

/-- Every command lets its wait pass and then has an effect. -/
theorem exec_effect (c : Instr) (s : State) :
    ∃ t, exec c s = .next t ∧ Effect (s.advance c.after) t := by
  cases c with
  | powerOnReset => exact ⟨_, rfl, .hold _⟩
  | powerOnResetEnd => exact ⟨_, rfl, Effect.ite fun _ => Effect.maybeEndReset _ _ _⟩
  | resetPinAssert => refine ⟨_, rfl, ?_⟩; dsimp only; split; exacts [.nothing, .hold _]
  | resetPinRelease => exact ⟨_, rfl, Effect.ite fun _ => Effect.maybeEndReset _ _ _⟩
  | transactionStart => exact ⟨_, rfl, .selFalls⟩
  | transactionEnd _ bits => exact ⟨_, rfl, .selRises bits⟩
  | readLogReadoutComplete => exact ⟨_, rfl, Effect.ite fun _ => .readout⟩
  | unknownRequest => exact ⟨_, rfl, Effect.ite fun _ => .answer _⟩
  | nop => exact ⟨_, rfl, Effect.execution _ .nop 0⟩
  | readStatus _ straps => exact ⟨_, rfl, Effect.execution _ .readStatus straps⟩
  | readEvents => exact ⟨_, rfl, Effect.execution _ .readEvents 0⟩
  | setEventMask => exact ⟨_, rfl, Effect.execution _ .setEventMask 0⟩
  | readLinkErrors => exact ⟨_, rfl, Effect.execution _ .readLinkErrors 0⟩
  | clearLinkErrors => exact ⟨_, rfl, Effect.execution _ .clearLinkErrors 0⟩
  | readLog => exact ⟨_, rfl, Effect.execution _ .readLog 0⟩
  | readTrial => exact ⟨_, rfl, Effect.execution _ .readTrial 0⟩
  | readRoster => exact ⟨_, rfl, Effect.execution _ .readRoster 0⟩
  | configure => exact ⟨_, rfl, Effect.execution _ .configure 0⟩
  | join => exact ⟨_, rfl, Effect.execution _ .join 0⟩
  | leave => exact ⟨_, rfl, Effect.execution _ .leave 0⟩
  | proposeTrial => exact ⟨_, rfl, Effect.execution _ .proposeTrial 0⟩
  | abortTrial => exact ⟨_, rfl, Effect.execution _ .abortTrial 0⟩
  | manualTrim => exact ⟨_, rfl, Effect.execution _ .manualTrim 0⟩
  | snap => exact ⟨_, rfl, Effect.execution _ .snap 0⟩
  | flushLog => exact ⟨_, rfl, Effect.execution _ .flushLog 0⟩
  | revCheck => exact ⟨_, rfl, Effect.execution _ .revCheck 0⟩
  | cancelCheck => exact ⟨_, rfl, Effect.execution _ .cancelCheck 0⟩
  | readCheck => exact ⟨_, rfl, Effect.execution _ .readCheck 0⟩
  | clearFaults => exact ⟨_, rfl, Effect.execution _ .clearFaults 0⟩
  | clearBreak => exact ⟨_, rfl, Effect.execution _ .clearBreak 0⟩
  | softReset => exact ⟨_, rfl, Effect.execution _ .softReset 0⟩
  | characterStart =>
    refine ⟨_, rfl, Effect.ite fun h => .startDetected ?_⟩
    simp only [Bool.and_eq_true] at h
    exact h.1.2
  | characterComplete _ c => exact ⟨_, rfl, .character c⟩
  | readbackMismatch => exact ⟨_, rfl, Effect.readbackMismatch _⟩
  | markWindowOpen => exact ⟨_, rfl, Effect.ite .windowOpen⟩
  | origination => exact ⟨_, rfl, Effect.ite .originate⟩
  | standbyLocalBoundary => exact ⟨_, rfl, .standbyLocal⟩
  | listeningLocalBoundary => exact ⟨_, rfl, .listeningLocal⟩
  | ownSlotOpen => exact ⟨_, rfl, Effect.ite .ownSlot⟩
  | slotWindowClose => exact ⟨_, rfl, Effect.ite .closeSlot⟩
  | speedEdge _ n dir => exact ⟨_, rfl, Effect.ite fun _ => .speedEdge n dir⟩
  | loadEdge _ n => exact ⟨_, rfl, Effect.ite fun _ => .loadEdge n⟩
  | indexEdge _ n => exact ⟨_, rfl, Effect.ite fun _ => .indexEdge n⟩
  | rdyChange _ n => exact ⟨_, rfl, Effect.ite fun h => .changeRdy n (Bool.and_eq_true_iff.mp h).2⟩
  | fltChange _ n => exact ⟨_, rfl, Effect.ite fun h => .changeFlt n (Bool.and_eq_true_iff.mp h).2⟩
  | brkChange => exact ⟨_, rfl, Effect.ite .changeBrk⟩
  | stall _ n => exact ⟨_, rfl, Effect.ite fun _ => .stall n⟩
  | indexTimeout => exact ⟨_, rfl, Effect.ite fun _ => .indexTimeout⟩
  | pwmPeriodStart => exact ⟨_, rfl, Effect.ite fun _ => .pwmPeriod⟩
  | pwmHighTimeEnd _ o => exact ⟨_, rfl, Effect.ite fun _ => .pwmHighTime o⟩
  | slip | shareAlarm | shareAlarmClear | entrySilent | entryAgedOut | listenTimeout | joinQualified | leaveComplete
  | drawAlarm | drawAlarmClear | claimBoundary | claimLapsed | noQuorum | trialStart | trialCompleted | recoveryDone =>
    exact ⟨_, rfl, Effect.whenComesAbout _ _ _⟩
  | fastFilterFallingEdge _ l n => exact ⟨_, rfl, Effect.ite fun _ => .fallingEdge l n⟩
  | slowFilterSample _ v => exact ⟨_, rfl, Effect.ite fun _ => .sampleSlow v⟩
  | powerLoss => exact ⟨_, rfl, .hold _⟩

/-- What every wait and every effect keeps, and the queue does not touch, every step keeps. -/
theorem step_keeps {P : State → Prop} (hqueue : ∀ s l, P s → P { s with pending := l })
    (hwait : ∀ s d, P s → P (s.advance d)) (heffect : ∀ a t, P a → Effect a t → P t)
    {s t : State} (hs : P s) (h : step s = .next t) : P t := by
  unfold step at h
  split at h
  · cases h
    unfold State.idle
    split
    · exact hwait _ _ hs
    · exact hqueue _ _ hs
  · next c rest _ =>
    obtain ⟨u, hu, heff⟩ := exec_effect c { s with pending := rest }
    rw [hu] at h
    cases h
    exact heffect _ _ (hwait _ _ (hqueue _ _ hs)) heff

end Sys2Proof.Machine
end

section
/-! PROOFS. The character that completes (01): what it comes to, once for every proof that follows it. -/

namespace Sys2Proof.Machine

/-- The boundary that a received character takes depends on the link, the configuration and the Round Timer alone. -/
theorem receivedBoundary_congr {s t : State} {st : Nat} {c : CharBits} (h : t.link = s.link) (hc : t.config = s.config)
    (k : t.round = s.round) : t.receivedBoundary st c = s.receivedBoundary st c := by
  unfold State.receivedBoundary; rw [markTaken_congr h hc k, inWindow_congr h hc k, k]

/-- A received character that takes no boundary: an early mark, or a character for the frames of its round. -/
theorem received_of_no_boundary {s : State} {st : Nat} {c : CharBits} (h : s.receivedBoundary st c = none) :
    s.received st c
      = if c.mark && c.stop then ((s.linkErrorIf (!c.stop) .framing).markInAttempt.linkError .earlyMark).settleAttempt
        else if !(s.linkErrorIf (!c.stop) .framing).inThisRound st then
          (s.linkErrorIf (!c.stop) .framing).assembleLate st c
        else if (s.linkErrorIf (!c.stop) .framing).round.synced then (s.linkErrorIf (!c.stop) .framing).assemble st c
        else s.linkErrorIf (!c.stop) .framing := by
  rw [← receivedBoundary_congr (t := s.linkErrorIf (!c.stop) .framing) (by simp) (by simp) (by simp)] at h
  unfold State.receivedBoundary at h
  unfold State.received
  dsimp only
  split at h
  · next hm =>
    rw [if_pos hm, if_pos hm, State.takeMark, if_neg (by intro ht; simp [ht] at h)]
  · next hm =>
    rw [if_neg hm, if_neg hm, State.takeOther, if_neg (by intro ht; simp [ht] at h)]

/-- What a completing character comes to: nothing, the boundary that it takes, a character of the own frame, or one that is
received and takes no boundary. -/
theorem completeCharacter_cases (s : State) (c : CharBits) :
    s.completeCharacter c = s
      ∨ (∃ k n, s.boundaryOf (.character c) = some (k, n)
          ∧ s.completeCharacter c = (s.boundaryBase (.character c)).takeBoundary k n)
      ∨ (∃ r sent, s.characterDue = true ∧ s.line.tx = .frame r sent
          ∧ s.completeCharacter c = State.ownCharacter { s with line := s.line.shift } r sent)
      ∨ (∃ l st, s.link.state.receives = true ∧ (l = s.line.shift ∨ l = { s.line with rxSampled := none })
          ∧ s.receivedBoundary st c = none ∧ s.completeCharacter c = State.received { s with line := l } st c) := by
  cases hb : s.boundaryOf (.character c) with
  | some kn => exact .inr (.inl ⟨kn.1, kn.2, rfl, boundaryEvent_of_boundaryOf hb⟩)
  | none =>
    simp only [State.boundaryOf, State.characterBoundary] at hb
    unfold State.completeCharacter
    split at hb
    · next hdue =>
      have hreceives : s.link.state.receives = true := by
        simp only [State.characterDue, Bool.and_eq_true] at hdue; exact hdue.1.2
      rw [if_pos hdue]
      cases htx : s.line.tx with
      | mark m => simp [htx] at hb
      | frame r sent => exact .inr (.inr (.inl ⟨r, sent, hdue, rfl, rfl⟩))
      | released => exact .inr (.inr (.inr ⟨_, _, hreceives, .inl rfl, by simpa [htx] using hb, rfl⟩))
    · next hdue =>
      rw [if_neg hdue]
      split at hb
      · next hs =>
        have hreceives : s.link.state.receives = true := by
          simp only [State.sampledDue, Bool.and_eq_true] at hs; exact hs.1.1.2
        rw [if_pos hs]
        exact .inr (.inr (.inr ⟨_, _, hreceives, .inr rfl, hb, rfl⟩))
      · next hs => exact .inl (if_neg hs)

/-- A local boundary of STANDBY is taken or nothing happens. -/
theorem standbyLocal_cases (s : State) :
    s.standbyLocal = s ∨ (s.boundaryOf .standbyLocal = some (.localTimed, s.round.number + 1)
      ∧ s.standbyLocal = s.takeBoundary .localTimed (s.round.number + 1)) := by
  by_cases h : s.standbyDue
  · exact .inr ⟨by simp [State.boundaryOf, h], by simp [State.standbyLocal, h]⟩
  · exact .inl (by simp [State.standbyLocal, h])

/-- A local boundary of LISTENING is taken or nothing happens. -/
theorem listeningLocal_cases (s : State) :
    s.listeningLocal = s ∨ (s.boundaryOf .listeningLocal = some (.localTimed, s.round.number + 1)
      ∧ s.listeningLocal = s.takeBoundary .localTimed (s.round.number + 1)) := by
  by_cases h : s.listeningDue
  · exact .inr ⟨by simp [State.boundaryOf, h], by simp [State.listeningLocal, h]⟩
  · exact .inl (by simp [State.listeningLocal, h])

theorem receives_of_characterDue {s : State} (h : s.characterDue = true) : s.link.state.receives = true := by
  simp only [State.characterDue, Bool.and_eq_true] at h; exact h.1.2

theorem receives_of_sampledDue {s : State} (h : s.sampledDue = true) : s.link.state.receives = true := by
  simp only [State.sampledDue, Bool.and_eq_true] at h; exact h.1.1.2

end Sys2Proof.Machine
end

section
/-! PROOFS. The GO that an ACCEPTING record takes (03): the record that it schedules, and the ways on from there. -/

namespace Sys2Proof.Machine

/-- The state with the record SCHEDULED for a start round; `takeGo_cases` ties it to the model. -/
def State.scheduledFor (s : State) (start : BitVec 8) : State :=
  { s with trial := { s.trial with
      phase := .scheduled, startRound := start
      watched := stationSet fun t => s.trial.params.inSpan t && (s.entry t).presence = .present
      readySet := if s.isMember then s.readySet else 0 } }

/-- A member takes this GO unready: it is not eligible at the boundary of the start, it refuses by request, or its report
of the closing round refused (R58). -/
def State.unreadyFor (s : State) (start : BitVec 8) : Prop :=
  (s.ineligible (if s.startDistance start = 0 then s.trim.applied else s.rampedTrim)).isSome = true
    ∨ s.trial.refusing = true ∨ s.ownReport.phase = .refuse

/-- What becomes of a GO: aborted as too late, aborted unready, aborted or started at once, or scheduled (R58). -/
theorem takeGo_cases (s : State) (start : BitVec 8) :
    (3 ≤ s.startDistance start ∧ s.takeGo start = (s.scheduledFor start).abortOwn .missedGo)
      ∨ (s.startDistance start < 3 ∧ s.isMember = true ∧ s.unreadyFor start
          ∧ s.takeGo start = (s.scheduledFor start).abortOwn .notReady)
      ∨ (s.startDistance start < 3 ∧ (s.isMember = true → ¬s.unreadyFor start)
          ∧ ((s.startDistance start = 0
                ∧ ((∃ r, (s.scheduledFor start).abortCondition = some r
                      ∧ s.takeGo start = (s.scheduledFor start).abortOwn r)
                  ∨ ((s.scheduledFor start).abortCondition = none
                      ∧ s.takeGo start = (s.scheduledFor start).startTrial)))
            ∨ (s.startDistance start ≠ 0 ∧ s.takeGo start = s.scheduledFor start))) := by
  have hunready : ((s.ineligible (if s.startDistance start = 0 then s.trim.applied else s.rampedTrim)).isSome
      || s.trial.refusing || s.ownReport.phase = .refuse) = true ↔ s.unreadyFor start := by
    simp [State.unreadyFor, or_assoc]
  have heq : s.takeGo start
      = if 3 ≤ s.startDistance start then (s.scheduledFor start).abortOwn .missedGo
        else if s.isMember && ((s.ineligible (if s.startDistance start = 0 then s.trim.applied else s.rampedTrim)).isSome
            || s.trial.refusing || s.ownReport.phase = .refuse) then (s.scheduledFor start).abortOwn .notReady
        else if s.startDistance start = 0 then
          match (s.scheduledFor start).abortCondition with
          | some r => (s.scheduledFor start).abortOwn r
          | none => (s.scheduledFor start).startTrial
        else s.scheduledFor start := rfl
  rw [heq]
  by_cases hfar : 3 ≤ s.startDistance start
  · exact .inl ⟨hfar, if_pos hfar⟩
  have hnear := Nat.lt_of_not_le hfar
  rw [if_neg hfar]
  by_cases hbad : s.isMember = true ∧ s.unreadyFor start
  · exact .inr (.inl ⟨hnear, hbad.1, hbad.2, if_pos (by rw [hbad.1, Bool.true_and]; exact hunready.mpr hbad.2)⟩)
  rw [if_neg (by rw [Bool.and_eq_true]; exact fun h => hbad ⟨h.1, hunready.mp h.2⟩)]
  refine .inr (.inr ⟨hnear, fun hm hu => hbad ⟨hm, hu⟩, ?_⟩)
  by_cases hnow : s.startDistance start = 0
  · rw [if_pos hnow]
    refine .inl ⟨hnow, ?_⟩
    cases hc : (s.scheduledFor start).abortCondition with
    | some r => exact .inl ⟨r, rfl, rfl⟩
    | none => exact .inr ⟨rfl, rfl⟩
  · exact .inr ⟨hnow, if_neg hnow⟩

end Sys2Proof.Machine
end

section
/-! PROOFS. The log stays in order (10): what an append, a removal and the ring do to its numbering, and what a boundary
makes of these. -/

namespace Sys2Proof.Machine

/-! ### Numbered records (R159) -/

/-- A record that carries the counter joins a numbered log, and the counter moves on. -/
theorem numbered_append {l : List LogRecord} {counter : BitVec 16} {r : LogRecord} (h : numbered l counter = true)
    (hr : r.seq = counter) : numbered (l ++ [r]) (counter + 1) = true := by
  induction l with
  | nil => simp [numbered, hr]
  | cons x l ih =>
    simp only [numbered, Bool.and_eq_true, decide_eq_true_eq] at h
    obtain ⟨hx, hl⟩ := h
    simp only [List.cons_append, numbered, Bool.and_eq_true, decide_eq_true_eq]
    refine ⟨?_, ih hl⟩
    rw [← hx, List.length_append, List.length_singleton, BitVec.add_assoc]
    congr 1
    apply BitVec.eq_of_toNat_eq
    simp

theorem numbered_drop_one {l : List LogRecord} {counter : BitVec 16} (h : numbered l counter = true) :
    numbered (l.drop 1) counter = true := by
  cases l with
  | nil => exact h
  | cons x l =>
    simp only [numbered, Bool.and_eq_true] at h
    exact h.2

theorem length_ringPush {ring : List Sample} (m : Sample) (h : ring.length ≤ Config.ringCapacity) :
    (ringPush ring m).length ≤ Config.ringCapacity := by
  unfold ringPush
  split <;> simp [Config.ringCapacity] at * <;> omega

/-! ### The log's operations -/

section

variable {s t : State}

/-- Only the log matters. -/
theorem logInOrder_of_log (h : t.log = s.log) (hs : s.logInOrder) : t.logInOrder := by
  unfold State.logInOrder at *; rwa [h]

theorem logInOrder_appendRecord (ty : RecordType) (i : TrialId) (m : Sample) (o : TrialOutcome) (c : Byte) (g : Station)
    (h : s.logInOrder) : (s.appendRecord ty i m o c g).logInOrder := by
  obtain ⟨hlen, hnum, hring⟩ := h
  unfold State.logInOrder
  rw [appendRecord_log]
  split
  · next hroom => exact ⟨by simpa using hroom, numbered_append hnum rfl, hring⟩
  · exact ⟨hlen, hnum, hring⟩

theorem logInOrder_removeHead (h : s.logInOrder) : s.removeHead.logInOrder := by
  obtain ⟨hlen, hnum, hring⟩ := h
  exact ⟨by simp only [State.removeHead, List.length_drop]; omega, numbered_drop_one hnum, hring⟩

theorem logInOrder_takeSample (number : BitVec 8) (lost : Bool) (h : s.logInOrder) :
    (s.takeSample number lost).logInOrder := by
  obtain ⟨hlen, hnum, hring⟩ := h
  exact ⟨hlen, hnum, length_ringPush _ hring⟩

theorem logInOrder_appendClose (i : TrialId) (o : TrialOutcome) (c : Byte) (g : Station) (h : s.logInOrder) :
    (s.appendClose i o c g).logInOrder :=
  logInOrder_of_log (by simp [State.appendClose]) (logInOrder_appendRecord .close i s.log.last o c g h)

theorem logInOrder_moveRing (i : TrialId) (h : s.logInOrder) : (s.moveRing i).logInOrder := by
  have key : ∀ (l : List Sample) (t : State), t.logInOrder →
      (l.foldl (fun t m => t.appendRecord .pre i m .none 0 0) t).logInOrder := by
    intro l
    induction l with
    | nil => exact fun _ ht => ht
    | cons m l ih => exact fun t ht => ih _ (logInOrder_appendRecord .pre i m .none 0 0 ht)
  obtain ⟨hlen, hnum, -⟩ := key s.log.ring s h
  exact ⟨hlen, hnum, Nat.zero_le _⟩

/-! ### The controller's decisions -/

theorem logInOrder_abortTrial (owed : Nat) (c : Byte) (g : Station) (h : s.logInOrder) :
    (s.abortTrial owed c g).logInOrder := by
  unfold State.abortTrial
  dsimp only
  split
  · exact logInOrder_appendClose _ _ _ _ (logInOrder_of_log (by simp) h)
  · exact logInOrder_of_log (by simp) h

theorem logInOrder_completeTrial (h : s.logInOrder) : s.completeTrial.logInOrder := by
  unfold State.completeTrial
  dsimp only
  split
  · exact logInOrder_of_log (by simp) (logInOrder_appendClose s.trial.id .completed 0 0 h)
  · exact logInOrder_of_log (by simp) h

theorem logInOrder_startTrial (h : s.logInOrder) : s.startTrial.logInOrder := by
  have hlog := startTrial_log s
  split at hlog
  · exact logInOrder_of_log hlog (logInOrder_moveRing s.trial.id h)
  · exact logInOrder_of_log hlog h

theorem logInOrder_awaitStart (h : s.logInOrder) : s.awaitStart.logInOrder := by
  unfold State.awaitStart
  split
  · exact logInOrder_startTrial h
  · exact h

theorem logInOrder_countDown (h : s.logInOrder) : s.countDown.logInOrder := by
  have hrun : (if s.isMember then s.appendRun s.trial.id else s).logInOrder := by
    split
    · exact logInOrder_appendRecord .run s.trial.id s.log.last .none 0 0 h
    · exact h
  unfold State.countDown
  dsimp only
  split
  · exact logInOrder_completeTrial (logInOrder_of_log rfl hrun)
  · exact logInOrder_of_log rfl hrun

theorem logInOrder_guarded {go : State → State} (hgo : ∀ t : State, t.logInOrder → (go t).logInOrder)
    (h : s.logInOrder) : (s.guarded go).logInOrder := by
  unfold State.guarded
  split
  · exact logInOrder_abortTrial _ _ _ h
  · split
    · exact logInOrder_abortTrial _ _ _ (logInOrder_of_log (by simp) h)
    · exact hgo _ (logInOrder_of_log (by simp) h)

theorem logInOrder_takeGo (start : BitVec 8) (h : s.logInOrder) : (s.takeGo start).logInOrder := by
  have hsched : (s.scheduledFor start).logInOrder := logInOrder_of_log rfl h
  rcases takeGo_cases s start with ⟨-, e⟩ | ⟨-, -, -, e⟩ | ⟨-, -, ⟨-, ⟨r, -, e⟩ | ⟨-, e⟩⟩ | ⟨-, e⟩⟩
  all_goals rw [e]
  · exact logInOrder_abortTrial _ _ _ hsched
  · exact logInOrder_abortTrial _ _ _ hsched
  · exact logInOrder_abortTrial _ _ _ hsched
  · exact logInOrder_startTrial hsched
  · exact hsched

theorem logInOrder_acceptingGoes (h : s.logInOrder) : s.acceptingGoes.logInOrder := by
  unfold State.acceptingGoes
  repeat' split
  · exact logInOrder_takeGo _ h
  · exact logInOrder_abortTrial _ _ _ h
  all_goals exact logInOrder_of_log (by simp) h

theorem logInOrder_acceptingStep (h : s.logInOrder) : s.acceptingStep.logInOrder := by
  unfold State.acceptingStep
  repeat' split
  · exact logInOrder_of_log (by simp) h
  · exact logInOrder_abortTrial _ _ _ h
  · exact logInOrder_of_log (by simp) h
  · exact logInOrder_acceptingGoes h

theorem logInOrder_proposingStep (h : s.logInOrder) : s.proposingStep.logInOrder := by
  unfold State.proposingStep
  split
  · exact logInOrder_of_log (by simp) h
  · split
    · exact logInOrder_abortTrial _ _ _ h
    · repeat' split
      all_goals exact logInOrder_of_log (by simp) h

theorem logInOrder_atDecision (h : s.logInOrder) : s.atDecision.logInOrder := by
  have hclose : s.closeLink.logInOrder := by
    unfold State.closeLink
    split
    · exact logInOrder_appendClose _ _ _ _ (logInOrder_of_log rfl h)
    · exact h
  exact logInOrder_of_log (countBoundaries_log _) hclose

theorem logInOrder_decide (h : s.logInOrder) : s.decide.logInOrder := by
  have hd := logInOrder_atDecision h
  unfold State.decide State.decidePhase
  split
  case h_1 => exact logInOrder_of_log (by simp) hd
  case h_2 => exact logInOrder_proposingStep hd
  case h_3 => exact logInOrder_acceptingStep hd
  case h_4 => exact logInOrder_guarded (fun _ => logInOrder_awaitStart) hd
  case h_5 => exact logInOrder_guarded (fun _ => logInOrder_countDown) hd
  case h_6 => exact hd

theorem logInOrder_takeBoundary (k : BoundaryKind) (n : BitVec 8) (h : s.logInOrder) :
    (s.takeBoundary k n).logInOrder := by
  have hsampled : (s.sampled k n).logInOrder := logInOrder_takeSample _ _ (logInOrder_of_log (by simp) h)
  exact logInOrder_of_log (takeBoundary_log s k n) (logInOrder_decide hsampled)

/-! ### The effects -/

theorem received_log_of_no_boundary {st : Nat} {c : CharBits} (h : s.receivedBoundary st c = none) :
    (s.received st c).log = s.log := by
  rw [received_of_no_boundary h]
  repeat' split
  all_goals simp

theorem logInOrder_completeCharacter (c : CharBits) (h : s.logInOrder) : (s.completeCharacter c).logInOrder := by
  rcases completeCharacter_cases s c with e | ⟨k, n, -, e⟩ | ⟨r, sent, -, -, e⟩ | ⟨l, st, -, -, hnone, e⟩
  all_goals rw [e]
  · exact h
  · exact logInOrder_takeBoundary k n (logInOrder_of_log (by simp) h)
  · exact logInOrder_of_log (by simp) h
  · exact logInOrder_of_log (s := s)
      (received_log_of_no_boundary ((receivedBoundary_congr rfl rfl rfl).trans hnone)) h

/-- The work of a request on the log is that of READ_LOG, SNAP, FLUSH_LOG and SOFT_RESET alone. -/
theorem work_log (q : Request) (straps : BitVec 4) (p : List Byte) (s : State)
    (h : q ∉ [Request.readLog, .snap, .flushLog, .softReset]) : (q.work straps p s).1.log = s.log := by
  cases q with
  | readLog | snap | flushLog | softReset => simp at h
  | nop | readStatus | readEvents | setEventMask | readLinkErrors | clearLinkErrors | readTrial | readRoster | readCheck
  | join => rfl
  | clearFaults => exact foldl_keeps _ (·.log) (by simp) _ _
  | configure => simp only [Request.work, configureWork]; split <;> simp
  | leave => simp only [Request.work, leaveWork]; (repeat' split) <;> simp
  | proposeTrial => simp only [Request.work, proposeTrialWork]; (repeat' split) <;> rfl
  | abortTrial => simp only [Request.work, abortTrialWork]; (repeat' split) <;> simp
  | manualTrim => simp only [Request.work, manualTrimWork]; (repeat' split) <;> simp
  | revCheck => simp only [Request.work, revCheckWork]; (repeat' split) <;> simp
  | cancelCheck => simp only [Request.work, cancelCheckWork]; split <;> simp
  | clearBreak => simp only [Request.work, clearBreakWork]; split <;> simp

/-- A request's work keeps the log in order: READ_LOG, SNAP, FLUSH_LOG and SOFT_RESET work on it, and no other does. -/
theorem logInOrder_work (q : Request) (straps : BitVec 4) (p : List Byte) (h : s.logInOrder) :
    (q.work straps p s).1.logInOrder := by
  cases q with
  | readLog =>
    simp only [Request.work, readLogWork]
    split <;> exact h
  | snap =>
    simp only [Request.work, snapWork]
    repeat' split
    · exact h
    · exact h
    · exact logInOrder_appendRecord _ _ _ _ _ _ h
  | flushLog =>
    simp only [Request.work, flushLogWork]
    split
    · exact h
    · exact ⟨Nat.zero_le _, rfl, h.2.2⟩
  | softReset => exact ⟨h.1, h.2.1, Nat.zero_le _⟩
  | _ => exact logInOrder_of_log (work_log _ straps p s (by simp)) h

theorem logInOrder_effect (hs : s.logInOrder) (h : Effect s t) : t.logInOrder := by
  have hreset : ∀ u : State, u.log = Log.reset → u.logInOrder := by
    intro u hu; rw [State.logInOrder, hu]; exact ⟨Nat.zero_le _, rfl, Nat.zero_le _⟩
  cases h with
  | hold | endReset => exact hreset _ rfl
  | selRises bits =>
    have hsettled : (s.settleReadout bits.length).logInOrder := by
      unfold State.settleReadout
      repeat' split
      · exact logInOrder_removeHead hs
      · exact hs
      · exact hs
    unfold State.selRises
    dsimp only
    repeat' split
    · exact hsettled
    · exact hsettled
    · exact logInOrder_of_log (by simp) hsettled
    · exact hs
  | readout => exact logInOrder_removeHead hs
  | request q straps p => exact logInOrder_of_log (answer_log _ _) (logInOrder_work q straps p hs)
  | character c => exact logInOrder_completeCharacter c hs
  | standbyLocal =>
    rcases standbyLocal_cases s with e | ⟨-, e⟩ <;> rw [e]
    · exact hs
    · exact logInOrder_takeBoundary _ _ hs
  | listeningLocal =>
    rcases listeningLocal_cases s with e | ⟨-, e⟩ <;> rw [e]
    · exact hs
    · exact logInOrder_takeBoundary _ _ hs
  | _ => exact logInOrder_of_log (by simp) hs

end

/-- Settles O57: of what a command can do, an append under the counter, the removal of the head, an emptied log and the
ring's push keep the log in order, and nothing else changes it. -/
theorem logStaysInOrder : Obligations.LogStaysInOrder := by
  intro s t hs h
  exact step_keeps (P := State.logInOrder) (fun _ _ h => h) (fun _ _ => logInOrder_of_log (by simp))
    (fun _ _ => logInOrder_effect) hs h

end Sys2Proof.Machine
end

section
/-! PROOFS. Work on the line (01): the operations that change nothing but the frame attempt, the train of a cut one, the link
errors and the event flags, and what a character for the frames of a round comes to. -/

namespace Sys2Proof.Machine

/-- Two states differ in the attempt, the train of a cut one, the link errors and event flags that are set, and in
nothing else. -/
structure LineWork (s u : State) : Prop where
  rest : u = { s with line := u.line, port := u.port }
  kept : u.line = { s.line with attempt := u.line.attempt, overrun := u.line.overrun, errors := u.line.errors }
  raised : Raised s.port u

namespace LineWork

variable {s u v : State}

theorem refl (s : State) : LineWork s s := ⟨rfl, rfl, raised_self s⟩

theorem trans (h : LineWork s u) (k : LineWork u v) : LineWork s v where
  rest := by rw [k.rest, h.rest]
  kept := by rw [k.kept, h.kept]
  raised := h.raised.trans k.raised

theorem link (h : LineWork s u) : u.link = s.link := by rw [h.rest]
theorem round (h : LineWork s u) : u.round = s.round := by rw [h.rest]
theorem roster (h : LineWork s u) : u.roster = s.roster := by rw [h.rest]
theorem station (h : LineWork s u) : u.station = s.station := by rw [h.rest]
theorem trial (h : LineWork s u) : u.trial = s.trial := by rw [h.rest]
theorem config (h : LineWork s u) : u.config = s.config := by rw [h.rest]
theorem chans (h : LineWork s u) : u.chans = s.chans := by rw [h.rest]
theorem brk (h : LineWork s u) : u.brk = s.brk := by rw [h.rest]
theorem trim (h : LineWork s u) : u.trim = s.trim := by rw [h.rest]
theorem now (h : LineWork s u) : u.now = s.now := by rw [h.rest]
theorem log (h : LineWork s u) : u.log = s.log := by rw [h.rest]
theorem tx (h : LineWork s u) : u.line.tx = s.line.tx := by rw [h.kept]
theorem rx (h : LineWork s u) : u.line.rx = s.line.rx := by rw [h.kept]
theorem rxNext (h : LineWork s u) : u.line.rxNext = s.line.rxNext := by rw [h.kept]
theorem rxSampled (h : LineWork s u) : u.line.rxSampled = s.line.rxSampled := by rw [h.kept]

/-- A Line Interface that differs in the attempt, the train and the link errors. -/
theorem of_line (s : State) (attempt : Option Attempt) (overrun : Option CutAttempt) (errors : BitVec 8) :
    LineWork s { s with line := { s.line with attempt := attempt, overrun := overrun, errors := errors } } :=
  ⟨rfl, rfl, raised_self s⟩

theorem linkError (s : State) (e : LinkError) : LineWork s (s.linkError e) where
  rest := by unfold State.linkError State.raiseIf; split <;> rfl
  kept := by unfold State.linkError State.raiseIf; split <;> rfl
  raised := by simp

theorem linkErrorIf (s : State) (p : Bool) (e : LinkError) : LineWork s (s.linkErrorIf p e) := by
  unfold State.linkErrorIf
  split
  · exact linkError s e
  · exact refl s

theorem cutAttempt (s : State) (a : Attempt) : LineWork s (s.cutAttempt a) :=
  (of_line s none _ s.line.errors).trans (linkErrorIf _ _ _)

theorem settleAttempt (s : State) : LineWork s s.settleAttempt := by
  rcases settleAttempt_cases s with e | ⟨a, -, -, -, e⟩ <;> rw [e]
  · exact refl s
  · exact cutAttempt s a

theorem markInAttempt (s : State) : LineWork s s.markInAttempt :=
  of_line s _ s.line.overrun s.line.errors

theorem extendTrain (s : State) (j : Station) (st : Nat) : LineWork s (s.extendTrain j st) :=
  of_line s s.line.attempt _ s.line.errors

theorem discardAttempt (s : State) (flagged : Bool) : LineWork s (s.discardAttempt flagged) := by
  unfold State.discardAttempt
  split
  · exact refl s
  · exact (of_line s none s.line.overrun s.line.errors).trans (linkErrorIf _ _ _)

theorem dropAttempt (s : State) : LineWork s s.dropAttempt := by
  unfold State.dropAttempt
  split
  · exact refl s
  · exact (of_line s none s.line.overrun s.line.errors).trans (linkErrorIf _ _ _)

theorem assembleLate (s : State) (st : Nat) (c : CharBits) : LineWork s (s.assembleLate st c) := by
  unfold State.assembleLate
  dsimp only
  split <;> exact linkErrorIf _ _ _

end LineWork

/-- What a frame character comes to: work on the line, and after it an own-slot conflict or the delivery of a frame in
another station's slot. -/
inductive FrameOutcome (s : State) : State → Prop
  | work {t : State} (h : LineWork s t) : FrameOutcome s t
  | conflict {u : State} (h : LineWork s u) : FrameOutcome s u.conflict
  | deliver {u : State} (h : LineWork s u) (t : Station) (bytes : List Byte) (hother : t ≠ s.station) :
      FrameOutcome s (u.deliver t bytes)

namespace FrameOutcome

variable {s u t : State}

theorem after_work (hw : LineWork s u) (h : FrameOutcome u t) : FrameOutcome s t := by
  cases h with
  | work h => exact .work (hw.trans h)
  | conflict h => exact .conflict (hw.trans h)
  | deliver h k bytes hother => exact .deliver (hw.trans h) k bytes (hw.station ▸ hother)

/-- The state with the flags of a completed attempt set, before its delivery or its conflict. -/
theorem finishAttempt (s : State) (a : Attempt) : FrameOutcome s (s.finishAttempt a) := by
  have hflags : LineWork s ((((({ s with line := { s.line with attempt := none } } : State).linkErrorIf
      (!s.round.lost && a.markInside) .short).linkErrorIf (!s.round.lost && sumBytes a.bytes != 0) .check).linkErrorIf
      (!s.round.lost && lowerNibble (nth a.bytes 0) != a.slot) .slot)) :=
    (((LineWork.of_line s none s.line.overrun s.line.errors).trans (.linkErrorIf _ _ _)).trans
      (.linkErrorIf _ _ _)).trans (.linkErrorIf _ _ _)
  unfold State.finishAttempt
  dsimp only
  repeat' split
  · exact .conflict hflags
  · exact .work hflags
  · next hother _ => exact .deliver hflags _ _ (by simpa using hother)
  · exact .work hflags

theorem joinAttempt (s : State) (a : Attempt) (st : Nat) (c : CharBits) : FrameOutcome s (s.joinAttempt a st c) := by
  unfold State.joinAttempt
  dsimp only
  split
  · exact finishAttempt s _
  · exact .work (.of_line s _ s.line.overrun s.line.errors)

theorem openAttempt (s : State) (k : Station) (st : Nat) (c : CharBits) : FrameOutcome s (s.openAttempt k st c) := by
  unfold State.openAttempt
  split
  · exact joinAttempt s _ st c
  · exact .work (.refl s)

theorem assemble (s : State) (st : Nat) (c : CharBits) : FrameOutcome s (s.assemble st c) := by
  unfold State.assemble
  dsimp only
  repeat' split
  · exact .work ((LineWork.extendTrain s _ st).trans (.linkErrorIf _ _ _))
  · exact .work (.linkErrorIf _ _ _)
  · exact joinAttempt s _ st c
  · exact .work ((LineWork.extendTrain s _ st).trans (.linkErrorIf _ _ _))
  · exact after_work (.discardAttempt s _) (openAttempt _ _ st c)
  · exact .work ((LineWork.extendTrain s _ st).trans (.linkErrorIf _ _ _))
  · exact .work (.refl s)

/-- A received character that takes no boundary is a frame character's outcome. -/
theorem received {st : Nat} {c : CharBits} (h : s.receivedBoundary st c = none) : FrameOutcome s (s.received st c) := by
  have hflag := LineWork.linkErrorIf s (!c.stop) .framing
  rw [received_of_no_boundary h]
  repeat' split
  · exact .work (((hflag.trans (.markInAttempt _)).trans (.linkError _ _)).trans (.settleAttempt _))
  · exact .work (hflag.trans (.assembleLate _ st c))
  · exact after_work hflag (assemble _ st c)
  · exact .work hflag

end FrameOutcome

/-- Before a command time passes, and the line does what a passing of time does to a frame attempt. -/
theorem lineWork_advance (s : State) (d : Wait) : LineWork (s.elapse d) (s.advance d) := .settleAttempt _

end Sys2Proof.Machine
end

section
/-! PROOFS. The blocks of the link follow the link state (01 to 03, 11): part by part what a boundary, a conflict, a frame and
the requests leave of it. -/

namespace Sys2Proof.Machine

section

variable {s t : State}

/-! ### The parts, by what they read -/

/-- A node on the link receives. -/
theorem receives_of_onLink {l : LinkState} (h : l.onLink = true) : l.receives = true := by
  cases l
  case active => rfl
  case leaving => rfl
  all_goals cases h

theorem onLink_of_tx_ne_released (h : s.followsLink) (htx : s.line.tx ≠ .released) : s.link.state.onLink = true := by
  obtain ⟨⟨hoff, -⟩, -⟩ := h
  by_contra hn
  exact htx (hoff (by simpa using hn)).1

/-- A receiver that is enabled may have anything under way. -/
theorem lineFollowsLink_of_receives (hr : t.link.state.receives = true)
    (h : t.link.state.onLink = false → t.line.tx = .released ∧ t.round.windowOpen = false) : t.lineFollowsLink :=
  ⟨h, fun hn => by rw [hr] at hn; cases hn⟩

/-- Whatever the line does, the other parts stand when their blocks do. -/
theorem followsLink_of_line (hs : s.followsLink) (hline : t.lineFollowsLink) (hlink : t.link = s.link)
    (hroster : t.roster = s.roster) (hstation : t.station = s.station) (htrial : t.trial = s.trial)
    (hconfig : t.config = s.config) (hdrive : s.config = none → t.chans = s.chans ∧ t.brk = s.brk) : t.followsLink := by
  obtain ⟨-, hr, ht, hc, hn⟩ := hs
  refine ⟨hline, ?_, ?_, ?_, ?_⟩
  · unfold State.rosterFollowsLink State.entry at *; rwa [hlink, hroster, hstation]
  · unfold State.trialFollowsLink at *; rwa [hlink, htrial]
  · obtain ⟨hiff, hoff⟩ := hc
    unfold State.configFollowsLink
    rw [hlink, hconfig]
    refine ⟨hiff, fun h => ?_⟩
    obtain ⟨hch, hb⟩ := hdrive h
    rw [hch, hb]
    exact hoff h
  · unfold State.countsInRange at *; rwa [hlink]

/-- An effect that touches none of these blocks. -/
theorem followsLink_of_blocks (hs : s.followsLink) (hline : t.line = s.line) (hround : t.round = s.round)
    (hlink : t.link = s.link) (hroster : t.roster = s.roster) (hstation : t.station = s.station)
    (htrial : t.trial = s.trial) (hconfig : t.config = s.config)
    (hdrive : s.config = none → t.chans = s.chans ∧ t.brk = s.brk) : t.followsLink := by
  refine followsLink_of_line hs ?_ hlink hroster hstation htrial hconfig hdrive
  have h := hs.1
  unfold State.lineFollowsLink at *
  rwa [hline, hround, hlink]

/-- Work on the line at an enabled receiver. -/
theorem followsLink_of_lineWork (hs : s.followsLink) (h : LineWork s t) (hr : s.link.state.receives = true) :
    t.followsLink := by
  refine followsLink_of_line hs (lineFollowsLink_of_receives (h.link ▸ hr) fun hoff => ?_) h.link h.roster h.station
    h.trial h.config fun _ => ⟨h.chans, h.brk⟩
  rw [h.tx, h.round]
  exact hs.1.1 (h.link ▸ hoff)

/-- Every block at its reset value. -/
theorem followsLink_of_reset (hlink : t.link = .reset) (hline : t.line = .reset) (hround : t.round = .reset)
    (hroster : t.roster = List.replicate 16 Entry.cleared) (htrial : t.trial = .empty) (hconfig : t.config = none)
    (hchans : t.chans = .all .disabled) (hbrk : t.brk = { latch := false, mark := false }) : t.followsLink := by
  have hentry : ∀ u : Station, t.entry u = Entry.cleared := fun u => by
    rw [State.entry, hroster]; exact entry_replicate_cleared u
  refine ⟨⟨fun _ => ?_, fun _ => ?_⟩, ⟨?_, ?_, fun _ => ?_, fun _ => hentry⟩, ⟨fun _ => ?_, ?_, ?_⟩, ⟨?_, ?_⟩, ?_⟩
  · rw [hline, hround]; exact ⟨rfl, rfl⟩
  · rw [hline, hround]; exact ⟨rfl, rfl, rfl, rfl, rfl⟩
  · rw [hroster]; rfl
  · rw [hlink]; intro h; cases h
  · rw [hentry]; rfl
  · rw [htrial]; exact .inl ⟨rfl, rfl⟩
  · rw [hlink]; intro h; cases h
  · rw [htrial]; intro _ h; cases h
  · rw [hlink, hconfig]; exact ⟨fun _ => rfl, fun _ => rfl⟩
  · exact fun _ => ⟨hchans, hbrk⟩
  · rw [State.countsInRange, hlink]; decide

/-- Outside UNCONFIGURED a configuration record is held. -/
theorem config_ne_none (hs : s.followsLink) (h : s.link.state ≠ .unconfigured) : s.config ≠ none :=
  fun hn => h (hs.2.2.2.1.1.mpr hn)

theorem ne_unconfigured_of_receives (h : s.link.state.receives = true) : s.link.state ≠ .unconfigured := by
  intro he; rw [he] at h; cases h

/-! ### The way back to STANDBY (R30, R28) -/

/-- A node that returns to STANDBY with nothing but a record that is RECOVERING or IDLE, its line released and its roster
cleared. -/
theorem followsLink_of_standby (hlink : t.link = { state := .standby, listenCount := 0, joinCount := 0, leave := .idle })
    (hline : t.line.tx = .released ∧ t.line.rx = none ∧ t.line.rxNext = none ∧ t.line.rxSampled = none
      ∧ t.line.attempt = none) (hround : t.round.windowOpen = false ∧ t.round.synced = false)
    (hroster : t.roster = List.replicate 16 Entry.cleared)
    (htrial : (t.trial.phase = .idle ∧ t.trial.request = .none) ∨ t.trial.phase = .recovering)
    (hconfig : t.config ≠ none) : t.followsLink := by
  have hentry : ∀ u : Station, t.entry u = Entry.cleared := fun u => by
    rw [State.entry, hroster]; exact entry_replicate_cleared u
  obtain ⟨htx, hrx, hnext, hsampled, hattempt⟩ := hline
  refine ⟨⟨fun _ => ⟨htx, hround.1⟩, fun _ => ⟨hrx, hnext, hsampled, hattempt, hround.2⟩⟩,
    ⟨?_, ?_, fun _ => ?_, fun _ => hentry⟩, ⟨fun _ => htrial, ?_, fun hi hq => ?_⟩, ⟨?_, fun h => absurd h hconfig⟩, ?_⟩
  · rw [hroster]; rfl
  · rw [hlink]; intro h; cases h
  · rw [hentry]; rfl
  · rw [hlink]; intro h; cases h
  · rcases htrial with ⟨-, hnone⟩ | hrec
    · rw [hnone] at hq; cases hq
    · rw [hrec] at hi; cases hi
  · rw [hlink]; exact ⟨fun h => (by cases h), fun h => absurd h hconfig⟩
  · rw [State.countsInRange, hlink]; decide

theorem enterStandby_link (s : State) :
    s.enterStandby.link = { state := .standby, listenCount := 0, joinCount := 0, leave := .idle } := by
  simp [State.enterStandby]

theorem enterStandby_line (s : State) : s.enterStandby.line = s.line.off := by simp [State.enterStandby, State.clearRoster]

theorem enterStandby_round (s : State) :
    s.enterStandby.round = { s.round with windowOpen := false, synced := false, ownSlot := .unobserved } := by
  simp [State.enterStandby, State.clearRoster]

theorem enterStandby_roster (s : State) : s.enterStandby.roster = List.replicate 16 Entry.cleared := by
  simp [State.enterStandby, State.clearRoster]

/-- Whatever is done before and after, STANDBY is entered with the blocks in step. -/
theorem followsLink_enterStandby (u : State) (hlink : t.link = u.enterStandby.link) (hline : t.line = u.enterStandby.line)
    (hround : t.round = u.enterStandby.round) (hroster : t.roster = u.enterStandby.roster)
    (htrial : (t.trial.phase = .idle ∧ t.trial.request = .none) ∨ t.trial.phase = .recovering)
    (hconfig : t.config ≠ none) : t.followsLink := by
  rw [enterStandby_link] at hlink
  rw [enterStandby_line] at hline
  rw [enterStandby_round] at hround
  rw [enterStandby_roster] at hroster
  exact followsLink_of_standby hlink (by rw [hline]; exact ⟨rfl, rfl, rfl, rfl, rfl⟩) (by rw [hround]; exact ⟨rfl, rfl⟩)
    hroster htrial hconfig

/-- A conflict leaves a record that is RECOVERING, or one that was IDLE with no proposal. -/
theorem conflictTrial_phase (s : State) :
    s.conflictTrial.trial.phase = .recovering
      ∨ (s.trial.phase = .idle ∧ s.conflictTrial.trial = { s.trial with abortsOwed := 0 }
          ∧ ∀ i p, s.trial.request ≠ .propose i p) := by
  unfold State.conflictTrial
  split
  · exact .inl rfl
  · next hnot =>
    split
    · exact .inl rfl
    · next htr =>
      simp only [State.tracking, Bool.and_eq_true, bne_iff_ne, not_and, not_not] at htr
      by_cases hi : s.trial.phase = .idle
      · exact .inr ⟨hi, rfl, fun i p hq => hnot i p hi hq⟩
      · exact .inl (htr hi)

theorem conflict_trial (s : State) : s.conflict.trial = s.conflictTrial.trial := by
  simp [State.conflict]

theorem followsLink_conflict (hs : s.followsLink) (hc : s.link.state ≠ .unconfigured) : s.conflict.followsLink := by
  refine followsLink_enterStandby ((s.conflictTrial.setManual 0).present 0 0 none .recovery) rfl rfl rfl rfl ?_
    (by simpa using config_ne_none hs hc)
  rw [conflict_trial]
  rcases conflictTrial_phase s with h | ⟨hi, he, hno⟩
  · exact .inr h
  · refine .inl ?_
    rw [he]
    refine ⟨hi, ?_⟩
    have hab : s.trial.request ≠ .abort := hs.2.2.1.2.2 hi
    show s.trial.request = .none
    cases hq : s.trial.request with
    | none => rfl
    | propose i p => exact absurd hq (hno i p)
    | abort => exact absurd hq hab

/-! ### The roster's entries (R36, R37, R39) -/

/-- The own entry stands when another is written. -/
theorem followsLink_setEntry (hs : s.followsLink) (k : Station) (e : Entry) (hr : s.link.state.receives = true)
    (hown : k = s.station → s.link.state.onLink = true ∧ e.presence = .present ∧ e.miss = 0) :
    (s.setEntry k e).followsLink := by
  obtain ⟨hline, ⟨hlen, hon, hoff, hcl⟩, htrial, hconfig, hcounts⟩ := hs
  refine ⟨hline, ⟨by rw [length_setEntry]; exact hlen, fun h => ?_, fun h => ?_, fun h => ?_⟩, htrial, hconfig, hcounts⟩
  · rw [entry_setEntry _ _ _ hlen]
    split
    · next hk => exact (hown hk.symm).2
    · exact hon h
  · rw [entry_setEntry _ _ _ hlen, if_neg]
    · exact hoff h
    · intro hk
      rw [setEntry_link, (hown hk.symm).1] at h
      cases h
  · rw [setEntry_link, hr] at h
    cases h

theorem followsLink_deliver (hs : s.followsLink) (k : Station) (f : List Byte) (hr : s.link.state.receives = true)
    (hother : k ≠ s.station) : (s.deliver k f).followsLink := by
  have hset : ∀ (e : Entry) (p : Bool), ((s.setEntry k e).raiseIf p .peerChange).followsLink := fun e p =>
    followsLink_of_blocks (followsLink_setEntry hs k e hr fun h => absurd h hother) (by simp) (by simp) (by simp) (by simp)
      (by simp) (by simp) (by simp) (fun _ => by simp)
  unfold State.deliver State.storeReport
  dsimp only
  repeat' split
  · exact hset _ _
  · exact hset _ _
  · exact hs

/-- The own frame's end writes the own entry and touches nothing else that is held in step. -/
theorem followsLink_ownFrameDone (hs : s.followsLink) (r : Report) (hon : s.link.state.onLink = true) :
    (s.ownFrameDone r).followsLink := by
  have hentry : (s.writeOwnEntry r).followsLink :=
    followsLink_setEntry hs s.station _ (receives_of_onLink hon) fun _ => ⟨hon, rfl, rfl⟩
  unfold State.ownFrameDone
  dsimp only
  repeat' split
  all_goals exact hentry

/-! ### The line and the round of a boundary (R6, R17, R28) -/

/-- The leave is complete at this boundary. -/
abbrev State.leavesAt (s : State) (k : BoundaryKind) : Prop :=
  (s.measured.linkStep k).link.state = .leaving ∧ (s.measured.linkStep k).link.leave = .sent

theorem dropAttempt_attempt (s : State) : s.dropAttempt.line.attempt = none := by
  unfold State.dropAttempt
  split
  · assumption
  · unfold State.linkErrorIf State.linkError State.raiseIf
    repeat' split
    all_goals rfl

theorem measured_line (s : State) : s.measured.line = s.dropAttempt.line := by simp [State.measured]

/-- The line as a boundary leaves it: released when a leave is complete, and else as the attempt's discarding has left it,
with no cut attempt's train. -/
theorem takeBoundary_line (s : State) (k : BoundaryKind) (n : BitVec 8) :
    (s.takeBoundary k n).line
      = if s.leavesAt k then LineInterface.off { s.dropAttempt.line with overrun := none }
        else { s.dropAttempt.line with overrun := none } := by
  have hline : (s.sampled k n).line = { s.dropAttempt.line with overrun := none } := by
    simp [State.sampled, State.linked, State.openRound, measured_line]
  simp only [State.takeBoundary, clearBreakMark_line, State.endLeave, enterOwnEntry_link, trialAndTrims_link,
    sampled_link, Bool.and_eq_true, decide_eq_true_eq]
  split
  · simp [State.completeLeave, enterStandby_line, hline]
  · simp [hline]

/-- The new round's frames are assembled where the link state says so, and none are when a leave is complete. -/
theorem takeBoundary_synced (s : State) (k : BoundaryKind) (n : BitVec 8) :
    (s.takeBoundary k n).round.synced
      = if s.leavesAt k then false else (s.measured.linkStep k).link.state.syncs k := by
  have hround : (s.sampled k n).round.synced = (s.measured.linkStep k).link.state.syncs k := by
    simp [State.sampled, State.linked, State.openRound]
  simp only [State.takeBoundary, clearBreakMark_round, State.endLeave, enterOwnEntry_link, trialAndTrims_link,
    sampled_link, Bool.and_eq_true, decide_eq_true_eq]
  split
  · simp [State.completeLeave, enterStandby_round]
  · simp [hround]

theorem takeBoundary_link_of_leaves {k : BoundaryKind} (n : BitVec 8) (h : s.leavesAt k) :
    (s.takeBoundary k n).link = { state := .standby, listenCount := 0, joinCount := 0, leave := .idle } := by
  rw [takeBoundary_link, if_pos h]

theorem takeBoundary_link_of_stays {k : BoundaryKind} (n : BitVec 8) (h : ¬s.leavesAt k) :
    (s.takeBoundary k n).link = (s.measured.linkStep k).link := by
  rw [takeBoundary_link, if_neg h]

/-- The link of a boundary: counted in LISTENING, where it stays or enters ACTIVE, and unchanged elsewhere. -/
theorem linkStep_link_cases (s : State) (k : BoundaryKind) :
    (s.link.state ≠ .listening ∧ (s.measured.linkStep k).link = s.link)
      ∨ (s.link.state = .listening ∧ (s.measured.linkStep k).link.state = .active
          ∧ (s.measured.linkStep k).link.listenCount = 0 ∧ (s.measured.linkStep k).link.joinCount = 0)
      ∨ (s.link.state = .listening ∧ (s.measured.linkStep k).link = s.link.counted k s.round.ownSlot
          ∧ (s.link.counted k s.round.ownSlot).qualified = false) := by
  by_cases h : s.link.state = .listening
  · rw [linkStep_link_of_listening k (by simpa using h)]
    unfold State.countBoundary
    dsimp only
    split
    · exact .inr (.inl ⟨h, rfl, rfl, rfl⟩)
    · next hq => exact .inr (.inr ⟨h, by simp, by simpa using hq⟩)
  · exact .inl ⟨h, by rw [linkStep_link_of_not_listening k (by simpa using h)]; simp⟩

theorem counted_state (l : Link) (k : BoundaryKind) (o : SlotObservation) : (l.counted k o).state = l.state := by
  cases k <;> rfl

/-- Counts below 3 that do not qualify are below 3 again. -/
theorem counted_lt {l : Link} {k : BoundaryKind} {o : SlotObservation} (hl : l.listenCount < 3) (hj : l.joinCount < 3)
    (hq : (l.counted k o).qualified = false) : (l.counted k o).listenCount < 3 ∧ (l.counted k o).joinCount < 3 := by
  simp only [Link.qualified, Bool.or_eq_false_iff, decide_eq_false_iff_not] at hq
  obtain ⟨hql, hqj⟩ := hq
  cases k with
  | localTimed => simp only [Link.counted] at *; omega
  | adopted =>
    by_cases ho : o = .silent
    · simp only [Link.counted, ho, if_true] at *; omega
    · simp [Link.counted, ho]
  | originated => exact ⟨hl, hj⟩
  | lost => exact ⟨hl, hj⟩

/-! ### The record at a boundary (R29, R46) -/

/-- Off ACTIVE an idle record adopts nothing. -/
theorem adoptHeard_of_inactive (h : s.link.state ≠ .active) : s.adoptHeard = s := by
  unfold State.adoptHeard
  split <;> simp [h]

theorem adoptHeard_trial (s : State) :
    s.adoptHeard.trial = s.trial ∨ s.adoptHeard.trial.phase = .accepting := by
  unfold State.adoptHeard
  repeat' split
  · exact .inr rfl
  · exact .inl rfl
  · exact .inl rfl

/-- Off ACTIVE the controller decides nothing. -/
theorem decidePhase_of_inactive (h : s.link.state ≠ .active)
    (ht : (s.trial.phase = .idle ∧ s.trial.request = .none) ∨ s.trial.phase = .recovering) : s.decidePhase = s := by
  unfold State.decidePhase
  rcases ht with ⟨hi, hq⟩ | hr
  · simp only [hi, State.idleStep, hq]
    exact adoptHeard_of_inactive h
  · simp only [hr]

/-- A record that is not IDLE, or has nothing pending. -/
def State.settled (s : State) : Prop := s.trial.phase ≠ .idle ∨ s.trial.request = .none

theorem settled_of_phase (h : s.trial.phase ≠ .idle) : s.settled := .inl h

theorem settled_abortTrial (owed : Nat) (c : Byte) (g : Station) : (s.abortTrial owed c g).settled :=
  settled_of_phase (by rw [abortTrial_trial, enterRecovering_trial]; simp)

theorem settled_startTrial : s.startTrial.settled := settled_of_phase (by rw [startTrial_trial]; simp)

theorem settled_completeTrial : s.completeTrial.settled := settled_of_phase (by rw [completeTrial_trial]; simp)

theorem settled_adopt (c : TrialId × TrialParams) : (s.adopt c).settled := settled_of_phase (by simp [State.adopt])

theorem settled_withdraw (code : Byte) (g : Station) : (s.withdraw code g).settled :=
  settled_of_phase (by rw [withdraw_trial, enterRecovering_trial]; simp)

theorem settled_dropClaim (r : Reason) : (s.dropClaim r).settled := .inr rfl

theorem settled_claimBoundary (i : TrialId) (p : TrialParams) : (s.claimBoundary i p).settled := by
  unfold State.claimBoundary
  dsimp only
  repeat' split
  · exact settled_adopt _
  · exact .inr rfl
  · exact .inr rfl
  · exact settled_of_phase (by simp [State.beginProposal])

theorem settled_idleStep (h : s.trial.request ≠ .abort) : s.idleStep.settled := by
  unfold State.idleStep
  split
  · exact settled_claimBoundary _ _
  · next hq =>
    rcases adoptHeard_trial s with e | e
    · exact .inr (by rw [e]; exact hq)
    · exact settled_of_phase (by rw [e]; simp)
  · next hq => exact absurd hq h

theorem settled_gatherAcceptances (h : s.trial.phase = .proposing) : s.gatherAcceptances.settled := by
  have hphase : s.trial.phase ≠ .idle := by rw [h]; simp
  unfold State.gatherAcceptances
  dsimp only
  repeat' split
  · exact settled_of_phase (by simp [State.setGo])
  · exact settled_of_phase hphase
  · exact settled_withdraw _ _
  · exact settled_of_phase hphase

theorem settled_proposingStep (h : s.trial.phase = .proposing) : s.proposingStep.settled := by
  unfold State.proposingStep
  split
  · exact settled_withdraw _ _
  · split
    · exact settled_abortTrial _ _ _
    · repeat' split
      · exact settled_adopt _
      · exact settled_withdraw _ _
      · exact settled_withdraw _ _
      · exact settled_withdraw _ _
      · exact settled_gatherAcceptances h

theorem settled_takeGo (start : BitVec 8) : (s.takeGo start).settled := by
  rcases takeGo_cases s start with ⟨-, e⟩ | ⟨-, -, -, e⟩ | ⟨-, -, ⟨-, ⟨r, -, e⟩ | ⟨-, e⟩⟩ | ⟨-, e⟩⟩
  all_goals rw [e]
  · exact settled_abortTrial _ _ _
  · exact settled_abortTrial _ _ _
  · exact settled_abortTrial _ _ _
  · exact settled_startTrial
  · exact settled_of_phase (by simp [State.scheduledFor])

theorem settled_acceptingStep (h : s.trial.phase = .accepting) : s.acceptingStep.settled := by
  unfold State.acceptingStep State.acceptingGoes
  repeat' split
  · exact settled_dropClaim _
  · exact settled_abortTrial _ _ _
  · exact settled_dropClaim _
  · exact settled_takeGo _
  · exact settled_abortTrial _ _ _
  · exact settled_dropClaim _
  · exact settled_adopt _
  · exact settled_dropClaim _
  · exact settled_of_phase (by rw [h]; simp)

theorem settled_guarded {go : State → State} (hgo : s.refreshReady.trial.phase = s.trial.phase → (go s.refreshReady).settled) :
    (s.guarded go).settled := by
  unfold State.guarded
  repeat' split
  · exact settled_abortTrial _ _ _
  · exact settled_abortTrial _ _ _
  · exact hgo rfl

theorem settled_countDown (h : s.trial.phase = .running) : s.countDown.settled := by
  have hphase : (if s.isMember then s.appendRun s.trial.id else s).trial.phase = .running := by split <;> simpa [State.appendRun] using h
  unfold State.countDown
  dsimp only
  split
  · exact settled_completeTrial
  · exact settled_of_phase (by simp [hphase])

/-- After the controller's decision an IDLE record has nothing pending. -/
theorem settled_decidePhase (h : s.trial.phase = .idle → s.trial.request ≠ .abort) : s.decidePhase.settled := by
  unfold State.decidePhase
  split
  · next hp => exact settled_idleStep (h hp)
  · next hp => exact settled_proposingStep hp
  · next hp => exact settled_acceptingStep hp
  · next hp =>
    refine settled_guarded fun he => ?_
    unfold State.awaitStart
    split
    · exact settled_startTrial
    · exact settled_of_phase (by rw [he, hp]; simp)
  · next hp => exact settled_guarded fun he => settled_countDown (he.trans hp)
  · next hp => exact settled_of_phase (by rw [hp]; simp)

theorem testIdle_trial (s : State) (was : Bool) :
    (s.testIdle was).trial = s.trial
      ∨ (s.testIdle was).trial = (State.adoptHeard { s with trial := .empty }).trial := by
  unfold State.testIdle
  split
  · exact .inr rfl
  · exact .inl rfl

theorem settled_testIdle (h : s.settled) (was : Bool) : (s.testIdle was).settled := by
  unfold State.settled
  rcases testIdle_trial s was with e | e <;> rw [e]
  · exact h
  · rcases adoptHeard_trial { s with trial := .empty } with e | e
    · rw [e]; exact .inr rfl
    · rw [e]; exact .inl (by simp)

theorem countBoundaries_phase_request (s : State) :
    s.countBoundaries.trial.phase = s.trial.phase ∧ s.countBoundaries.trial.request = s.trial.request := by
  unfold State.countBoundaries
  split <;> exact ⟨rfl, rfl⟩

theorem atDecision_trial_phase_request (s : State) :
    s.atDecision.trial.phase = s.trial.phase ∧ s.atDecision.trial.request = s.trial.request := by
  have hclose : s.closeLink.trial.phase = s.trial.phase ∧ s.closeLink.trial.request = s.trial.request := by
    unfold State.closeLink
    split
    · simp [State.appendClose]
    · exact ⟨rfl, rfl⟩
  have hcount : s.closeLink.countBoundaries.trial.phase = s.closeLink.trial.phase
      ∧ s.closeLink.countBoundaries.trial.request = s.closeLink.trial.request := countBoundaries_phase_request _
  exact ⟨hcount.1.trans hclose.1, hcount.2.trans hclose.2⟩

/-- The record's part of the discipline at a boundary that leaves the link as this. -/
theorem takeBoundary_trialFollowsLink (hs : s.followsLink) (k : BoundaryKind) (n : BitVec 8) :
    (s.takeBoundary k n).trialFollowsLink := by
  obtain ⟨hoff, hleaving, hidle⟩ := hs.2.2.1
  have hlinkD : (s.sampled k n).atDecision.link = (s.measured.linkStep k).link := by simp
  obtain ⟨hphaseD, hrequestD⟩ := atDecision_trial_phase_request (s.sampled k n)
  rw [sampled_trial] at hphaseD hrequestD
  have hsettled : (s.takeBoundary k n).settled := by
    have hdecided : (s.sampled k n).decide.settled := settled_decidePhase (by rw [hphaseD, hrequestD]; exact hidle)
    have hramped : (s.sampled k n).decide.rampTrims.settled := by
      unfold State.settled at *; rwa [rampTrims_trial]
    have hend := settled_testIdle hramped (decide ((s.sampled k n).trial.phase = .recovering))
    unfold State.settled at *
    rwa [takeBoundary_trial]
  by_cases hact : (s.measured.linkStep k).link.state = .active
  case pos =>
    have hstate : (s.takeBoundary k n).link.state = .active := by
      rw [takeBoundary_link_of_stays n (by rw [State.leavesAt, hact]; simp)]; exact hact
    refine ⟨fun h => absurd hstate h, fun h => ?_, fun hi hq => ?_⟩
    · rw [hstate] at h; cases h
    · rcases hsettled with h | h
      · exact h hi
      · rw [h] at hq; cases hq
  case neg =>
    have hsact : s.link.state ≠ .active := by
      rcases linkStep_link_cases s k with ⟨-, e⟩ | ⟨-, e, -⟩ | ⟨h, -⟩
      · rwa [e] at hact
      · exact absurd e hact
      · rw [h]; simp
    have htD : (s.sampled k n).decide.trial = (s.sampled k n).atDecision.trial := by
      rw [State.decide, decidePhase_of_inactive (by rw [hlinkD]; exact hact) (by rw [hphaseD, hrequestD]; exact hoff hsact)]
    have hend : ((s.takeBoundary k n).trial.phase = .idle ∧ (s.takeBoundary k n).trial.request = .none)
        ∨ ((s.takeBoundary k n).trial.phase = .recovering ∧ s.trial.phase = .recovering) := by
      rw [takeBoundary_trial]
      rcases testIdle_trial ((s.sampled k n).decide.rampTrims) (decide ((s.sampled k n).trial.phase = .recovering)) with e | e
      · rw [e, rampTrims_trial, htD, hphaseD, hrequestD]
        rcases hoff hsact with h | h
        · exact .inl h
        · exact .inr ⟨h, h⟩
      · rw [e, adoptHeard_of_inactive (by simpa using hact)]
        exact .inl ⟨rfl, rfl⟩
    refine ⟨fun _ => hend.imp_right And.left, fun hl => ?_, fun hi hq => ?_⟩
    · rcases hend with h | ⟨-, hr⟩
      · exact h.1
      · have hstays : ¬s.leavesAt k := fun h => by rw [takeBoundary_link_of_leaves n h] at hl; cases hl
        rw [takeBoundary_link_of_stays n hstays] at hl
        rcases linkStep_link_cases s k with ⟨-, e⟩ | ⟨-, e, -⟩ | ⟨h, e, -⟩
        · rw [e] at hl; rw [hleaving hl] at hr; cases hr
        · rw [e] at hl; cases hl
        · rw [e, counted_state, h] at hl; cases hl
    · rcases hsettled with h | h
      · exact h hi
      · rw [h] at hq; cases hq

/-! ### A boundary keeps the discipline -/

theorem takeBoundary_lineFollowsLink (hs : s.followsLink) (k : BoundaryKind) (n : BitVec 8) :
    (s.takeBoundary k n).lineFollowsLink := by
  obtain ⟨⟨htx, hrx⟩, -⟩ := hs
  have hdrop := LineWork.dropAttempt s
  unfold State.lineFollowsLink
  rw [takeBoundary_line, takeBoundary_synced, takeBoundary_round_windowOpen]
  by_cases hl : s.leavesAt k
  · simp only [if_pos hl]
    exact ⟨fun _ => ⟨rfl, trivial⟩, fun _ => ⟨rfl, rfl, rfl, rfl, trivial⟩⟩
  simp only [if_neg hl, takeBoundary_link_of_stays n hl, hdrop.tx, hdrop.rx, hdrop.rxNext, hdrop.rxSampled,
    dropAttempt_attempt]
  refine ⟨fun hoff => ⟨?_, trivial⟩, fun hoff => ?_⟩
  · refine (htx ?_).1
    rcases linkStep_link_cases s k with ⟨-, e⟩ | ⟨h, -⟩ | ⟨h, -⟩
    · rwa [e] at hoff
    · rw [h]; rfl
    · rw [h]; rfl
  · rcases linkStep_link_cases s k with ⟨hn, e⟩ | ⟨-, e, -⟩ | ⟨h, e, -⟩
    · rw [e] at hoff ⊢
      obtain ⟨h1, h2, h3, -, -⟩ := hrx hoff
      refine ⟨h1, h2, h3, trivial, ?_⟩
      have hon : s.link.state.onLink = false := by
        by_contra hon
        rw [receives_of_onLink (by simpa using hon)] at hoff
        cases hoff
      simp [LinkState.syncs, hon, hn]
    · rw [e] at hoff; cases hoff
    · rw [e, counted_state, h] at hoff; cases hoff

theorem length_enterOwnEntry (s : State) (was : LinkState) : (s.enterOwnEntry was).roster.length = s.roster.length := by
  unfold State.enterOwnEntry State.writeOwnEntry
  split <;> simp

theorem takeBoundary_rosterFollowsLink (hs : s.followsLink) (k : BoundaryKind) (n : BitVec 8) :
    (s.takeBoundary k n).rosterFollowsLink := by
  obtain ⟨-, ⟨hlen, hon, hoff, hcl⟩, -⟩ := hs
  by_cases hl : s.leavesAt k
  case pos =>
    have hentry : ∀ u, (s.takeBoundary k n).entry u = Entry.cleared := fun u => takeBoundary_entry_of_left n u hl.1 hl.2
    have hroster : (s.takeBoundary k n).roster = List.replicate 16 Entry.cleared := by
      have hstep : ((s.sampled k n).trialAndTrims.enterOwnEntry s.link.state).link = (s.measured.linkStep k).link := by simp
      simp [State.takeBoundary, State.endLeave, hl.1, hl.2, State.completeLeave, enterStandby_roster]
    refine ⟨by rw [hroster]; rfl, fun h => ?_, fun _ => by rw [hentry]; rfl, fun _ => hentry⟩
    rw [takeBoundary_link_of_leaves n hl] at h
    cases h
  case neg =>
    have hentry := fun u => takeBoundary_entry (s := s) (k := k) n u hlen hl
    have hlength : (s.takeBoundary k n).roster.length = 16 := by
      have hstep : ((s.sampled k n).trialAndTrims.enterOwnEntry s.link.state).link = (s.measured.linkStep k).link := by simp
      have hroster : (s.sampled k n).trialAndTrims.roster.length = 16 := by simpa using length_linkStep k hlen
      rw [State.takeBoundary, clearBreakMark_roster, State.endLeave, hstep, if_neg (by simpa using hl),
        length_enterOwnEntry]
      exact hroster
    have hstep : ∀ u, (s.measured.linkStep k).entry u
        = if s.link.state.receives then if u = s.station then s.entry u else (s.entry u).aged else s.entry u := fun u => by
      have hr := linkStep_roster s.measured k
      rw [measured_link] at hr
      unfold State.entry
      rw [hr]
      split
      · have := agedRoster_entry s.measured u
        rw [measured_station, entry_congr (measured_roster s)] at this
        simpa [State.entry] using this
      · simp
    have hown : (s.measured.linkStep k).entry s.station = s.entry s.station := by
      rw [hstep]; simp
    rw [State.rosterFollowsLink, takeBoundary_link_of_stays n hl, takeBoundary_station]
    refine ⟨hlength, fun h => ?_, fun h => ?_, fun h u => ?_⟩
    · rw [hentry]
      rcases linkStep_link_cases s k with ⟨hn, e⟩ | ⟨hlis, hact, -⟩ | ⟨hlis, e, -⟩
      · rw [e] at h
        rw [if_neg (fun hc => hn hc.1.1), hown]
        exact hon h
      · rw [if_pos ⟨⟨hlis, hact⟩, rfl⟩]
        exact ⟨rfl, rfl⟩
      · rw [e, counted_state, hlis] at h; cases h
    · rw [hentry, if_neg (fun hc => by rw [hc.1.2] at h; cases h), hown]
      apply hoff
      rcases linkStep_link_cases s k with ⟨hn, e⟩ | ⟨hlis, -⟩ | ⟨hlis, -⟩
      · rwa [e] at h
      · rw [hlis]; rfl
      · rw [hlis]; rfl
    · have hsr : s.link.state.receives = false := by
        rcases linkStep_link_cases s k with ⟨hn, e⟩ | ⟨-, e, -⟩ | ⟨hlis, e, -⟩
        · rwa [e] at h
        · rw [e] at h; cases h
        · rw [e, counted_state, hlis] at h; cases h
      rw [hentry, if_neg (fun hc => by rw [hc.1.2] at h; cases h), hstep, hsr]
      exact hcl hsr u

theorem takeBoundary_countsInRange (hs : s.followsLink) (k : BoundaryKind) (n : BitVec 8) :
    (s.takeBoundary k n).countsInRange := by
  obtain ⟨-, -, -, -, hlt, hjt, hzero⟩ := hs
  by_cases hl : s.leavesAt k
  · rw [State.countsInRange, takeBoundary_link_of_leaves n hl]; decide
  rw [State.countsInRange, takeBoundary_link_of_stays n hl]
  rcases linkStep_link_cases s k with ⟨hn, e⟩ | ⟨-, e, hlc, hjc⟩ | ⟨hlis, e, hq⟩
  · rw [e]; exact ⟨hlt, hjt, hzero⟩
  · rw [hlc, hjc]; exact ⟨by decide, by decide, fun _ => ⟨rfl, rfl⟩⟩
  · rw [e]
    obtain ⟨h1, h2⟩ := counted_lt hlt hjt hq
    exact ⟨h1, h2, fun h => absurd (by rw [counted_state, hlis]) h⟩

theorem followsLink_takeBoundary (hs : s.followsLink) (hc : s.link.state ≠ .unconfigured) (k : BoundaryKind) (n : BitVec 8) :
    (s.takeBoundary k n).followsLink := by
  have hconfig : (s.takeBoundary k n).config ≠ none := by simpa using config_ne_none hs hc
  have hstate : (s.takeBoundary k n).link.state ≠ .unconfigured := by
    by_cases hl : s.leavesAt k
    · rw [takeBoundary_link_of_leaves n hl]; simp
    rw [takeBoundary_link_of_stays n hl]
    rcases linkStep_link_cases s k with ⟨-, e⟩ | ⟨-, e, -⟩ | ⟨hlis, e, -⟩
    · rw [e]; exact hc
    · rw [e]; simp
    · rw [e, counted_state, hlis]; simp
  exact ⟨takeBoundary_lineFollowsLink hs k n, takeBoundary_rosterFollowsLink hs k n, takeBoundary_trialFollowsLink hs k n,
    ⟨⟨fun h => absurd h hstate, fun h => absurd h hconfig⟩, fun h => absurd h hconfig⟩, takeBoundary_countsInRange hs k n⟩

end

end Sys2Proof.Machine
end

section
/-! PROOFS. Every command keeps the blocks of the link in step with the link state: its cases, and the step (O58). -/

namespace Sys2Proof.Machine

section

variable {s t : State}

/-! ### Boundaries by their events -/

/-- A boundary is taken in STANDBY, in LISTENING, or by a received character. -/
theorem boundaryOf_state {b : BoundaryEvent} {kn : BoundaryKind × BitVec 8} (h : s.boundaryOf b = some kn) :
    s.link.state = .standby ∧ b = .standbyLocal ∨ s.link.state = .listening ∧ b = .listeningLocal
      ∨ s.link.state.receives = true ∧ ∃ c, b = .character c := by
  cases b with
  | standbyLocal =>
    simp only [State.boundaryOf] at h
    split at h
    · next hd => simp only [State.standbyDue, Bool.and_eq_true, decide_eq_true_eq] at hd; exact .inl ⟨hd.1.2, rfl⟩
    · cases h
  | listeningLocal =>
    simp only [State.boundaryOf] at h
    split at h
    · next hd => simp only [State.listeningDue, Bool.and_eq_true, decide_eq_true_eq] at hd; exact .inr (.inl ⟨hd.1.1.2, rfl⟩)
    · cases h
  | character c =>
    refine .inr (.inr ⟨?_, c, rfl⟩)
    simp only [State.boundaryOf, State.characterBoundary] at h
    split at h
    · next hd => exact receives_of_characterDue hd
    · split at h
      · next hd => exact receives_of_sampledDue hd
      · cases h

theorem ne_unconfigured_of_boundaryOf {b : BoundaryEvent} {kn : BoundaryKind × BitVec 8} (h : s.boundaryOf b = some kn) :
    s.link.state ≠ .unconfigured := by
  rcases boundaryOf_state h with ⟨e, -⟩ | ⟨e, -⟩ | ⟨e, -⟩
  · rw [e]; simp
  · rw [e]; simp
  · exact ne_unconfigured_of_receives e

theorem boundaryBase_tx (s : State) (b : BoundaryEvent) :
    (s.boundaryBase b).line.tx = s.line.tx ∨ (s.boundaryBase b).line.tx = .released := by
  have herrors : ∀ (l : LineInterface) (c : CharBits), (State.windowErrors { s with line := l } c).line.tx = l.tx := by
    intro l c
    unfold State.windowErrors
    dsimp only
    split
    · exact (LineWork.linkErrorIf { s with line := l } (!c.stop) .framing).tx
    · exact ((LineWork.linkErrorIf { s with line := l } (!c.stop) .framing).trans (.linkError _ _)).tx
  unfold State.boundaryBase
  cases b with
  | standbyLocal => exact .inl rfl
  | listeningLocal => exact .inl rfl
  | character c =>
    dsimp only
    repeat' split
    · exact .inr rfl
    · exact .inl rfl
    · exact .inl (herrors _ c)
    · exact .inl (herrors _ c)

theorem followsLink_boundaryBase (hs : s.followsLink) {b : BoundaryEvent} {kn : BoundaryKind × BitVec 8}
    (h : s.boundaryOf b = some kn) : (s.boundaryBase b).followsLink := by
  rcases boundaryOf_state h with ⟨-, rfl⟩ | ⟨-, rfl⟩ | ⟨hr, c, rfl⟩
  · exact hs
  · exact hs
  · refine followsLink_of_line hs (lineFollowsLink_of_receives (by simpa using hr) fun hoff => ?_) (by simp) (by simp)
      (by simp) (by simp) (by simp) fun _ => by simp
    obtain ⟨htx, hw⟩ := hs.1.1 (by simpa using hoff)
    refine ⟨?_, by simpa using hw⟩
    rcases boundaryBase_tx s (.character c) with e | e
    · rw [e, htx]
    · exact e

/-- Every boundary that an event takes keeps the discipline. -/
theorem followsLink_boundary (hs : s.followsLink) {b : BoundaryEvent} {k : BoundaryKind} {n : BitVec 8}
    (h : s.boundaryOf b = some (k, n)) : ((s.boundaryBase b).takeBoundary k n).followsLink :=
  followsLink_takeBoundary (followsLink_boundaryBase hs h)
    (by simpa using ne_unconfigured_of_boundaryOf h) k n

/-! ### Characters -/

/-- A receiver that has let go of a character, or taken another, while the transmitter stands. -/
theorem followsLink_of_receiver (hs : s.followsLink) (hr : s.link.state.receives = true) (l : LineInterface)
    (htx : l.tx = s.line.tx) : State.followsLink { s with line := l } :=
  followsLink_of_line hs (lineFollowsLink_of_receives hr fun hoff => ⟨htx.trans (hs.1.1 hoff).1, (hs.1.1 hoff).2⟩)
    rfl rfl rfl rfl rfl fun _ => ⟨rfl, rfl⟩

theorem followsLink_frameOutcome (hs : s.followsLink) (hr : s.link.state.receives = true) (h : FrameOutcome s t) :
    t.followsLink := by
  cases h with
  | work h => exact followsLink_of_lineWork hs h hr
  | @conflict u h =>
    exact followsLink_conflict (followsLink_of_lineWork hs h hr) (ne_unconfigured_of_receives (h.link ▸ hr))
  | deliver h k bytes hother =>
    exact followsLink_deliver (followsLink_of_lineWork hs h hr) k bytes (h.link ▸ hr) (h.station ▸ hother)

theorem followsLink_ownCharacter (hs : s.followsLink) (r : Report) (sent : Nat) (hon : s.link.state.onLink = true) :
    (s.ownCharacter r sent).followsLink := by
  have hline : ∀ l : LineInterface, State.followsLink { s with line := l } := fun l =>
    followsLink_of_line hs (lineFollowsLink_of_receives (receives_of_onLink hon) fun hoff => by
      rw [show State.link { s with line := l } = s.link from rfl, hon] at hoff; cases hoff)
      rfl rfl rfl rfl rfl fun _ => ⟨rfl, rfl⟩
  unfold State.ownCharacter
  split
  · exact followsLink_ownFrameDone (hline _) r hon
  · exact hline _

theorem followsLink_completeCharacter (hs : s.followsLink) (c : CharBits) : (s.completeCharacter c).followsLink := by
  rcases completeCharacter_cases s c with e | ⟨k, n, hb, e⟩ | ⟨r, sent, hd, htx, e⟩ | ⟨l, st, hr, hl, hnone, e⟩
  all_goals rw [e]
  · exact hs
  · exact followsLink_boundary hs hb
  · have hon := onLink_of_tx_ne_released hs (by rw [htx]; simp)
    exact followsLink_ownCharacter (followsLink_of_receiver hs (receives_of_onLink hon) s.line.shift rfl) r sent hon
  · have hreceiver : State.followsLink { s with line := l } :=
      followsLink_of_receiver hs hr l (by rcases hl with rfl | rfl <;> rfl)
    exact followsLink_frameOutcome hreceiver hr
      (FrameOutcome.received ((receivedBoundary_congr rfl rfl rfl).trans hnone))

/-- A character start that is taken, or a transmission that begins, at an enabled receiver. -/
theorem followsLink_beginSending (hs : s.followsLink) (x : Tx) (hon : s.link.state.onLink = true) :
    (s.beginSending x).followsLink :=
  followsLink_of_line hs (lineFollowsLink_of_receives (by simpa using receives_of_onLink hon) fun hoff => by
    simp [hon] at hoff) (by simp) (by simp) (by simp) (by simp) (by simp) fun _ => by simp

theorem noteStart_windowOpen (s : State) (e : Nat) : (s.noteStart e).round.windowOpen = s.round.windowOpen := by
  unfold State.noteStart
  split <;> rfl

theorem detectStart_keeps (s : State) (e : Nat) :
    (s.detectStart e).line.tx = s.line.tx ∧ (s.detectStart e).round.windowOpen = s.round.windowOpen := by
  unfold State.detectStart
  repeat' split
  · exact ⟨by simp, noteStart_windowOpen _ _⟩
  · exact ⟨by simp, noteStart_windowOpen _ _⟩
  · exact ⟨rfl, rfl⟩

theorem followsLink_detectStart (hs : s.followsLink) (e : Nat) (hr : s.link.state.receives = true) :
    (s.detectStart e).settleAttempt.followsLink := by
  obtain ⟨htx, hwindow⟩ := detectStart_keeps s e
  refine followsLink_of_lineWork (followsLink_of_line hs (t := s.detectStart e)
    (lineFollowsLink_of_receives (by simpa using hr) fun hoff => ?_)
    (by simp) (by simp) (by simp) (by simp) (by simp) fun _ => by simp) (.settleAttempt _) (by simpa using hr)
  rw [htx, hwindow]
  exact hs.1.1 (by simpa using hoff)

/-- A disabled receiver has no attempt that time could cut. -/
theorem followsLink_advance (hs : s.followsLink) (d : Wait) : (s.advance d).followsLink := by
  have helapse : (s.elapse d).followsLink := hs
  cases hr : s.link.state.receives with
  | true => exact followsLink_of_lineWork helapse (lineWork_advance s d) hr
  | false =>
    have hnone : s.line.attempt = none := (hs.1.2 hr).2.2.2.1
    rw [advance_of_open d (fun a ha => by rw [hnone] at ha; cases ha)]
    exact helapse

/-! ### Requests -/

theorem ne_unconfigured_of_takes {q : Request} {p : List Byte} (h : s.takes q p)
    (hq : q.availableIn .unconfigured = false) : s.link.state ≠ .unconfigured := by
  obtain ⟨-, -, -, -, havail⟩ := h
  intro he
  rw [he, hq] at havail
  cases havail

/-- An accepted CONFIGURE takes the node from UNCONFIGURED to STANDBY. -/
theorem followsLink_acceptConfig (hs : s.followsLink) (hu : s.link.state = .unconfigured) (c : ConfigRecord) :
    (s.acceptConfig c).followsLink := by
  obtain ⟨⟨htx, hrx⟩, ⟨hlen, hon, hoff, hcl⟩, ⟨htrial, hleaving, hidle⟩, -, ⟨-, -, hzero⟩⟩ := hs
  have hnot : s.link.state.onLink = false := by rw [hu]; rfl
  have hdeaf : s.link.state.receives = false := by rw [hu]; rfl
  obtain ⟨hr1, hr2, hr3, hatt, -⟩ := hrx hdeaf
  obtain ⟨hl, hj⟩ := hzero (by rw [hu]; simp)
  have hentry : ∀ u, (s.acceptConfig c).entry u = Entry.cleared := hcl hdeaf
  refine ⟨⟨fun _ => ⟨(htx hnot).1, rfl⟩, fun _ => ⟨hr1, hr2, hr3, hatt, rfl⟩⟩,
    ⟨hlen, fun h => ?_, fun _ => by rw [hentry]; rfl, fun _ => hentry⟩,
    ⟨fun _ => htrial (by rw [hu]; simp), fun h => ?_, hidle⟩, ⟨⟨fun h => ?_, fun h => ?_⟩, fun h => ?_⟩, ?_⟩
  · cases h
  · cases h
  · cases h
  · cases h
  · cases h
  · unfold State.countsInRange
    simp only [State.acceptConfig, hl, hj]
    decide

theorem followsLink_join (hs : s.followsLink) (hst : s.link.state = .standby) (p : List Byte) :
    (joinWork p s).1.followsLink := by
  obtain ⟨⟨htx, hrx⟩, ⟨hlen, hon, hoff, hcl⟩, ⟨htrial, hleaving, hidle⟩, ⟨hconfig, hdrive⟩, -⟩ := hs
  have hnot : s.link.state.onLink = false := by rw [hst]; rfl
  refine ⟨⟨fun _ => ⟨rfl, (htx hnot).2⟩, fun h => ?_⟩, ⟨hlen, fun h => ?_, fun _ => hoff hnot, fun h => ?_⟩,
    ⟨fun _ => htrial (by rw [hst]; simp), fun h => ?_, hidle⟩, ⟨⟨fun h => ?_, fun h => ?_⟩, hdrive⟩, ?_⟩
  · cases h
  · cases h
  · cases h
  · cases h
  · cases h
  · rw [hconfig.mpr h] at hst; cases hst
  · exact ⟨by show 0 < 3; decide, by show 0 < 3; decide, fun h => absurd rfl h⟩

theorem followsLink_leave (hs : s.followsLink) (hav : s.link.state = .listening ∨ s.link.state = .active) (p : List Byte) :
    (leaveWork p s).1.followsLink := by
  have hconf : s.config ≠ none := config_ne_none hs (by rcases hav with h | h <;> rw [h] <;> simp)
  unfold leaveWork
  split
  · next hl =>
    refine followsLink_enterStandby s rfl rfl rfl rfl ?_ (by simpa using hconf)
    simpa using hs.2.2.1.1 (by rw [hl]; simp)
  · next hl =>
    have hact := hav.resolve_left hl
    split
    · next hi =>
      simp only [State.trialIdle, Bool.and_eq_true, decide_eq_true_eq] at hi
      obtain ⟨-, ⟨hlen, hon, -, -⟩, -, ⟨hconfig, hdrive⟩, ⟨hlt, hjt, hzero⟩⟩ := hs
      have honl : s.link.state.onLink = true := by rw [hact]; rfl
      refine ⟨⟨fun h => ?_, fun h => ?_⟩, ⟨hlen, fun _ => hon honl, fun h => ?_, fun h => ?_⟩,
        ⟨fun _ => .inl hi, fun _ => hi.1, fun _ hq => ?_⟩, ⟨⟨fun h => ?_, fun h => absurd h hconf⟩, hdrive⟩,
        ⟨hlt, hjt, fun _ => hzero (by rw [hact]; simp)⟩⟩
      · cases h
      · cases h
      · cases h
      · cases h
      · rw [show _ = s.trial.request from rfl, hi.2] at hq; cases hq
      · cases h
    · exact hs

/-- A record that is changed in ACTIVE, and is not left with an ABORT pending while IDLE. -/
theorem followsLink_of_trial (hs : s.followsLink) (hact : s.link.state = .active) (r : TrialRecord)
    (hr : r.phase = .idle → r.request ≠ .abort) : State.followsLink { s with trial := r } := by
  obtain ⟨hline, hroster, -, hconfig, hcounts⟩ := hs
  refine ⟨hline, hroster, ⟨fun h => absurd hact h, fun h => ?_, hr⟩, hconfig, hcounts⟩
  rw [show _ = s.link.state from rfl, hact] at h
  cases h

theorem active_of_tracking (hs : s.followsLink) (h : s.tracking = true) : s.link.state = .active := by
  simp only [State.tracking, Bool.and_eq_true, bne_iff_ne] at h
  by_contra hn
  rcases hs.2.2.1.1 hn with ⟨hi, -⟩ | hr
  · exact h.1 hi
  · exact h.2 hr

theorem followsLink_abortTrialWork (hs : s.followsLink) (p : List Byte) : (abortTrialWork p s).1.followsLink := by
  have htracking : ∀ r : TrialRecord, s.tracking = true → r.phase = s.trial.phase →
      State.followsLink { s with trial := r } := by
    intro r ht hr
    refine followsLink_of_trial hs (active_of_tracking hs ht) r fun hi => ?_
    simp only [State.tracking, Bool.and_eq_true, bne_iff_ne] at ht
    exact absurd (hr.symm.trans hi) ht.1
  unfold abortTrialWork
  split
  case h_1 hp =>
    split
    · next i _ hq =>
      refine followsLink_of_trial hs ?_ { s.trial with request := .none } fun _ => by simp
      by_contra hn
      rcases hs.2.2.1.1 hn with ⟨-, hnone⟩ | hr
      · rw [hnone] at hq; cases hq
      · rw [hr] at hp; cases hp
    · exact hs
    · exact hs
  case h_2 hp => exact htracking _ (by simp [State.tracking, hp]) rfl
  case h_3 hp => split <;> exact htracking _ (by simp [State.tracking, hp]) rfl
  case h_4 hp => exact htracking _ (by simp [State.tracking, hp]) rfl
  case h_5 hp => exact htracking _ (by simp [State.tracking, hp]) rfl
  case h_6 => exact hs

theorem followsLink_proposeTrialWork (hs : s.followsLink) (hact : s.link.state = .active) (p : List Byte) :
    (proposeTrialWork p s).1.followsLink := by
  unfold proposeTrialWork
  dsimp only
  repeat' split
  · exact hs
  · exact hs
  · exact hs
  · exact followsLink_of_trial hs hact { s.trial with request := .propose _ _ } fun _ => by simp

/-- A request's work keeps the discipline: CONFIGURE, JOIN and LEAVE change the link state, PROPOSE_TRIAL and ABORT_TRIAL
the record, CLEAR_FAULTS and CLEAR_BREAK what needs a configuration, SOFT_RESET everything. -/
theorem followsLink_work (hs : s.followsLink) (q : Request) (straps : BitVec 4) (p : List Byte) (h : s.takes q p) :
    (q.work straps p s).1.followsLink := by
  have havail : q.availableIn s.link.state = true := h.2.2.2.2
  cases q with
  | nop | readStatus | readEvents | setEventMask | readLinkErrors | clearLinkErrors | readTrial | readRoster | readCheck =>
    exact hs
  | readLog => simp only [Request.work, readLogWork]; split <;> exact hs
  | configure =>
    simp only [Request.work, configureWork]
    split
    · exact hs
    · exact followsLink_acceptConfig hs (by simpa [Request.availableIn] using havail) _
  | join => exact followsLink_join hs (by simpa [Request.availableIn] using havail) p
  | leave => exact followsLink_leave hs (by simpa [Request.availableIn] using havail) p
  | proposeTrial => exact followsLink_proposeTrialWork hs (by simpa [Request.availableIn] using havail) p
  | abortTrial => exact followsLink_abortTrialWork hs p
  | manualTrim => simp only [Request.work, manualTrimWork]; (repeat' split) <;> exact hs
  | snap =>
    simp only [Request.work, snapWork]
    repeat' split
    · exact hs
    · exact hs
    · exact followsLink_of_blocks hs (by simp) (by simp) (by simp) (by simp) (by simp) (by simp) (by simp) fun _ => by simp
  | flushLog => simp only [Request.work, flushLogWork]; split <;> exact hs
  | revCheck => simp only [Request.work, revCheckWork]; (repeat' split) <;> exact hs
  | cancelCheck => simp only [Request.work, cancelCheckWork]; split <;> exact hs
  | clearFaults =>
    have hconf := config_ne_none hs (ne_unconfigured_of_takes h rfl)
    have hkeeps : ∀ {β : Type} (f : State → β), (∀ t n, f (State.releaseChannel t n) = f t) →
        f (clearFaultsWork p s).1 = f s := fun f hf => foldl_keeps _ f hf _ _
    exact followsLink_of_blocks hs (hkeeps (·.line) (by simp)) (hkeeps (·.round) (by simp)) (hkeeps (·.link) (by simp))
      (hkeeps (·.roster) (by simp)) (hkeeps (·.station) (by simp)) (hkeeps (·.trial) (by simp))
      (hkeeps (·.config) (by simp)) fun hn => absurd hn hconf
  | clearBreak =>
    have hconf := config_ne_none hs (ne_unconfigured_of_takes h rfl)
    simp only [Request.work, clearBreakWork]
    split
    · exact hs
    · exact followsLink_of_blocks hs rfl rfl rfl rfl rfl rfl rfl fun hn => absurd hn hconf
  | softReset => exact followsLink_of_reset rfl rfl rfl rfl rfl rfl rfl rfl

/-! ### Every effect -/

theorem config_isSome_of_flipDue {f : SlowFilter} (h : s.flipDue f = true) : s.config ≠ none := by
  simp only [State.flipDue, Bool.and_eq_true] at h
  exact Option.isSome_iff_ne_none.mp h.1.2

theorem onLink_of_windowDue (h : s.windowDue = true) : s.link.state.onLink = true := by
  simp only [State.windowDue, Bool.and_eq_true] at h; exact h.1.1.2

theorem onLink_of_originationDue (h : s.originationDue = true) : s.link.state.onLink = true := by
  simp only [State.originationDue, Bool.and_eq_true] at h; exact h.1.1.1.1.2

theorem onLink_of_ownSlotDue (h : s.ownSlotDue = true) : s.link.state.onLink = true := by
  simp only [State.ownSlotDue, Bool.and_eq_true] at h; exact h.1.1.1.1.2

theorem receives_of_slotCloseDue (h : s.slotCloseDue = true) : s.link.state.receives = true := by
  simp only [State.slotCloseDue, Bool.and_eq_true] at h; exact h.1.1.2

/-- The Round Timer's other fields are free while the receiver is enabled and the window is not opened off the link. -/
theorem followsLink_of_round (hs : s.followsLink) (hr : s.link.state.receives = true) (r : RoundTimer)
    (hw : s.link.state.onLink = false → r.windowOpen = s.round.windowOpen) : State.followsLink { s with round := r } :=
  followsLink_of_line hs (lineFollowsLink_of_receives hr fun hoff =>
    ⟨(hs.1.1 hoff).1, (hw hoff).trans (hs.1.1 hoff).2⟩) rfl rfl rfl rfl rfl fun _ => ⟨rfl, rfl⟩

theorem followsLink_effect (hs : s.followsLink) (h : Effect s t) : t.followsLink := by
  cases h with
  | hold | endReset => exact followsLink_of_reset rfl rfl rfl rfl rfl rfl rfl rfl
  | nothing | power | readout | answer | sampleSlow | stall | indexTimeout | pwmPeriod => exact hs
  | request q straps p h => exact followsLink_work hs q straps p h
  | selRises bits =>
    refine followsLink_of_blocks hs ?_ ?_ ?_ ?_ ?_ ?_ ?_ fun _ => ⟨?_, ?_⟩
    all_goals
      unfold State.selRises
      dsimp only
      (repeat' split) <;> simp
  | startDetected h => exact followsLink_detectStart hs _ h
  | character c => exact followsLink_completeCharacter hs c
  | collision n h =>
    have hr := receives_of_onLink (onLink_of_tx_ne_released hs (by rw [h]; simp))
    refine followsLink_of_lineWork (s := { s with line := { s.line with tx := .released } }) ?_ (.linkError _ _) hr
    exact followsLink_of_line hs (lineFollowsLink_of_receives hr fun hoff => ⟨rfl, (hs.1.1 hoff).2⟩)
      rfl rfl rfl rfl rfl fun _ => ⟨rfl, rfl⟩
  | conflict r sent h =>
    exact followsLink_conflict hs (ne_unconfigured_of_receives
      (receives_of_onLink (onLink_of_tx_ne_released hs (by rw [h]; simp))))
  | windowOpen h =>
    have hon := onLink_of_windowDue h
    exact followsLink_of_round hs (receives_of_onLink hon) _ fun hoff => by rw [hon] at hoff; cases hoff
  | originate h => exact followsLink_beginSending hs _ (onLink_of_originationDue h)
  | standbyLocal =>
    rcases standbyLocal_cases s with e | ⟨hb, e⟩ <;> rw [e]
    · exact hs
    · exact followsLink_boundary (b := .standbyLocal) hs hb
  | listeningLocal =>
    rcases listeningLocal_cases s with e | ⟨hb, e⟩ <;> rw [e]
    · exact hs
    · exact followsLink_boundary (b := .listeningLocal) hs hb
  | ownSlot h =>
    have hon := onLink_of_ownSlotDue h
    refine followsLink_of_lineWork (followsLink_beginSending
      (followsLink_of_round hs (receives_of_onLink hon) { s.round with ownSlotDone := true } fun _ => rfl) _ hon)
      (.settleAttempt _) (by simpa using receives_of_onLink hon)
  | closeSlot h =>
    have hr := receives_of_slotCloseDue h
    exact followsLink_of_lineWork (s := { s with round := { s.round with slotsClosed := s.round.slotsClosed + 1 } })
      (followsLink_of_round hs hr _ fun _ => rfl) (.settleAttempt _) hr
  | changeRdy n h | changeFlt n h =>
    exact followsLink_of_blocks hs (by simp) (by simp) (by simp) (by simp) (by simp) (by simp) (by simp)
      fun hn => absurd hn (config_isSome_of_flipDue h)
  | changeBrk h =>
    exact followsLink_of_blocks hs (by simp) (by simp) (by simp) (by simp) (by simp) (by simp) (by simp)
      fun hn => absurd hn (config_isSome_of_flipDue h)
  | selFalls | speedEdge | loadEdge | indexEdge | fallingEdge | pwmHighTime =>
    exact followsLink_of_blocks hs (by simp) (by simp) (by simp) (by simp) (by simp) (by simp) (by simp) fun _ => by simp

end

/-- Settles O58: of each command's cases the discipline's five parts stand, a boundary's and a conflict's being the ones
that change the link state by themselves. -/
theorem linkDisciplineIsKept : Obligations.LinkDisciplineIsKept := by
  intro s t hs h
  exact step_keeps (P := State.followsLink) (fun _ _ h => h) (fun _ d h => followsLink_advance h d)
    (fun _ _ => followsLink_effect) hs h

end Sys2Proof.Machine
end

section
/-! PROOFS. The ramp and the split of a boundary (08): a value moves toward its target by its limit, and the shares that a
shift gives the READY channels sum to 0. -/

namespace Sys2Proof.Machine

/-! ### Sums over the channels -/

theorem sumInt_eq_sum (l : List Int) : sumInt l = l.sum := rfl

/-- What only some members give a sum is the sum over these. -/
theorem sum_map_ite {α : Type} (l : List α) (p : α → Bool) (g : α → Int) :
    (l.map fun n => if p n then g n else 0).sum = ((l.filter p).map g).sum := by
  induction l with
  | nil => rfl
  | cons a l ih => cases h : p a <;> simp [h, ih]

/-- One and the same amount for some members of a list. -/
theorem sum_map_ite_const {α : Type} (l : List α) (p : α → Bool) (e : Int) :
    (l.map fun n => if p n then e else 0).sum = l.countP p * e := by
  rw [sum_map_ite, List.map_const', List.sum_replicate, List.countP_eq_length_filter, nsmul_eq_mul]

/-! ### The split (R138) -/

/-- The READY channels other than the drive. -/
abbrev splitOthers (ready : Channel → Bool) (d : Channel) : List Channel := channels.filter fun m => ready m && m != d

/-- The ranks of a set of channels are the numbers from 0 on, as many as it has. -/
theorem ranks_of_filter : ∀ p : Channel → Bool,
    ((channels.filter p).map fun n => ((channels.filter p).filter fun m => m.val < n.val).length)
      = List.range (channels.filter p).length := by decide

theorem readyBefore_eq (ready : Channel → Bool) (d n : Channel) :
    readyBefore ready d n = ((splitOthers ready d).filter fun m => m.val < n.val).length := by
  rw [readyBefore, splitOthers, List.filter_filter]
  congr 2
  funext m
  rw [Bool.and_comm]

/-- The quotient of the shift by the number of the others, and the remainder. -/
def splitQuot (ready : Channel → Bool) (x : Int) (d : Channel) : Int := (-x).tdiv (splitOthers ready d).length

def splitRest (ready : Channel → Bool) (x : Int) (d : Channel) : Int :=
  -x - splitQuot ready x d * (splitOthers ready d).length

section

variable {ready : Channel → Bool} {x : Int} {d n : Channel}

theorem splitShare_eq_zero (h : x = 0 ∨ ready d = false ∨ splitOthers ready d = [] ∨ ready n = false) :
    splitShare ready x d n = 0 := by
  unfold splitShare
  dsimp only
  rw [if_pos]
  rcases h with h | h | h | h
  · simp [h]
  · simp [h]
  · simp [show channels.filter (fun m => ready m && m != d) = [] from h]
  · simp [h]

/-- A shift that is split: toward a READY drive, over others that are READY. -/
theorem splitShare_drive (hd : ready d = true) (ho : splitOthers ready d ≠ []) : splitShare ready x d d = x := by
  by_cases hx : x = 0
  · rw [splitShare_eq_zero (.inl hx), hx]
  unfold splitShare
  dsimp only
  have hlen : (channels.filter fun m => ready m && m != d).length ≠ 0 := fun h => ho (List.length_eq_zero_iff.mp h)
  rw [if_neg (by simp [hx, hd, hlen]), if_pos rfl]

theorem mem_splitOthers : n ∈ splitOthers ready d ↔ ready n = true ∧ n ≠ d := by
  have hn : n ∈ channels := by fin_cases n <;> simp [channels]
  simp [splitOthers, hn]

/-- What another READY channel takes: the quotient, and one unit of the remainder where its rank is below it. -/
theorem splitShare_other (hd : ready d = true) (hn : n ∈ splitOthers ready d) :
    splitShare ready x d n
      = splitQuot ready x d
        + if ((splitOthers ready d).filter fun m => m.val < n.val).length < (splitRest ready x d).natAbs
          then (-x).sign else 0 := by
  obtain ⟨hready, hne⟩ := mem_splitOthers.mp hn
  by_cases hx : x = 0
  · rw [splitShare_eq_zero (.inl hx)]
    simp [splitQuot, hx]
  unfold splitShare
  dsimp only
  have hlen : (channels.filter fun m => ready m && m != d).length ≠ 0 :=
    fun h => List.ne_nil_of_mem hn (List.length_eq_zero_iff.mp h)
  rw [if_neg (by simp [hx, hd, hlen, hready]), if_neg hne, readyBefore_eq]
  show (if _ < (splitRest ready x d).natAbs then splitQuot ready x d + _ else splitQuot ready x d) = _
  split <;> simp

/-- The remainder is smaller than the number of the others, and has the sign of what they take together. -/
theorem splitRest_bounds (ho : splitOthers ready d ≠ []) :
    (splitRest ready x d).natAbs < (splitOthers ready d).length
      ∧ splitRest ready x d = (splitRest ready x d).natAbs * (-x).sign := by
  have hpos : 0 < (splitOthers ready d).length := List.length_pos_iff.mpr ho
  have hrest : splitRest ready x d = (-x).tmod (splitOthers ready d).length := by
    have := Int.mul_tdiv_add_tmod (-x) (splitOthers ready d).length
    rw [splitRest, splitQuot, Int.mul_comm]
    omega
  have hlt : ((-x).tmod (splitOthers ready d).length).natAbs < (splitOthers ready d).length := by
    rw [Int.natAbs_tmod]
    exact Nat.mod_lt _ hpos
  refine ⟨hrest ▸ hlt, ?_⟩
  rw [hrest]
  rcases Int.lt_trichotomy (-x) 0 with h | h | h
  · have := Int.tmod_nonneg (splitOthers ready d).length (show 0 ≤ x by omega)
    rw [Int.sign_eq_neg_one_of_neg h, Int.neg_tmod]
    omega
  · rw [h]; simp
  · have := Int.tmod_nonneg (splitOthers ready d).length h.le
    rw [Int.sign_eq_one_of_pos h]
    omega

/-- The others take together what the drive takes, with the other sign. -/
theorem sum_splitOthers (hd : ready d = true) (ho : splitOthers ready d ≠ []) :
    ((splitOthers ready d).map fun n => splitShare ready x d n).sum = -x := by
  obtain ⟨hlt, hsign⟩ := splitRest_bounds (x := x) ho
  have hunits : ((splitOthers ready d).map fun n =>
      if ((splitOthers ready d).filter fun m => m.val < n.val).length < (splitRest ready x d).natAbs
        then (-x).sign else 0).sum = splitRest ready x d := by
    have hranks := congrArg (List.map fun i => if i < (splitRest ready x d).natAbs then (-x).sign else 0)
      (ranks_of_filter fun m => ready m && m != d)
    rw [List.map_map] at hranks
    have hcount := sum_map_ite_const (List.range (splitOthers ready d).length)
      (fun i => decide (i < (splitRest ready x d).natAbs)) (-x).sign
    simp only [decide_eq_true_eq] at hcount
    refine (congrArg List.sum hranks).trans ?_
    rw [hcount, countP_range_lt, Nat.min_eq_right hlt.le]
    exact hsign.symm
  calc ((splitOthers ready d).map fun n => splitShare ready x d n).sum
      = ((splitOthers ready d).map fun n => splitQuot ready x d
          + if ((splitOthers ready d).filter fun m => m.val < n.val).length < (splitRest ready x d).natAbs
            then (-x).sign else 0).sum := by
        rw [List.map_congr_left fun n hn => splitShare_other hd hn]
    _ = (splitOthers ready d).length * splitQuot ready x d + splitRest ready x d := by
        rw [List.sum_map_add, hunits]; simp
    _ = -x := by rw [splitRest, Int.mul_comm]; omega

/-- The shares of a split sum to 0. -/
theorem sum_splitShare (ready : Channel → Bool) (x : Int) (d : Channel) :
    (channels.map fun n => splitShare ready x d n).sum = 0 := by
  by_cases h : ready d = true ∧ splitOthers ready d ≠ []
  case neg =>
    rw [List.map_congr_left (g := fun _ => 0) fun n _ => splitShare_eq_zero ?_]
    · simp
    · by_cases hd : ready d = true
      · exact .inr (.inr (.inl (by simpa [hd] using h)))
      · exact .inr (.inl (by simpa using hd))
  case pos =>
    obtain ⟨hd, ho⟩ := h
    have hpart : ∀ n : Channel, splitShare ready x d n
        = (if n == d then x else 0) + if ready n && n != d then splitShare ready x d n else 0 := by
      intro n
      by_cases hn : n = d
      · simp [hn, splitShare_drive hd ho]
      · cases hr : ready n with
        | true => simp [hn]
        | false => simp [hn, splitShare_eq_zero (x := x) (d := d) (.inr (.inr (.inr hr)))]
    have hdrive : (channels.map fun n => if n == d then x else 0).sum = x := by
      rw [sum_map_ite_const]
      fin_cases d <;> simp [channels]
    calc (channels.map fun n => splitShare ready x d n).sum
        = (channels.map fun n => (if n == d then x else 0)
            + if ready n && n != d then splitShare ready x d n else 0).sum := by
          rw [List.map_congr_left fun n _ => hpart n]
      _ = x + -x := by rw [List.sum_map_add, hdrive, sum_map_ite, sum_splitOthers hd ho]
      _ = 0 := by omega

/-- No share is larger in magnitude than the shift. -/
theorem natAbs_splitShare_le (ready : Channel → Bool) (x : Int) (d n : Channel) :
    (splitShare ready x d n).natAbs ≤ x.natAbs := by
  by_cases h : x = 0 ∨ ready d = false ∨ splitOthers ready d = [] ∨ ready n = false
  · rw [splitShare_eq_zero h]; simp
  simp only [not_or, Bool.not_eq_false] at h
  obtain ⟨hx, hd, ho, hn⟩ := h
  by_cases hnd : n = d
  · rw [hnd, splitShare_drive hd ho]
  obtain ⟨hlt, hsign⟩ := splitRest_bounds (x := x) ho
  rw [splitShare_other hd (mem_splitOthers.mpr ⟨hn, hnd⟩)]
  have hm : 1 ≤ (splitOthers ready d).length := List.length_pos_iff.mpr ho
  have hq : (splitQuot ready x d).natAbs * (splitOthers ready d).length + (splitRest ready x d).natAbs = x.natAbs := by
    have habs : (splitQuot ready x d).natAbs = x.natAbs / (splitOthers ready d).length := by
      rw [splitQuot, Int.natAbs_tdiv, Int.natAbs_neg, Int.natAbs_natCast]; rfl
    have hrest : (splitRest ready x d).natAbs = x.natAbs % (splitOthers ready d).length := by
      have := Int.mul_tdiv_add_tmod (-x) (splitOthers ready d).length
      have hmod : splitRest ready x d = (-x).tmod (splitOthers ready d).length := by
        rw [splitRest, splitQuot, Int.mul_comm]; omega
      rw [hmod, Int.natAbs_tmod]; simp
    rw [habs, hrest, Nat.mul_comm]
    exact Nat.div_add_mod _ _
  have hle : (splitQuot ready x d).natAbs ≤ (splitQuot ready x d).natAbs * (splitOthers ready d).length :=
    Nat.le_mul_of_pos_right _ hm
  have hunit : (-x).sign.natAbs = 1 := Int.natAbs_sign_of_ne_zero (by omega)
  split
  · have := Int.natAbs_add_le (splitQuot ready x d) (-x).sign
    omega
  · rw [Int.add_zero]; omega

end

/-- Settles O55: the others' ranks are the numbers from 0 on, so that as many of them take a unit as the remainder has. -/
theorem splitSumsToZero : Obligations.SplitSumsToZero := by
  intro ready x d others q r
  have hothers : others = splitOthers ready d := by
    simp only [others, splitOthers, Bool.decide_and, Bool.decide_eq_true, ne_eq, decide_not]; rfl
  have hr : r = splitRest ready x d := by simp [r, q, splitRest, splitQuot, hothers]
  rw [hothers, hr]
  refine ⟨sum_splitShare ready x d, fun n hn => splitShare_eq_zero (.inr (.inr (.inr hn))), natAbs_splitShare_le ready x d,
    fun m hd hm hmd => splitShare_drive hd (List.ne_nil_of_mem (mem_splitOthers.mpr ⟨hm, hmd⟩)), fun h n => ?_,
    fun hd n hn => ?_⟩
  · exact splitShare_eq_zero (h.imp_right (·.imp_right .inl))
  · have hq : q = splitQuot ready x d := by simp [q, splitQuot, hothers]
    rw [splitShare_other hd hn, hq]
    congr 1
    split
    · rcases Int.lt_trichotomy (-x) 0 with h | h | h
      · rw [Int.sign_eq_neg_one_of_neg h, if_neg (by omega)]
      · have : splitRest ready x d = 0 := by simp [splitRest, splitQuot, h]
        simp_all
      · rw [Int.sign_eq_one_of_pos h, if_pos h]
    · rfl

end Sys2Proof.Machine
end

section
/-! PROOFS. The trims stay within their limits (08): what every operation of the Trial Controller and of a boundary does to
the sources of the trims, and to a record that may ask for a step. -/

namespace Sys2Proof.Machine

section

variable {s t : State}

/-! ### The invariant in three parts -/

/-- Every source of a trim target and every applied value lies within its limit. -/
def State.sourcesWithinLimits (s : State) : Prop :=
  s.trim.manual.natAbs ≤ s.cfg.trimLimit
    ∧ (∀ v : Int, s.trim.trialTarget = some v → v.natAbs ≤ s.cfg.trimLimit)
    ∧ s.trim.applied.natAbs ≤ s.cfg.trimLimit
    ∧ s.trim.shiftTarget.natAbs ≤ s.cfg.shareTrimLimit
    ∧ s.trim.shift.natAbs ≤ s.cfg.shareTrimLimit
    ∧ (∀ n : Channel, (s.trim.shares.get n).natAbs ≤ s.cfg.shareTrimLimit)

/-- The record asks for no step beyond the limits of its target, and a pending proposal keeps R44. -/
def State.recordFits (s : State) : Prop :=
  (s.trial.phase = .scheduled → s.stepWithinLimits)
    ∧ (s.trial.phase = .proposing ∨ s.trial.phase = .accepting → s.isMember = false →
        s.trial.params.target ≠ s.station)
    ∧ (∀ i p, s.trial.request = .propose i p → p.valid = true)

/-- A target that is chosen from sources within their limits is within them. -/
theorem natAbs_target_le (hchosen : s.targetIsChosen) (h : s.sourcesWithinLimits) :
    s.trim.target.natAbs ≤ s.cfg.trimLimit := by
  obtain ⟨hmanual, htrial, -⟩ := h
  rw [hchosen]
  split
  · simp
  · cases hv : s.trim.trialTarget with
    | none => exact hmanual
    | some v => exact htrial v hv

theorem trimsWithinLimits_iff (s : State) :
    s.trimsWithinLimits ↔ s.targetIsChosen ∧ s.sourcesWithinLimits ∧ s.recordFits := by
  constructor
  · rintro ⟨hc, h1, h2, -, h4, h5, h6, h7, hr⟩
    exact ⟨hc, ⟨h1, h2, h4, h5, h6, h7⟩, hr⟩
  · rintro ⟨hc, hsrc, hr⟩
    have htarget := natAbs_target_le hc hsrc
    obtain ⟨h1, h2, h4, h5, h6, h7⟩ := hsrc
    exact ⟨hc, h1, h2, htarget, h4, h5, h6, h7, hr⟩

/-! ### Trims -/

/-- The target is chosen and its sources are within their limits. -/
def State.trimsBounded (s : State) : Prop := s.targetIsChosen ∧ s.sourcesWithinLimits

theorem cfg_of_config (h : t.config = s.config) : t.cfg = s.cfg := by simp [State.cfg, h]

/-- Trims, break and configuration decide it. -/
theorem trimsBounded_of_trim (hs : s.trimsBounded) (htrim : t.trim = s.trim) (hbrk : t.brk = s.brk)
    (hconfig : t.config = s.config) : t.trimsBounded := by
  unfold State.trimsBounded State.targetIsChosen State.sourcesWithinLimits State.breakInForce at *
  rwa [htrim, hbrk, cfg_of_config hconfig]

/-- Sources within their limits, and a target chosen afresh. -/
theorem trimsBounded_reselect (h : s.sourcesWithinLimits) : s.reselect.trimsBounded := ⟨rfl, h⟩

theorem trimsBounded_setManual (hs : s.trimsBounded) {v : Int} (hv : v.natAbs ≤ s.cfg.trimLimit) :
    (s.setManual v).trimsBounded := by
  obtain ⟨-, -, h⟩ := hs
  exact trimsBounded_reselect ⟨hv, h⟩

theorem trimsBounded_present (hs : s.trimsBounded) {v w : Int} (hv : v.natAbs ≤ s.cfg.trimLimit)
    (hw : w.natAbs ≤ s.cfg.shareTrimLimit) (d : Option Channel) (c : RampClass) : (s.present v w d c).trimsBounded := by
  obtain ⟨-, hmanual, -, happlied, -, h⟩ := hs
  refine trimsBounded_reselect ⟨hmanual, fun u hu => ?_, happlied, hw, h⟩
  simp only at hu
  split at hu
  · cases hu
  · cases hu; exact hv

theorem trimsBounded_enterRecovering (hs : s.trimsBounded) (owed : Nat) (c : Byte) (g : Station) :
    (s.enterRecovering owed c g).trimsBounded :=
  trimsBounded_of_trim (trimsBounded_setManual (v := 0) hs (Nat.zero_le _)) (enterRecovering_trim s owed c g) (by simp)
    (by simp)

theorem trimsBounded_abortTrial (hs : s.trimsBounded) (owed : Nat) (c : Byte) (g : Station) :
    (s.abortTrial owed c g).trimsBounded :=
  trimsBounded_of_trim (trimsBounded_present (v := 0) (w := 0) (trimsBounded_setManual (v := 0) hs (Nat.zero_le _))
    (Nat.zero_le _) (Nat.zero_le _) none .recovery) (abortTrial_trim s owed c g) (by simp) (by simp)

theorem trimsBounded_completeTrial (hs : s.trimsBounded) : s.completeTrial.trimsBounded :=
  trimsBounded_of_trim (trimsBounded_setManual (v := 0) (trimsBounded_present (v := 0) (w := 0) hs (Nat.zero_le _)
    (Nat.zero_le _) none .normal) (Nat.zero_le _)) (completeTrial_trim s) (by simp) (by simp)

theorem trimsBounded_startTrial (hs : s.trimsBounded) (hstep : s.stepWithinLimits) : s.startTrial.trimsBounded := by
  have htrim := startTrial_trim s
  split at htrim
  · next ht =>
    obtain ⟨hdraw, hshare⟩ := hstep ht
    split at htrim
    · next hk => exact trimsBounded_of_trim (trimsBounded_present hs (hdraw hk) (Nat.zero_le _) none .trial) htrim (by simp) (by simp)
    · next hk => exact trimsBounded_of_trim (trimsBounded_present hs (Nat.zero_le _) (hshare hk) _ .trial) htrim (by simp) (by simp)
    · exact trimsBounded_of_trim hs htrim (by simp) (by simp)
    · exact trimsBounded_of_trim hs htrim (by simp) (by simp)
  · exact trimsBounded_of_trim hs htrim (by simp) (by simp)

/-- The ramps and the split of a boundary stay within the limits of their targets. -/
theorem trimsBounded_rampTrims (hs : s.trimsBounded) : s.rampTrims.trimsBounded := by
  have htarget := natAbs_target_le hs.1 hs.2
  obtain ⟨hchosen, hmanual, htrial, happlied, hshiftTarget, hshift, -⟩ := hs
  have hramped : s.rampedShift.natAbs ≤ s.cfg.shareTrimLimit :=
    rampToward_natAbs (by split; exacts [Nat.zero_le _, hshiftTarget]) hshift
  refine ⟨hchosen, hmanual, htrial, rampToward_natAbs htarget happlied, hshiftTarget, hramped, fun n => ?_⟩
  have hsplit := natAbs_splitShare_le s.ready s.rampedShift s.trim.drive n
  show ((Quad.ofFn fun n => splitShare s.ready s.rampedShift s.trim.drive n).get n).natAbs ≤ _
  rw [Quad.get_ofFn]
  exact hsplit.trans hramped

/-! ### The record -/

/-- Record, station and configuration decide whether the record fits. -/
theorem recordFits_of_trial (hs : s.recordFits) (htrial : t.trial = s.trial) (hstation : t.station = s.station)
    (hconfig : t.config = s.config) : t.recordFits := by
  unfold State.recordFits State.stepWithinLimits State.isMember at *
  rwa [htrial, hstation, cfg_of_config hconfig]

/-- A record that is IDLE, RUNNING or RECOVERING asks for nothing. -/
theorem recordFits_of_phase (h : t.trial.phase = .idle ∨ t.trial.phase = .running ∨ t.trial.phase = .recovering)
    (hrequest : ∀ i p, t.trial.request = .propose i p → p.valid = true) : t.recordFits := by
  refine ⟨fun hp => ?_, fun hp => ?_, hrequest⟩
  · rcases h with h | h | h <;> rw [h] at hp <;> cases hp
  · rcases h with h | h | h <;> rw [h] at hp <;> rcases hp with hp | hp <;> cases hp

theorem request_none_fits {r : PendingRequest} (h : r = .none) (i : TrialId) (p : TrialParams) (hq : r = .propose i p) :
    p.valid = true := by rw [h] at hq; cases hq

theorem recordFits_abortTrial (owed : Nat) (c : Byte) (g : Station) : (s.abortTrial owed c g).recordFits :=
  recordFits_of_phase (by simp [abortTrial_trial, enterRecovering_trial])
    (request_none_fits (by simp [abortTrial_trial, enterRecovering_trial]))

theorem recordFits_withdraw (c : Byte) (g : Station) : (s.withdraw c g).recordFits :=
  recordFits_of_phase (by simp [withdraw_trial, enterRecovering_trial])
    (request_none_fits (by simp [withdraw_trial, enterRecovering_trial]))

theorem recordFits_completeTrial : s.completeTrial.recordFits :=
  recordFits_of_phase (by simp [completeTrial_trial]) (request_none_fits (by simp [completeTrial_trial]))

theorem recordFits_dropClaim (r : Reason) : (s.dropClaim r).recordFits :=
  recordFits_of_phase (.inl rfl) (request_none_fits rfl)

theorem recordFits_startTrial (hs : s.recordFits) : s.startTrial.recordFits :=
  recordFits_of_phase (by simp [startTrial_trial]) (by rw [startTrial_trial]; exact hs.2.2)

/-- The target of valid parameters lies in their span. -/
theorem inSpan_target {p : TrialParams} (h : p.valid = true) : p.inSpan p.target = true := by
  simp only [TrialParams.valid, Bool.and_eq_true] at h
  simp only [TrialParams.inSpan, Bool.and_eq_true]
  exact ⟨h.1.1.1.1.1.1.2, h.1.1.1.1.1.2⟩

theorem valid_of_heardClaim {u : Station} {c : TrialId × TrialParams} (h : s.heardClaim u = some c) :
    c.2.valid = true ∧ c.1.proposer = u := by
  unfold State.heardClaim at h
  split at h
  · cases h
  · dsimp only at h
    split at h
    · next hv =>
      cases h
      simp only [Bool.and_eq_true, decide_eq_true_eq] at hv
      exact ⟨hv.1.2, hv.2⟩
    · cases h

theorem valid_of_mem_heardClaims {c : TrialId × TrialParams} (h : c ∈ s.heardClaims) : c.2.valid = true := by
  obtain ⟨u, -, hu⟩ := List.mem_filterMap.mp h
  exact (valid_of_heardClaim hu).1

theorem target_ne_station_of_valid {p : TrialParams} (hv : p.valid = true) {g : Station} (hm : p.inSpan g = false) :
    p.target ≠ g := by
  intro he
  rw [← he, inSpan_target hv] at hm
  cases hm

theorem recordFits_adopt {c : TrialId × TrialParams} (hc : c ∈ s.heardClaims) (u : State) : (u.adopt c).recordFits := by
  refine ⟨fun h => ?_, fun _ hm => target_ne_station_of_valid (valid_of_mem_heardClaims hc) hm, request_none_fits rfl⟩
  simp [State.adopt] at h

theorem recordFits_beginProposal {p : TrialParams} (hv : p.valid = true) (i : TrialId) : (s.beginProposal i p).recordFits := by
  refine ⟨fun h => ?_, fun _ hm => target_ne_station_of_valid hv hm, request_none_fits rfl⟩
  simp [State.beginProposal] at h

/-- A member that is eligible asks for no more than its limits allow. -/
theorem stepWithinLimits_of_eligible {applied : Int} (h : s.ineligible applied = none) : s.stepWithinLimits := by
  have hstep : s.stepUnfit = false := by
    unfold State.ineligible at h
    repeat' split at h
    all_goals first
      | simpa using ‹¬s.stepUnfit = true›
      | simp at h
  intro ht
  simp only [State.stepUnfit, ht, decide_true, Bool.true_and, Bool.or_eq_false_iff, Bool.and_eq_false_imp,
    decide_eq_true_eq, decide_eq_false_iff_not, Nat.not_lt] at hstep
  exact hstep

/-- Outside the span of a PROPOSING or ACCEPTING record the node is not the target. -/
theorem stepWithinLimits_of_not_member (hs : s.recordFits) (hp : s.trial.phase = .proposing ∨ s.trial.phase = .accepting)
    (hm : s.isMember = false) : s.stepWithinLimits := fun ht => absurd ht (hs.2.1 hp hm)

/-- A SCHEDULED record with the same parameters. -/
theorem recordFits_of_scheduled (hphase : t.trial.phase = .scheduled) (hparams : t.trial.params = s.trial.params)
    (hrequest : t.trial.request = s.trial.request) (hstation : t.station = s.station) (hconfig : t.config = s.config)
    (hs : s.recordFits) (hstep : s.stepWithinLimits) : t.recordFits := by
  refine ⟨fun _ => ?_, fun h => ?_, ?_⟩
  · unfold State.stepWithinLimits at *; rwa [hparams, hstation, cfg_of_config hconfig]
  · rw [hphase] at h; rcases h with h | h <;> cases h
  · rw [hrequest]; exact hs.2.2

/-! ### The controller's decisions -/

/-- The two parts that the controller's decisions keep together. -/
def State.controlled (s : State) : Prop := s.trimsBounded ∧ s.recordFits

theorem trimsWithinLimits_iff_controlled (s : State) : s.trimsWithinLimits ↔ s.controlled := by
  rw [trimsWithinLimits_iff, State.controlled, State.trimsBounded, and_assoc]

/-- What leaves the trims, the break, the record, the station and the configuration alone. -/
theorem controlled_of_blocks (hs : s.controlled) (htrim : t.trim = s.trim) (hbrk : t.brk = s.brk)
    (htrial : t.trial = s.trial) (hstation : t.station = s.station) (hconfig : t.config = s.config) : t.controlled :=
  ⟨trimsBounded_of_trim hs.1 htrim hbrk hconfig, recordFits_of_trial hs.2 htrial hstation hconfig⟩

theorem controlled_abortTrial (hs : s.controlled) (owed : Nat) (c : Byte) (g : Station) : (s.abortTrial owed c g).controlled :=
  ⟨trimsBounded_abortTrial hs.1 owed c g, recordFits_abortTrial owed c g⟩

theorem controlled_withdraw (hs : s.controlled) (c : Byte) (g : Station) : (s.withdraw c g).controlled :=
  ⟨trimsBounded_of_trim (trimsBounded_enterRecovering hs.1 3 Reason.withdrawn.code s.station) rfl rfl rfl,
    recordFits_withdraw c g⟩

theorem controlled_dropClaim (hs : s.controlled) (r : Reason) : (s.dropClaim r).controlled :=
  ⟨trimsBounded_of_trim hs.1 rfl rfl rfl, recordFits_dropClaim r⟩

theorem controlled_completeTrial (hs : s.controlled) : s.completeTrial.controlled :=
  ⟨trimsBounded_completeTrial hs.1, recordFits_completeTrial⟩

theorem controlled_startTrial (hs : s.controlled) (hstep : s.stepWithinLimits) : s.startTrial.controlled :=
  ⟨trimsBounded_startTrial hs.1 hstep, recordFits_startTrial hs.2⟩

/-- A claim that a state heard is adopted in one with the same trims. -/
theorem controlled_adopt (hs : s.controlled) {c : TrialId × TrialParams} (hc : c ∈ s.heardClaims) {u : State}
    (htrim : u.trim = s.trim) (hbrk : u.brk = s.brk) (hconfig : u.config = s.config) : (u.adopt c).controlled :=
  ⟨trimsBounded_of_trim hs.1 htrim hbrk hconfig, recordFits_adopt hc u⟩

theorem controlled_adoptHeard (hs : s.controlled) : s.adoptHeard.controlled := by
  unfold State.adoptHeard
  split
  · next c rest hc =>
    split
    · exact controlled_adopt hs (by rw [hc]; exact List.mem_cons_self) rfl rfl rfl
    · exact hs
  · exact hs

theorem controlled_claimBoundary (hs : s.controlled) (i : TrialId) {p : TrialParams} (hp : p.valid = true) :
    (s.claimBoundary i p).controlled := by
  have hempty : ∀ u : State, u.trial = .empty → u.trim = s.trim → u.brk = s.brk → u.config = s.config → u.controlled :=
    fun u h1 h2 h3 h4 => ⟨trimsBounded_of_trim hs.1 h2 h3 h4,
      recordFits_of_phase (.inl (by rw [h1]; rfl)) (request_none_fits (by rw [h1]; rfl))⟩
  unfold State.claimBoundary
  dsimp only
  split
  · next c hc => exact controlled_adopt hs (List.mem_of_find?_eq_some hc) rfl rfl rfl
  · split
    · exact hempty _ rfl rfl rfl rfl
    · split
      · exact hempty _ rfl rfl rfl rfl
      · exact ⟨trimsBounded_of_trim hs.1 rfl rfl rfl, recordFits_beginProposal hp i⟩

theorem controlled_gatherAcceptances (hs : s.controlled) (hp : s.trial.phase = .proposing) (hfit : s.proposerUnfit = none) :
    s.gatherAcceptances.controlled := by
  have hgathered : State.controlled { s with trial := { s.trial with accepted := s.nowAccepted } } := hs
  have hstep : s.stepWithinLimits := by
    cases hm : s.isMember with
    | false => exact stepWithinLimits_of_not_member hs.2 (.inl hp) hm
    | true =>
      simp only [State.proposerUnfit, hm, if_true] at hfit
      exact stepWithinLimits_of_eligible hfit
  unfold State.gatherAcceptances
  dsimp only
  split
  · split
    · exact ⟨trimsBounded_of_trim hs.1 rfl rfl rfl, recordFits_of_scheduled (s := s) rfl rfl rfl rfl rfl hs.2 hstep⟩
    · exact hgathered
  · split
    · exact controlled_withdraw hgathered _ _
    · exact hgathered

theorem mem_of_replacement {c : TrialId × TrialParams} (h : s.replacement = some c) : c ∈ s.heardClaims :=
  List.mem_of_find?_eq_some h

theorem controlled_proposingStep (hs : s.controlled) (hp : s.trial.phase = .proposing) : s.proposingStep.controlled := by
  unfold State.proposingStep
  split
  · exact controlled_withdraw hs _ _
  · split
    · exact controlled_abortTrial hs _ _ _
    · split
      · next c hc => exact controlled_adopt hs (mem_of_replacement hc) rfl rfl rfl
      · split
        · exact controlled_withdraw hs _ _
        · next hfit =>
          repeat' split
          · exact controlled_withdraw hs _ _
          · exact controlled_withdraw hs _ _
          · exact controlled_gatherAcceptances hs hp hfit

/-- A GO is scheduled, or started at once, only where the step lies within the limits of its target. -/
theorem controlled_takeGo (hs : s.controlled) (hp : s.trial.phase = .accepting) (start : BitVec 8) :
    (s.takeGo start).controlled := by
  have hsched : s.stepWithinLimits → (s.scheduledFor start).controlled := fun hstep =>
    ⟨trimsBounded_of_trim hs.1 rfl rfl rfl,
      recordFits_of_scheduled (s := s) (t := s.scheduledFor start) rfl rfl rfl rfl rfl hs.2 hstep⟩
  have habort : ∀ r : Reason, ((s.scheduledFor start).abortOwn r).controlled := fun r =>
    ⟨trimsBounded_abortTrial (s := s.scheduledFor start) (trimsBounded_of_trim hs.1 rfl rfl rfl) _ _ _,
      recordFits_abortTrial _ _ _⟩
  have hfit : (s.isMember = true → ¬s.unreadyFor start) → s.stepWithinLimits := by
    intro hready
    cases hm : s.isMember with
    | false => exact stepWithinLimits_of_not_member hs.2 (.inr hp) hm
    | true =>
      simp only [State.unreadyFor, not_or, Bool.not_eq_true, Option.isSome_eq_false_iff, Option.isNone_iff_eq_none] at hready
      exact stepWithinLimits_of_eligible (hready hm).1
  rcases takeGo_cases s start with ⟨-, e⟩ | ⟨-, -, -, e⟩ | ⟨-, hready, ⟨-, ⟨r, -, e⟩ | ⟨-, e⟩⟩ | ⟨-, e⟩⟩
  all_goals rw [e]
  · exact habort _
  · exact habort _
  · exact habort _
  · exact controlled_startTrial (hsched (hfit hready)) (hfit hready)
  · exact hsched (hfit hready)

theorem controlled_acceptingStep (hs : s.controlled) (hp : s.trial.phase = .accepting) : s.acceptingStep.controlled := by
  unfold State.acceptingStep State.acceptingGoes
  split
  · exact controlled_dropClaim hs _
  · split
    · exact controlled_abortTrial hs _ _ _
    · split
      · exact controlled_dropClaim hs _
      · split
        · exact controlled_takeGo hs hp _
        · split
          · split
            · exact controlled_abortTrial hs _ _ _
            · exact controlled_dropClaim hs _
          · split
            · next c hc => exact controlled_adopt hs (mem_of_replacement hc) rfl rfl rfl
            · split
              · exact controlled_dropClaim hs _
              · exact hs

theorem controlled_guarded (hs : s.controlled) {go : State → State} (hgo : (go s.refreshReady).controlled) :
    (s.guarded go).controlled := by
  unfold State.guarded
  split
  · exact controlled_abortTrial hs _ _ _
  · split
    · exact controlled_abortTrial (s := s.refreshReady) hs _ _ _
    · exact hgo

theorem controlled_awaitStart (hs : s.controlled) (hp : s.trial.phase = .scheduled) : s.awaitStart.controlled := by
  unfold State.awaitStart
  split
  · exact controlled_startTrial hs (hs.2.1 hp)
  · exact hs

theorem controlled_countDown (hs : s.controlled) (hp : s.trial.phase = .running) : s.countDown.controlled := by
  have hrun : (if s.isMember then s.appendRun s.trial.id else s).controlled
      ∧ (if s.isMember then s.appendRun s.trial.id else s).trial.phase = .running := by
    split
    · exact ⟨controlled_of_blocks hs (by simp [State.appendRun]) (by simp [State.appendRun]) (by simp [State.appendRun])
        (by simp [State.appendRun]) (by simp [State.appendRun]), by simpa [State.appendRun] using hp⟩
    · exact ⟨hs, hp⟩
  have hcounted : ∀ u : State, u.controlled → u.trial.phase = .running → ∀ k : Nat,
      State.controlled { u with trial := { u.trial with remaining := k } } :=
    fun u hu hpu k => ⟨trimsBounded_of_trim hu.1 rfl rfl rfl, recordFits_of_phase (.inr (.inl hpu)) hu.2.2.2⟩
  unfold State.countDown
  dsimp only
  split
  · exact controlled_completeTrial (hcounted _ hrun.1 hrun.2 _)
  · exact hcounted _ hrun.1 hrun.2 _

theorem controlled_idleStep (hs : s.controlled) : s.idleStep.controlled := by
  unfold State.idleStep
  split
  · next i p hq => exact controlled_claimBoundary hs i (hs.2.2.2 i p hq)
  · exact controlled_adoptHeard hs
  · exact controlled_adoptHeard hs

theorem controlled_decidePhase (hs : s.controlled) : s.decidePhase.controlled := by
  unfold State.decidePhase
  split
  case h_1 => exact controlled_idleStep hs
  case h_2 hp => exact controlled_proposingStep hs hp
  case h_3 hp => exact controlled_acceptingStep hs hp
  case h_4 hp => exact controlled_guarded hs (controlled_awaitStart (s := s.refreshReady) hs hp)
  case h_5 hp => exact controlled_guarded hs (controlled_countDown (s := s.refreshReady) hs hp)
  case h_6 => exact hs

theorem controlled_atDecision (hs : s.controlled) : s.atDecision.controlled := by
  have hclose : s.closeLink.controlled := by
    unfold State.closeLink
    split
    · exact controlled_of_blocks (s := { s with trial := { s.trial with linkCloseOwed := false } }) hs
        (by simp [State.appendClose]) (by simp [State.appendClose]) (by simp [State.appendClose])
        (by simp [State.appendClose]) (by simp [State.appendClose])
    · exact hs
  have hcount : ∀ u : State, u.controlled → u.countBoundaries.controlled := by
    intro u hu
    unfold State.countBoundaries
    split
    · exact hu
    · exact hu
  exact hcount _ hclose

theorem controlled_testIdle (hs : s.controlled) (was : Bool) : (s.testIdle was).controlled := by
  unfold State.testIdle
  split
  · exact controlled_adoptHeard ⟨trimsBounded_of_trim hs.1 rfl rfl rfl,
      recordFits_of_phase (.inl rfl) (request_none_fits rfl)⟩
  · exact hs

/-! ### A boundary, a conflict, the effects -/

theorem controlled_takeBoundary (hs : s.controlled) (k : BoundaryKind) (n : BitVec 8) : (s.takeBoundary k n).controlled := by
  have hsampled : (s.sampled k n).controlled :=
    controlled_of_blocks hs (by simp) (by simp) (by simp) (by simp) (by simp)
  have hdecided : (s.sampled k n).decide.controlled := controlled_decidePhase (controlled_atDecision hsampled)
  have hramped : (s.sampled k n).decide.rampTrims.controlled :=
    ⟨trimsBounded_rampTrims hdecided.1, recordFits_of_trial hdecided.2 (by simp) (by simp) (by simp)⟩
  have hended := controlled_testIdle hramped (decide ((s.sampled k n).trial.phase = .recovering))
  have hbuilt : (((s.sampled k n).trialAndTrims.enterOwnEntry s.link.state).endLeave).controlled :=
    controlled_of_blocks hended (by simp [State.trialAndTrims]) (by simp [State.trialAndTrims])
      (by simp [State.trialAndTrims]) (by simp [State.trialAndTrims]) (by simp [State.trialAndTrims])
  exact ⟨trimsBounded_reselect hbuilt.1.2, recordFits_of_trial hbuilt.2 rfl rfl rfl⟩

theorem conflict_trim (s : State) : s.conflict.trim = ((s.conflictTrial.setManual 0).present 0 0 none .recovery).trim := by
  simp [State.conflict]

theorem controlled_conflictTrial (hs : s.controlled) : s.conflictTrial.controlled := by
  have hended : ∀ u : State, u.trimsBounded → ∀ (i : TrialId) (c : Byte) (g : Station),
      ((u.enterRecovering 0 c g).writeOutcome .aborted i c g).controlled := fun u hu i c g =>
    ⟨trimsBounded_of_trim (trimsBounded_enterRecovering hu 0 c g) rfl rfl rfl,
      recordFits_of_phase (.inr (.inr rfl)) (request_none_fits rfl)⟩
  unfold State.conflictTrial
  split
  · next i p _ _ =>
    exact hended { s with trial := { TrialRecord.empty with id := i, params := p } }
      (trimsBounded_of_trim hs.1 rfl rfl rfl) i _ _
  · split
    · exact hended { s with trial := { s.trial with linkCloseOwed := s.isMember && s.underWay } }
        (trimsBounded_of_trim hs.1 rfl rfl rfl) s.trial.id _ _
    · exact hs

theorem controlled_conflict (hs : s.controlled) : s.conflict.controlled := by
  have h := controlled_conflictTrial hs
  exact ⟨trimsBounded_of_trim (trimsBounded_present (v := 0) (w := 0) (trimsBounded_setManual (v := 0) h.1 (Nat.zero_le _))
      (Nat.zero_le _) (Nat.zero_le _) none .recovery) (conflict_trim s) (by simp) (by simp),
    recordFits_of_trial h.2 (conflict_trial s) (by simp) (by simp)⟩

theorem controlled_lineWork (hs : s.controlled) (h : LineWork s t) : t.controlled :=
  controlled_of_blocks hs h.trim h.brk h.trial h.station h.config

theorem controlled_frameOutcome (hs : s.controlled) (h : FrameOutcome s t) : t.controlled := by
  cases h with
  | work h => exact controlled_lineWork hs h
  | conflict h => exact controlled_conflict (controlled_lineWork hs h)
  | deliver h k bytes hother =>
    exact controlled_of_blocks (controlled_lineWork hs h) (by simp) (by simp) (by simp) (by simp) (by simp)

theorem controlled_completeCharacter (hs : s.controlled) (c : CharBits) : (s.completeCharacter c).controlled := by
  rcases completeCharacter_cases s c with e | ⟨k, n, hb, e⟩ | ⟨r, sent, -, -, e⟩ | ⟨l, st, -, -, hnone, e⟩
  all_goals rw [e]
  · exact hs
  · exact controlled_takeBoundary (controlled_of_blocks hs (by simp) (by simp) (by simp) (by simp) (by simp)) k n
  · refine ⟨trimsBounded_of_trim hs.1 (by simp) (by simp) (by simp), ?_⟩
    unfold State.ownCharacter State.ownFrameDone
    dsimp only
    (repeat' split) <;> exact hs.2
  · exact controlled_frameOutcome (s := { s with line := l }) hs
      (FrameOutcome.received ((receivedBoundary_congr rfl rfl rfl).trans hnone))

/-- Without a configuration record every limit is 0, and what a new one allows is no less. -/
theorem controlled_acceptConfig (hs : s.controlled) (hf : s.followsLink) (hu : s.link.state = .unconfigured)
    (c : ConfigRecord) : (s.acceptConfig c).controlled := by
  have hnone : s.config = none := hf.2.2.2.1.1.mp hu
  have hcfg : s.cfg = ConfigRecord.zero := by simp [State.cfg, hnone]
  have hzero : ∀ {x L : Nat}, x ≤ 0 → x ≤ L := fun h => h.trans (Nat.zero_le _)
  obtain ⟨⟨hchosen, h1, h2, h3, h4, h5, h6⟩, -, -, hrequest⟩ := hs
  rw [hcfg] at h1 h2 h3 h4 h5 h6
  refine ⟨⟨hchosen, hzero h1, fun v hv => hzero (h2 v hv), hzero h3, hzero h4, hzero h5, fun n => hzero (h6 n)⟩, ?_⟩
  refine recordFits_of_phase ?_ hrequest
  rcases hf.2.2.1.1 (by rw [hu]; simp) with ⟨h, -⟩ | h
  · exact .inl h
  · exact .inr (.inr h)

theorem controlled_abortTrialWork (hs : s.controlled) (p : List Byte) : (abortTrialWork p s).1.controlled := by
  have hrequest : ∀ r : TrialRecord, r.phase = s.trial.phase → r.params = s.trial.params →
      (∀ i p, r.request = .propose i p → p.valid = true) → State.controlled { s with trial := r } := by
    intro r h1 h2 h3
    refine ⟨trimsBounded_of_trim hs.1 rfl rfl rfl, ⟨?_, ?_, h3⟩⟩
    · unfold State.stepWithinLimits; simp only [h1, h2]; exact hs.2.1
    · unfold State.isMember; simp only [h1, h2]; exact hs.2.2.1
  have habort : ∀ (i : TrialId) (p : TrialParams), PendingRequest.abort = .propose i p → p.valid = true :=
    fun _ _ h => by cases h
  unfold abortTrialWork
  repeat' split
  · exact hrequest { s.trial with request := .none } rfl rfl (request_none_fits rfl)
  · exact hs
  · exact hs
  · exact hrequest { s.trial with request := .abort } rfl rfl habort
  · exact hrequest { s.trial with refusing := true } rfl rfl hs.2.2.2
  · exact hrequest { s.trial with request := .abort } rfl rfl habort
  · exact hrequest { s.trial with request := .abort } rfl rfl habort
  · exact hrequest { s.trial with request := .abort } rfl rfl habort
  · exact hs

theorem controlled_reset (htrim : t.trim = .reset) (htrial : t.trial = .empty)
    (hbrk : t.brk = { latch := false, mark := false }) : t.controlled := by
  refine ⟨⟨?_, ?_⟩, recordFits_of_phase (.inl (by rw [htrial]; rfl)) (request_none_fits (by rw [htrial]; rfl))⟩
  · rw [State.targetIsChosen, State.breakInForce, htrim, hbrk]; rfl
  · rw [State.sourcesWithinLimits, htrim]
    refine ⟨Nat.zero_le _, fun v hv => (by cases hv), Nat.zero_le _, Nat.zero_le _, Nat.zero_le _, fun n => ?_⟩
    simp [Trim.reset]

theorem controlled_work (hs : s.controlled) (hf : s.followsLink) (q : Request) (straps : BitVec 4) (p : List Byte)
    (h : s.takes q p) : (q.work straps p s).1.controlled := by
  have havail : q.availableIn s.link.state = true := h.2.2.2.2
  cases q with
  | nop | readStatus | readEvents | setEventMask | readLinkErrors | clearLinkErrors | readTrial | readRoster | readCheck
  | join => exact hs
  | readLog => simp only [Request.work, readLogWork]; split <;> exact hs
  | configure =>
    simp only [Request.work, configureWork]
    split
    · exact hs
    · exact controlled_acceptConfig hs hf (by simpa [Request.availableIn] using havail) _
  | leave =>
    simp only [Request.work, leaveWork]
    (repeat' split) <;> exact controlled_of_blocks hs (by simp) (by simp) (by simp) (by simp) (by simp)
  | proposeTrial =>
    simp only [Request.work, proposeTrialWork]
    repeat' split
    · exact hs
    · exact hs
    · exact hs
    · next hv _ =>
      refine ⟨hs.1, hs.2.1, hs.2.2.1, fun i u hq => ?_⟩
      cases hq
      simpa using hv
  | abortTrial => exact controlled_abortTrialWork hs p
  | manualTrim =>
    simp only [Request.work, manualTrimWork]
    repeat' split
    · exact hs
    · exact hs
    · exact hs
    · next hlimit =>
      exact ⟨trimsBounded_setManual hs.1 (Nat.not_lt.mp hlimit), recordFits_of_trial hs.2 rfl rfl rfl⟩
  | snap =>
    simp only [Request.work, snapWork]
    (repeat' split) <;> exact controlled_of_blocks hs (by simp) (by simp) (by simp) (by simp) (by simp)
  | flushLog => simp only [Request.work, flushLogWork]; split <;> exact hs
  | revCheck => simp only [Request.work, revCheckWork]; (repeat' split) <;> exact hs
  | cancelCheck => simp only [Request.work, cancelCheckWork]; split <;> exact hs
  | clearFaults =>
    have hkeeps : ∀ {β : Type} (f : State → β), (∀ t n, f (State.releaseChannel t n) = f t) →
        f (clearFaultsWork p s).1 = f s := fun f hf => foldl_keeps _ f hf _ _
    exact controlled_of_blocks hs (hkeeps (·.trim) (by simp)) (hkeeps (·.brk) (by simp)) (hkeeps (·.trial) (by simp))
      (hkeeps (·.station) (by simp)) (hkeeps (·.config) (by simp))
  | clearBreak =>
    simp only [Request.work, clearBreakWork]
    split
    · exact hs
    · exact ⟨trimsBounded_reselect hs.1.2, recordFits_of_trial hs.2 rfl rfl rfl⟩
  | softReset => exact controlled_reset rfl rfl rfl

theorem controlled_changeBrk (hs : s.controlled) : s.changeBrk.controlled := by
  unfold State.changeBrk State.latchBreak
  dsimp only
  repeat' split
  · exact ⟨trimsBounded_reselect hs.1.2, recordFits_of_trial hs.2 rfl rfl rfl⟩
  · obtain ⟨-, -, hsources⟩ := hs.1
    exact ⟨⟨rfl, Nat.zero_le _, hsources⟩, recordFits_of_trial hs.2 rfl rfl rfl⟩
  · exact hs

theorem controlled_effect (hs : s.controlled) (hf : s.followsLink) (h : Effect s t) : t.controlled := by
  cases h with
  | hold | endReset => exact controlled_reset rfl rfl rfl
  | request q straps p h => exact controlled_work hs hf q straps p h
  | selRises bits =>
    refine controlled_of_blocks hs ?_ ?_ ?_ ?_ ?_
    all_goals
      unfold State.selRises
      dsimp only
      (repeat' split) <;> simp
  | character c => exact controlled_completeCharacter hs c
  | conflict => exact controlled_conflict hs
  | standbyLocal =>
    rcases standbyLocal_cases s with e | ⟨-, e⟩ <;> rw [e]
    · exact hs
    · exact controlled_takeBoundary hs _ _
  | listeningLocal =>
    rcases listeningLocal_cases s with e | ⟨-, e⟩ <;> rw [e]
    · exact hs
    · exact controlled_takeBoundary hs _ _
  | changeBrk => exact controlled_changeBrk hs
  | _ => exact controlled_of_blocks hs (by simp) (by simp) (by simp) (by simp) (by simp)

end

/-- Settles O59: the trims come within their limits from the sources that the controller presents, a SCHEDULED record being
within the limits of its target from its acceptance or its GO on; CONFIGURE finds every trim at 0. -/
theorem trimsStayWithinLimits : Obligations.TrimsStayWithinLimits := by
  intro s t hf hs h
  have hkept : t.followsLink ∧ t.controlled :=
    step_keeps (P := fun s => s.followsLink ∧ s.controlled) (fun _ _ h => h)
      (fun _ d h => ⟨followsLink_advance h.1 d,
        controlled_of_blocks h.2 (by simp) (by simp) (by simp) (by simp) (by simp)⟩)
      (fun _ _ h he => ⟨followsLink_effect h.1 he, controlled_effect h.2 h.1 he⟩)
      ⟨hf, (trimsWithinLimits_iff_controlled s).mp hs⟩ h
  exact (trimsWithinLimits_iff_controlled t).mpr hkept.2

/-- Settles O60: every block has its reset value, and the log is empty. -/
theorem invariantsHoldAfterReset : Obligations.InvariantsHoldAfterReset :=
  ⟨⟨Nat.zero_le _, rfl, Nat.zero_le _⟩, followsLink_of_reset rfl rfl rfl rfl rfl rfl rfl rfl,
    (trimsWithinLimits_iff_controlled _).mpr (controlled_reset rfl rfl rfl)⟩

end Sys2Proof.Machine
end

section
/-! PROOFS. Commands in general (00): each lets its time pass, answers a next state and leaves the queue alone. -/

namespace Sys2Proof.Machine

section

variable {s t : State}

/-- The work of a request takes no time and leaves the queue alone. -/
theorem work_now_pending (q : Request) (straps : BitVec 4) (p : List Byte) (s : State) :
    (q.work straps p s).1.now = s.now ∧ (q.work straps p s).1.pending = s.pending := by
  cases q with
  | nop | readStatus | readEvents | setEventMask | readLinkErrors | clearLinkErrors | readTrial | readRoster | readCheck
  | join | softReset => exact ⟨rfl, rfl⟩
  | readLog => simp only [Request.work, readLogWork]; split <;> exact ⟨rfl, rfl⟩
  | configure => simp only [Request.work, configureWork]; split <;> exact ⟨rfl, rfl⟩
  | leave => simp only [Request.work, leaveWork]; (repeat' split) <;> simp
  | proposeTrial => simp only [Request.work, proposeTrialWork]; (repeat' split) <;> exact ⟨rfl, rfl⟩
  | abortTrial => simp only [Request.work, abortTrialWork]; (repeat' split) <;> exact ⟨rfl, rfl⟩
  | manualTrim => simp only [Request.work, manualTrimWork]; (repeat' split) <;> exact ⟨rfl, rfl⟩
  | snap => simp only [Request.work, snapWork]; (repeat' split) <;> simp
  | flushLog => simp only [Request.work, flushLogWork]; split <;> exact ⟨rfl, rfl⟩
  | revCheck => simp only [Request.work, revCheckWork]; (repeat' split) <;> exact ⟨rfl, rfl⟩
  | cancelCheck => simp only [Request.work, cancelCheckWork]; split <;> exact ⟨rfl, rfl⟩
  | clearFaults => exact ⟨foldl_keeps _ (·.now) (by simp) _ _, foldl_keeps _ (·.pending) (by simp) _ _⟩
  | clearBreak => simp only [Request.work, clearBreakWork]; split <;> exact ⟨rfl, rfl⟩

/-- No effect takes time or touches the queue. -/
theorem effect_now_pending (h : Effect s t) : t.now = s.now ∧ t.pending = s.pending := by
  cases h with
  | hold | endReset => exact ⟨rfl, rfl⟩
  | selRises bits =>
    unfold State.selRises
    dsimp only
    (repeat' split) <;> simp
  | request q straps p => exact work_now_pending q straps p s
  | _ => exact ⟨by simp, by simp⟩

end

/-- Settles O3: the effect of a command takes no time of its own. -/
theorem everyCommandAnswersNext : Obligations.EveryCommandAnswersNext := by
  intro c s
  obtain ⟨t, ht, heffect⟩ := exec_effect c s
  obtain ⟨hnow, hpending⟩ := effect_now_pending heffect
  exact ⟨t, ht, by simpa using hnow, by simpa using hpending⟩

/-- Settles O1: a step runs what it takes. -/
theorem stepRunsTheFrontCommand : Obligations.StepRunsTheFrontCommand := by
  intro c rest s h
  simp only [step, h]

end Sys2Proof.Machine
end

section
/-! PROOFS. The resets (11): what a reset holds the node at, what its end starts, and what SOFT_RESET keeps. -/

namespace Sys2Proof.Machine

section

variable {s : State}

/-! ### A node that is held -/

theorem holdReset_holdReset (s : State) : s.holdReset.holdReset = s.holdReset := rfl

/-- A held node is neither due for anything nor in execution. -/
theorem not_due_of_held (h : s.running = false) :
    s.readoutOpen = false ∧ s.unknownExecuting = false ∧ (∀ q : Byte, s.executing q = false)
      ∧ s.characterDue = false ∧ s.sampledDue = false ∧ s.windowDue = false ∧ s.originationDue = false
      ∧ s.standbyDue = false ∧ s.listeningDue = false ∧ s.ownSlotDue = false ∧ s.slotCloseDue = false := by
  simp [State.readoutOpen, State.unknownExecuting, State.executing, State.characterDue, State.sampledDue, State.windowDue,
    State.originationDue, State.standbyDue, State.listeningDue, State.ownSlotDue, State.slotCloseDue, h]

theorem not_due_of_held_inputs (h : s.running = false) :
    (∀ f, s.flipDue f = false) ∧ s.sampleDue = false ∧ (∀ n, s.stallDue n = false) ∧ s.indexTimeoutDue = false
      ∧ s.pwmPeriodDue = false ∧ (∀ o, s.highTimeDue o = false) ∧ (∀ l n b, s.edgeDue l n b = false) := by
  refine ⟨fun f => ?_, ?_, fun n => ?_, ?_, ?_, fun o => ?_, fun l n b => ?_⟩
  · simp [State.flipDue, h]
  · simp [State.sampleDue, h]
  · simp [State.stallDue, h]
  · simp [State.indexTimeoutDue, h]
  · simp [State.pwmPeriodDue, h]
  · cases o <;> simp [State.highTimeDue, h]
  · simp [State.edgeDue, h]

/-- A held node takes no boundary event, so no row comes about at one. -/
theorem boundaryEvent_of_held (h : s.running = false) (b : BoundaryEvent) : s.boundaryEvent b = s := by
  obtain ⟨-, -, -, hc, hs, -, -, hst, hl, -, -⟩ := not_due_of_held h
  cases b with
  | standbyLocal => simp [State.boundaryEvent, State.standbyLocal, hst]
  | listeningLocal => simp [State.boundaryEvent, State.listeningLocal, hl]
  | character c => simp [State.boundaryEvent, State.completeCharacter, hc, hs]

theorem whenComesAbout_of_held (h : s.running = false) (b : BoundaryEvent) (row : State → State → Bool) :
    s.whenComesAbout b row = s := by
  rw [State.whenComesAbout, boundaryEvent_of_held h, ite_self]

/-- The request of no command is in execution at a held node. -/
theorem exec_requestCommand_of_held (h : s.running = false) (q : Request) (after : Wait) (straps : BitVec 4) :
    exec (q.command after straps) s = .next (s.advance after) := by
  have hheld : (s.advance after).running = false := by rw [advance_running, h]
  rw [exec_requestCommand, command_next, execution_of_not_executing _ ((not_due_of_held hheld).2.2.1 _)]

/-- A held node lets the time of every command pass but of the supply's, the RESET pin's and SSEL's. -/
theorem exec_of_held (h : s.running = false) {c : Instr} (hc : takenInReset c = false) :
    exec c s = .next (s.advance c.after) := by
  have hheld : (s.advance c.after).running = false := by rw [advance_running, h]
  obtain ⟨hread, hunknown, -, hchar, hsampled, hwindow, horig, hstandby, hlistening, hslot, hclose⟩ := not_due_of_held hheld
  obtain ⟨hflip, hsample, hstall, hindex, hpwm, hhigh, hedge⟩ := not_due_of_held_inputs hheld
  have hif : ∀ {due : Bool} (t : State), due = false → Host.Outcome.next (φ := Fault) (ρ := Refusal)
      (if due then t else s.advance c.after) = .next (s.advance c.after) := fun t hd => by simp [hd]
  have hrow : ∀ (b : BoundaryEvent) (row : State → State → Bool), Host.Outcome.next (φ := Fault) (ρ := Refusal)
      ((s.advance c.after).whenComesAbout b row) = .next (s.advance c.after) :=
    fun b row => by rw [whenComesAbout_of_held hheld]
  cases c with
  | powerOnReset | powerOnResetEnd | resetPinAssert | resetPinRelease | powerLoss | transactionStart | transactionEnd =>
    cases hc
  | readLogReadoutComplete => exact hif _ hread
  | unknownRequest => exact hif _ hunknown
  | nop after => exact exec_requestCommand_of_held h .nop after 0
  | readStatus after straps => exact exec_requestCommand_of_held h .readStatus after straps
  | readEvents after => exact exec_requestCommand_of_held h .readEvents after 0
  | setEventMask after => exact exec_requestCommand_of_held h .setEventMask after 0
  | readLinkErrors after => exact exec_requestCommand_of_held h .readLinkErrors after 0
  | clearLinkErrors after => exact exec_requestCommand_of_held h .clearLinkErrors after 0
  | readLog after => exact exec_requestCommand_of_held h .readLog after 0
  | readTrial after => exact exec_requestCommand_of_held h .readTrial after 0
  | readRoster after => exact exec_requestCommand_of_held h .readRoster after 0
  | configure after => exact exec_requestCommand_of_held h .configure after 0
  | join after => exact exec_requestCommand_of_held h .join after 0
  | leave after => exact exec_requestCommand_of_held h .leave after 0
  | proposeTrial after => exact exec_requestCommand_of_held h .proposeTrial after 0
  | abortTrial after => exact exec_requestCommand_of_held h .abortTrial after 0
  | manualTrim after => exact exec_requestCommand_of_held h .manualTrim after 0
  | snap after => exact exec_requestCommand_of_held h .snap after 0
  | flushLog after => exact exec_requestCommand_of_held h .flushLog after 0
  | revCheck after => exact exec_requestCommand_of_held h .revCheck after 0
  | cancelCheck after => exact exec_requestCommand_of_held h .cancelCheck after 0
  | readCheck after => exact exec_requestCommand_of_held h .readCheck after 0
  | clearFaults after => exact exec_requestCommand_of_held h .clearFaults after 0
  | clearBreak after => exact exec_requestCommand_of_held h .clearBreak after 0
  | softReset after => exact exec_requestCommand_of_held h .softReset after 0
  | characterStart => exact hif _ (by simp [h])
  | characterComplete after c =>
    exact congrArg Host.Outcome.next (boundaryEvent_of_held hheld (.character c))
  | readbackMismatch => exact hif _ hheld
  | markWindowOpen => exact hif _ hwindow
  | origination => exact hif _ horig
  | standbyLocalBoundary => exact hif _ hstandby
  | listeningLocalBoundary => exact hif _ hlistening
  | ownSlotOpen => exact hif _ hslot
  | slotWindowClose => exact hif _ hclose
  | speedEdge | loadEdge | indexEdge => exact hif _ (hedge _ _ _)
  | rdyChange | fltChange => exact hif _ (Bool.and_eq_false_iff.mpr (.inr (hflip _)))
  | brkChange => exact hif _ (hflip _)
  | stall _ n => exact hif _ (hstall n)
  | indexTimeout => exact hif _ hindex
  | pwmPeriodStart => exact hif _ hpwm
  | pwmHighTimeEnd _ o => exact hif _ (hhigh o)
  | slip | shareAlarm | shareAlarmClear | entrySilent | entryAgedOut | listenTimeout | joinQualified | leaveComplete
  | drawAlarm | drawAlarmClear | claimBoundary | claimLapsed | noQuorum | trialStart | trialCompleted | recoveryDone =>
    exact hrow _ _
  | fastFilterFallingEdge => exact hif _ (hedge _ _ _)
  | slowFilterSample => exact hif _ hsample

end

/-- Settles O4: what holds the node puts every block at its reset value, where nothing is due. -/
theorem hardwareResetHoldsTheNode : Obligations.HardwareResetHoldsTheNode := by
  refine ⟨fun after s => ?_, fun after s hpin => ?_, fun after s => ?_, fun s => ?_, fun c s h hc => exec_of_held h hc⟩
  · exact ⟨_, rfl, rfl, rfl, rfl, by simp [State.running, State.holdReset, State.resetBlocks]⟩
  · refine ⟨State.holdReset { s.advance after with power := { (s.advance after).power with resetPin := true } }, ?_, ?_,
      rfl, by simp [State.running, State.holdReset, State.resetBlocks]⟩
    · exact congrArg Host.Outcome.next (if_neg (by simp [hpin]))
    · simp [State.holdReset, State.resetBlocks]
  · exact ⟨_, rfl, rfl, rfl, by simp [State.running, State.holdReset, State.resetBlocks]⟩
  · refine ⟨rfl, rfl, rfl, rfl, rfl, rfl, rfl, fun h => ?_⟩
    have hheld : s.holdReset.running = false := h
    rw [State.alertLow, hheld, Bool.false_and]

/-- The end of a hardware reset that leaves nothing holding the node. -/
theorem maybeEndReset_of_running {s : State} (straps : BitVec 4) (h : s.running = true) :
    s.maybeEndReset straps = s.endReset straps := if_pos h

/-- Settles O5: the supply's reset and the pin's both end where nothing holds the node any more. -/
theorem hardwareResetEnds : Obligations.HardwareResetEnds := by
  rintro after straps c s (⟨hpower, rfl⟩ | ⟨hpower, rfl⟩)
  all_goals
    have hport := advance_raised s after (raised_self s)
    refine ⟨State.endReset { s.advance after with power := { supplied := true, por := false, resetPin := false } } straps, ?_, rfl,
      rfl, rfl, rfl, rfl, rfl, rfl, rfl, rfl, rfl, rfl, rfl, rfl, rfl, rfl, rfl, rfl, rfl, rfl, rfl, rfl, rfl, ?_⟩
  · show command after _ s = _
    rw [command_next, if_pos (by simp [hpower])]
    simp only [advance_power, hpower]
    rw [maybeEndReset_of_running _ rfl]
  · simp [State.endReset, State.holdReset, Port.reset, hport.sselLow]
  · show command after _ s = _
    rw [command_next, if_pos (by simp [hpower])]
    simp only [advance_power, hpower]
    rw [maybeEndReset_of_running _ rfl]
  · simp [State.endReset, State.holdReset, Port.reset, hport.sselLow]

/-- Settles O6: SOFT_RESET's own work, on the state at its arrival. -/
theorem softResetKeepsFourThings : Obligations.SoftResetKeepsFourThings := by
  intro after p s h
  have hport := advance_raised s after (raised_self s)
  refine ⟨_, exec_requestCommand_of_takes (q := .softReset) after 0 h, ?_⟩
  simp [Request.work, softResetWork, State.answer, State.resetBlocks, State.alertLow, hport.txn, Log.reset]

/-- Settles O7: the state after power-on reset is the one that the model writes down. -/
theorem stateAfterPowerOnReset : Obligations.StateAfterPowerOnReset := by
  refine ⟨rfl, rfl, rfl, rfl, rfl, rfl, rfl, rfl, rfl, fun t => entry_replicate_cleared t, rfl, rfl, rfl,
    fun n => ⟨Quad.get_all _ n, Quad.get_all _ n⟩, rfl, rfl, rfl, rfl, rfl, rfl, rfl, rfl, rfl, rfl, rfl, by decide, rfl⟩

end Sys2Proof.Machine
end

section
/-! PROOFS. Link errors, and the passing of time (00, 01): the flag that a link error sets, the slot of a start edge, and what
a wait does to a frame attempt whose window has closed. -/

namespace Sys2Proof.Machine

section

variable {s : State}

/-! ### Link error flags (R21) -/

theorem linkError_line (s : State) (e : LinkError) :
    (s.linkError e).line = { s.line with errors := s.line.errors ||| e.flag } := by
  simp [State.linkError]

@[simp] theorem linkError_hasLinkError (s : State) (e : LinkError) : (s.linkError e).hasLinkError e = true := by
  have h : e.bit < 8 := by cases e <;> decide
  simp [State.hasLinkError, linkError_line, LinkError.flag, h]

/-- A flag that was set stays set. -/
theorem linkError_hasLinkError_of (e : LinkError) {f : LinkError} (h : s.hasLinkError f = true) :
    (s.linkError e).hasLinkError f = true := by
  simp only [State.hasLinkError] at h
  simp [State.hasLinkError, linkError_line, h]

/-- The event LINK_ERROR is raised when the flag was clear. -/
theorem linkError_hasEvent {e : LinkError} (h : s.hasLinkError e = false) : (s.linkError e).hasEvent .linkError = true := by
  simp [State.linkError, State.raiseIf, h]

/-- What a link error's cause does: the flag is set, and LINK_ERROR when it was clear. -/
theorem linkError_sets (s : State) (e : LinkError) :
    (s.linkError e).hasLinkError e = true ∧ (s.hasLinkError e = false → (s.linkError e).hasEvent .linkError = true) :=
  ⟨linkError_hasLinkError s e, linkError_hasEvent⟩

theorem linkErrorIf_true (s : State) (e : LinkError) : s.linkErrorIf true e = s.linkError e := rfl
theorem linkErrorIf_false (s : State) (e : LinkError) : s.linkErrorIf false e = s := rfl

/-! ### The slot of a start edge (R3, R17) -/

/-- The slot windows of a round do not overlap. -/
theorem slotOf_eq_some_iff {e : Nat} {k : Station} :
    s.slotOf e = some k ↔ slotOpens k.val ≤ s.offset e ∧ s.offset e < slotOpens (k.val + 1) := by
  constructor
  · intro h
    simpa using List.find?_some h
  · intro h
    cases hf : s.slotOf e with
    | none =>
      have hk : k ∈ stations := by fin_cases k <;> simp [stations]
      have := List.find?_eq_none.mp hf k hk
      simp [h] at this
    | some j =>
      have hj : slotOpens j.val ≤ s.offset e ∧ s.offset e < slotOpens (j.val + 1) := by simpa using List.find?_some hf
      simp only [slotOpens, Config.slotLead, Config.slotLength] at h hj
      exact congrArg some (Fin.ext (by omega))

theorem slotOf_eq_none_iff {e : Nat} :
    s.slotOf e = none ↔ ∀ k : Station, ¬(slotOpens k.val ≤ s.offset e ∧ s.offset e < slotOpens (k.val + 1)) := by
  constructor
  · intro h k hk
    rw [slotOf_eq_some_iff.mpr hk] at h
    cases h
  · intro h
    cases hf : s.slotOf e with
    | none => rfl
    | some j => exact absurd (slotOf_eq_some_iff.mp hf) (h j)

/-- A start edge of the round under way is measured from its boundary. -/
theorem offset_of_le {e : Nat} (h : s.round.start ≤ e) : s.offset e = e - s.round.start := by
  simp [State.offset, roundOf_of_le h, State.roundFrame]

/-! ### An attempt whose window has closed (R17) -/

/-- The characters under way that began inside a slot window of the round under way. -/
theorem startsIn_eq (s : State) (k : Station) :
    s.startsIn k = s.line.begun.filter fun st =>
      decide (s.round.start ≤ st ∧ 40 + 360 * k.val ≤ st - s.round.start ∧ st - s.round.start < 40 + 360 * (k.val + 1)) := by
  unfold State.startsIn
  refine List.filter_congr fun st _ => ?_
  rw [Bool.eq_iff_iff, Bool.and_eq_true, State.inThisRound, decide_eq_true_eq, decide_eq_true_eq, decide_eq_true_eq]
  refine and_congr_right fun h => ?_
  rw [slotOf_eq_some_iff, offset_of_le h]
  rfl

/-- A start edge may still be detected at the instant of a window's close. -/
theorem startOpen_iff (s : State) (k : Station) :
    s.startOpen k = true ↔ s.line.tx = .released ∧ s.now - s.round.start = 40 + 360 * (k.val + 1)
      ∧ ∀ st : Nat, s.line.rx = some st → s.line.rxNext = none ∧ st + 21 < s.now := by
  unfold State.startOpen
  cases hrx : s.line.rx with
  | none =>
    simp only [Bool.and_eq_true, decide_eq_true_eq]
    simp [State.roundTime, slotOpens, Config.slotLead, Config.slotLength]
  | some st =>
    simp only [Bool.and_eq_true, decide_eq_true_eq]
    simp [State.roundTime, slotOpens, Config.slotLead, Config.slotLength, Config.stopSample, and_assoc]

theorem awaitsLast_iff (s : State) (f : Attempt) :
    s.awaitsLast f = true ↔ 15 ≤ f.bytes.length + (s.startsIn f.slot).length
      ∨ (f.bytes.length + (s.startsIn f.slot).length = 14 ∧ s.startOpen f.slot = true) := by
  simp only [State.awaitsLast, Config.frameLength]
  cases s.startOpen f.slot
  · simp
  · simp; omega

/-- An attempt whose window has closed is left waiting for a character that can complete it. -/
theorem settleAttempt_of_awaits {f : Attempt} (hf : s.line.attempt = some f) (h : s.awaitsLast f = true) :
    s.settleAttempt = s := by simp [State.settleAttempt, hf, h]

theorem settleAttempt_of_closed {f : Attempt} (hf : s.line.attempt = some f) (hclosed : f.slot.val < s.round.slotsClosed)
    (h : s.awaitsLast f = false) : s.settleAttempt = s.cutAttempt f := by
  simp [State.settleAttempt, hf, hclosed, h]

/-- A cut attempt sets SHORT in a round that is not lost, and leaves the train of what began before the close. -/
theorem cutAttempt_sets (s : State) (f : Attempt) :
    (s.cutAttempt f).line = { s.line with
        attempt := none, overrun := (s.cutAttempt f).line.overrun, errors := (s.cutAttempt f).line.errors }
      ∧ (s.round.lost = false → (s.cutAttempt f).hasLinkError .short = true
          ∧ (s.hasLinkError .short = false → (s.cutAttempt f).hasEvent .linkError = true))
      ∧ (s.round.lost = true → (s.cutAttempt f).line.errors = s.line.errors ∧ (s.cutAttempt f).port = s.port) := by
  unfold State.cutAttempt
  refine ⟨?_, fun hl => ?_, fun hl => ?_⟩
  · unfold State.linkErrorIf
    split
    · simp [linkError_line]
    · rfl
  · rw [hl, Bool.not_false, linkErrorIf_true]
    exact linkError_sets _ .short
  · rw [hl, Bool.not_true, linkErrorIf_false]
    exact ⟨rfl, rfl⟩

end

/-- Settles O2: the queue of a step, and what time does to an attempt by whether its last character can still come. -/
theorem emptyQueueRunsTheTimeBase : Obligations.EmptyQueueRunsTheTimeBase := by
  refine ⟨fun s hp => ⟨fun hd => ?_, fun c rest hd => ?_⟩, fun d s => ⟨fun h => advance_of_open d h, fun f hf hclosed => ?_⟩⟩
  · simp only [step, hp, State.idle, hd]; rfl
  · simp only [step, hp, State.idle, hd]
  · have hawaits : (s.elapse d).awaitsLast f = true ↔ _ := awaitsLast_iff (s.elapse d) f
    rw [startsIn_eq, startOpen_iff] at hawaits
    refine ⟨fun hw => settleAttempt_of_awaits (s := s.elapse d) hf (hawaits.mpr hw), fun hw => ?_⟩
    have hcut : s.advance d = (s.elapse d).cutAttempt f :=
      settleAttempt_of_closed (s := s.elapse d) hf hclosed (Bool.eq_false_iff.mpr (mt hawaits.mp hw))
    rw [hcut]
    obtain ⟨hline, hshort, hlost⟩ := cutAttempt_sets (s.elapse d) f
    exact ⟨(LineWork.cutAttempt (s.elapse d) f).rest, hline, hshort, hlost⟩

end Sys2Proof.Machine
end

section
/-! PROOFS. Transactions of the service port (11): how one starts and ends, what it shifts out, and the checks that every
request passes. -/

namespace Sys2Proof.Machine

section

variable {s : State}

/-! ### What a transaction shifts out (R171, R172, R174) -/

theorem shiftedOut_of_none (h : s.port.txn = .none) (k : Nat) : s.shiftedOut k = none := by simp [State.shiftedOut, h]
theorem shiftedOut_of_busy (h : s.port.txn = .busy) (k : Nat) : s.shiftedOut k = some 0xFF := by simp [State.shiftedOut, h]
theorem shiftedOut_of_ordinary (h : s.port.txn = .ordinary) (k : Nat) : s.shiftedOut k = some (s.pendingByte k) := by
  simp [State.shiftedOut, h]

theorem pendingByte_of_none (h : s.port.response = none) (k : Nat) : s.pendingByte k = 0 := by simp [State.pendingByte, h]
theorem pendingByte_of_some {r : Response} (h : s.port.response = some r) (k : Nat) : s.pendingByte k = nth r.bytes k := by
  simp [State.pendingByte, h]

/-- SDO carries bit `i` of the byte that the falling edges have come to, the most significant first. -/
theorem sdo_eq {k i : Nat} {b : Byte} (hi : i < 8) (hb : s.shiftedOut k = some b) (hf : s.pins.sckFalls = 8 * k + i) :
    s.sdo = some (b.getLsbD (7 - i)) := by
  have hdiv : (8 * k + i) / 8 = k := by omega
  have hmod : (8 * k + i) % 8 = i := by omega
  rw [State.sdo, State.shiftedBit, hf, hdiv, hmod, hb, Option.map_some]

theorem sdo_of_none (h : s.port.txn = .none) : s.sdo = none := by
  rw [State.sdo, State.shiftedBit, shiftedOut_of_none h, Option.map_none]

end

/-- Settles O10: the bytes of the response by their places, and SDO by the bit that the falls of SCK have come to. -/
theorem transactionShiftsOutTheResponse : Obligations.TransactionShiftsOutTheResponse := by
  intro s k
  refine ⟨fun i b hi hb hf => sdo_eq hi hb hf, fun h => ⟨shiftedOut_of_none h k, sdo_of_none h⟩, fun d => ⟨by simp, ?_, ?_⟩,
    fun h => shiftedOut_of_busy h k, fun h hr => by rw [shiftedOut_of_ordinary h, pendingByte_of_none hr],
    fun r h hr => ⟨?_, fun hk => ?_, fun hk => ?_⟩⟩
  · intro h; simp [h, Wait.falls]
  · intro h; simp [h]
  · rw [shiftedOut_of_ordinary h, pendingByte_of_some hr]; rfl
  · rw [shiftedOut_of_ordinary h, pendingByte_of_some hr]; simp [nth, Response.bytes, hk]
  · rw [shiftedOut_of_ordinary h, pendingByte_of_some hr]; simp [nth, Response.bytes, hk]

/-- Settles O8: the transaction that SSEL's fall begins, with the first bit of its first byte. -/
theorem transactionStarts : Obligations.TransactionStarts := by
  intro after s hrun hssel a begun
  have hport := advance_raised s after (raised_self s)
  have hrunning : a.running = true := by simpa [a] using hrun
  have hlow : a.port.sselLow = false := hport.sselLow.trans hssel
  have hexec : exec (.transactionStart after) s = .next a.selFalls := rfl
  have hfalls : a.selFalls = State.beginTransaction { a with port := { a.port with sselLow := true } } := by
    rw [State.selFalls, if_neg (by simp [hlow])]
    exact if_pos hrunning
  have hsrdy : a.port.srdy = s.port.srdy := hport.srdy
  refine ⟨fun h => ⟨?_, ?_⟩, fun h => ⟨?_, ?_⟩⟩
  · rw [hexec, hfalls, State.beginTransaction, if_pos (by show a.port.srdy = true; rw [hsrdy, h])]; rfl
  · have hbyte : a.pendingByte 0 = s.pendingByte 0 := by simp [State.pendingByte, a, hport.response]
    rw [← hbyte]
    exact sdo_eq (k := 0) (i := 0) (by decide) rfl rfl
  · rw [hexec, hfalls, State.beginTransaction, if_neg (by show ¬a.port.srdy = true; rw [hsrdy, h]; decide)]; rfl
  · exact sdo_eq (k := 0) (i := 0) (b := 0xFF) (by decide) rfl rfl

end Sys2Proof.Machine
end

section
/-! PROOFS. The service port's requests (11): the checks that each passes, the events and the link errors, the end of a
transaction and the log's read-out. -/

namespace Sys2Proof.Machine

section

variable {s : State}

/-! ### A request at its command's arrival -/

theorem advance_srdy (s : State) (d : Wait) : (s.advance d).port.srdy = s.port.srdy := (advance_raised s d (raised_self s)).srdy
theorem advance_request (s : State) (d : Wait) : (s.advance d).port.request = s.port.request :=
  (advance_raised s d (raised_self s)).request
theorem advance_response (s : State) (d : Wait) : (s.advance d).port.response = s.port.response :=
  (advance_raised s d (raised_self s)).response
theorem advance_txn (s : State) (d : Wait) : (s.advance d).port.txn = s.port.txn := (advance_raised s d (raised_self s)).txn
theorem advance_sselLow (s : State) (d : Wait) : (s.advance d).port.sselLow = s.port.sselLow :=
  (advance_raised s d (raised_self s)).sselLow

theorem advance_readoutOpen (s : State) (d : Wait) : (s.advance d).readoutOpen = s.readoutOpen := by
  simp [State.readoutOpen, advance_txn, advance_response]

/-- The request that a code names is the one with this code. -/
theorem ofCode_eq_some_iff {c : Byte} {q : Request} : Request.ofCode c = some q ↔ q.code = c := by
  constructor
  · intro h; simpa using List.find?_some h
  · rintro rfl; cases q <;> rfl

theorem ofCode_code (q : Request) : Request.ofCode q.code = some q := ofCode_eq_some_iff.mpr rfl

end

/-- Settles O11: the checks by the cases of a request's execution, the tables by their rows. -/
theorem requestChecksComeInOrder : Obligations.RequestChecksComeInOrder := by
  refine ⟨fun after s hrun hsrdy => ⟨fun c p hreq hc => ?_, fun q straps p hreq hlen => ?_,
    fun q straps p hreq hlen hnot => ?_⟩, fun q l => ?_, fun c q => ofCode_eq_some_iff, rfl, rfl, rfl, fun q => ?_, rfl, rfl,
    rfl, rfl⟩
  · have hexec : (s.advance after).unknownExecuting = true := by
      simp [State.unknownExecuting, advance_srdy, advance_request, hrun, hsrdy, hreq, hc]
    exact congrArg Host.Outcome.next (if_pos hexec)
  · rw [exec_requestCommand, command_next, execution_badLength _ (by simpa using hrun) ((advance_srdy s after).trans hsrdy)
      ((advance_request s after).trans hreq) hlen]
  · rw [exec_requestCommand, command_next, execution_notAvailable _ (by simpa using hrun) ((advance_srdy s after).trans hsrdy)
      ((advance_request s after).trans hreq) hlen (by simpa using hnot), advance_link]
  · cases q <;> cases l <;> decide
  · cases q <;> rfl

/-! ### Events and ALERT (R180 to R183) -/

theorem eventPositions_getLsbD : ∀ i : Fin 16, eventPositions.getLsbD i.val = decide (i.val < 15) := by decide

/-- Each position below 15 stands for an event. -/
theorem exists_event_of_lt {i : Nat} (h : i < 15) : ∃ e : Event, e.bit = i := by
  have : ∀ i : Fin 15, i.val ∈ [Event.joined, .left, .duplicate, .peerChange, .claimSeen, .trialStart, .trialEnd, .brk,
      .drawAlarm, .shareAlarm, .channelFault, .revCheckDone, .logClosed, .linkError, .portOverrun].map Event.bit := by decide
  obtain ⟨e, -, he⟩ := List.mem_map.mp (this ⟨i, h⟩)
  exact ⟨e, he⟩

theorem bit_lt (e : Event) : e.bit < 15 := by cases e <;> decide

/-- A set of flags is not empty when it has a flag. -/
theorem ne_zero_iff_getLsbD {w : Nat} {x : BitVec w} : x ≠ 0#w ↔ ∃ i, i < w ∧ x.getLsbD i = true := by
  constructor
  · intro h
    by_contra hn
    exact h (BitVec.eq_of_getLsbD_eq fun i hi => by simpa using fun hx => hn ⟨i, hi, hx⟩)
  · rintro ⟨i, -, hx⟩ rfl
    simp at hx

theorem alertLow_iff (s : State) :
    s.alertLow = true ↔ s.running = true ∧ ∃ e : Event, s.hasEvent e = true ∧ s.port.mask.getLsbD e.bit = true := by
  rw [State.alertLow, Bool.and_eq_true, bne_iff_ne, ne_zero_iff_getLsbD]
  refine and_congr_right fun _ => ⟨?_, ?_⟩
  · rintro ⟨i, hi, hx⟩
    simp only [BitVec.getLsbD_and, Bool.and_eq_true, eventPositions_getLsbD ⟨i, hi⟩, decide_eq_true_eq] at hx
    obtain ⟨⟨hevent, hmask⟩, hlt⟩ := hx
    obtain ⟨e, rfl⟩ := exists_event_of_lt hlt
    exact ⟨e, hevent, hmask⟩
  · rintro ⟨e, hevent, hmask⟩
    have hlt := bit_lt e
    have hi : e.bit < 16 := by omega
    refine ⟨e.bit, hi, ?_⟩
    simp only [BitVec.getLsbD_and, Bool.and_eq_true, eventPositions_getLsbD ⟨e.bit, hi⟩, decide_eq_true_eq]
    exact ⟨⟨hevent, hmask⟩, hlt⟩

/-- Settles O13: the requests by their work, the flags by their bits. -/
theorem eventAndLinkErrorRequests : Obligations.EventAndLinkErrorRequests := by
  refine ⟨rfl, fun e => ?_, rfl, fun e => ?_, fun after p s => ⟨fun h => ?_, fun h => ?_, fun h => ?_, fun h => ?_,
    alertLow_iff s⟩⟩
  · cases e <;> rfl
  · cases e <;> rfl
  · exact exec_requestCommand_of_takes (q := .readEvents) after 0 h
  · exact exec_requestCommand_of_takes (q := .setEventMask) after 0 h
  · exact exec_requestCommand_of_takes (q := .readLinkErrors) after 0 h
  · exact exec_requestCommand_of_takes (q := .clearLinkErrors) after 0 h

/-! ### The end of a transaction (R171 to R174) -/

section

variable {s : State}

/-- The state with a transaction's end settled for the log, and the port released; `selRises_eq` ties it to the model. -/
def State.released (s : State) (edges : Nat) : State :=
  { s.settleReadout edges with port := { (s.settleReadout edges).port with sselLow := false, txn := .none } }

theorem selRises_eq (h : s.port.sselLow = true) (bits : List Bool) :
    s.selRises bits = if s.port.txn = .ordinary then (s.released bits.length).takeRequest (wholeBytes bits)
      else s.released bits.length := by
  rw [State.selRises, if_pos h]
  cases s.port.txn <;> rfl

theorem settleReadout_of_open (h : s.readoutOpen = true) (edges : Nat) :
    s.settleReadout edges = { s with log := { s.log with
      records := if 200 ≤ edges then s.log.records.drop 1 else s.log.records, removal := false } } := by
  rw [State.settleReadout, if_pos h, Config.readoutEdges]
  split <;> rfl

theorem settleReadout_of_not_open (h : s.readoutOpen = false) (edges : Nat) : s.settleReadout edges = s := by
  rw [State.settleReadout, if_neg (by simp [h])]

/-- What a transaction's end leaves of the log and of the port. -/
theorem released_eq (s : State) (edges : Nat) :
    s.released edges = { s with
      log := if s.readoutOpen = true then
          { s.log with records := if 200 ≤ edges then s.log.records.drop 1 else s.log.records, removal := false }
        else s.log
      port := { s.port with sselLow := false, txn := .none } } := by
  unfold State.released
  cases h : s.readoutOpen with
  | true => rw [settleReadout_of_open h]; rfl
  | false => rw [settleReadout_of_not_open h]; rfl

/-- The bits of a list stand in its bit vector from the last on, the first being the most significant. -/
theorem getElem?_eq_getLsbD_ofBoolListBE {l : List Bool} {i : Nat} (h : i < l.length) :
    l[l.length - 1 - i]? = some ((BitVec.ofBoolListBE l).getLsbD i) := by
  induction l with
  | nil => simp at h
  | cons b l ih =>
    rw [show BitVec.ofBoolListBE (b :: l) = BitVec.cons b (BitVec.ofBoolListBE l) from rfl, BitVec.getLsbD_cons]
    rw [List.length_cons] at h ⊢
    by_cases hi : i = l.length
    · simp [hi]
    · rw [if_neg hi, ← ih (by omega), show l.length + 1 - 1 - i = (l.length - 1 - i) + 1 by omega, List.getElem?_cons_succ]

theorem wholeBytes_append {octet : List Bool} (h : octet.length = 8) (rest : List Bool) :
    ∃ b : Byte, wholeBytes (octet ++ rest) = b :: wholeBytes rest
      ∧ ∀ i : Fin 8, octet[7 - i.val]? = some (b.getLsbD i.val) := by
  match octet, h with
  | [b7, b6, b5, b4, b3, b2, b1, b0], _ =>
    exact ⟨BitVec.ofBoolListBE [b7, b6, b5, b4, b3, b2, b1, b0], rfl,
      fun i => getElem?_eq_getLsbD_ofBoolListBE (l := [b7, b6, b5, b4, b3, b2, b1, b0]) i.isLt⟩

theorem wholeBytes_of_lt {bits : List Bool} (h : bits.length < 8) : wholeBytes bits = [] := by
  unfold wholeBytes
  split
  · simp at h; omega
  · rfl

theorem storedRequest_of_unknown {c : Byte} (h : ∀ q : Request, q.code ≠ c) (rest : List Byte) :
    storedRequest (c :: rest) = [c] := by
  have hnone : Request.ofCode c = none := by
    cases hc : Request.ofCode c with
    | none => rfl
    | some q => exact absurd (ofCode_eq_some_iff.mp hc) (h q)
  simp [storedRequest, hnone]

end

/-- Settles O9: the bytes of the bits, what the buffer stores of them, and the end of each kind of transaction. -/
theorem transactionEnds : Obligations.TransactionEnds := by
  refine ⟨fun octet rest h => wholeBytes_append h rest, fun bits h => wholeBytes_of_lt h,
    fun q rest => by simp [storedRequest, ofCode_code], fun c rest h => storedRequest_of_unknown h rest,
    fun after bits s hssel => ?_⟩
  intro a released settled
  have hlow : a.port.sselLow = true := (advance_sselLow s after).trans hssel
  have htxn : a.port.txn = s.port.txn := advance_txn s after
  have hexec : exec (.transactionEnd after bits) s = .next (a.selRises bits) := rfl
  have hreleased : a.released bits.length = { a with log := settled, port := released } := by
    rw [released_eq, show a.readoutOpen = s.readoutOpen from advance_readoutOpen s after]
  refine ⟨fun b rest hord hbytes => ?_, fun hno => ?_, ⟨_, hexec, ?_⟩⟩
  · rw [hexec, selRises_eq hlow, if_pos (htxn.trans hord), hreleased, hbytes]; rfl
  · rw [hexec, selRises_eq hlow, hreleased]
    rcases hno with hn | hn
    · rw [if_neg (by rw [htxn]; exact hn)]
    · rw [hn]; split <;> rfl
  · refine sdo_of_none ?_
    rw [selRises_eq hlow, hreleased]
    split
    · unfold State.takeRequest
      split <;> rfl
    · rfl

/-! ### The log's read-out (R166, R167) -/

theorem LogRecord.length_bytes (r : LogRecord) : r.bytes.length = 24 := rfl

theorem loadWord_eq (x : Option Int) : loadWord x = (x.map (BitVec.ofInt 16)).getD 0x8000 := by cases x <;> rfl
theorem speedWord_eq (x : Option Int) : speedWord x = (x.map (BitVec.ofInt 24)).getD 0x800000 := by cases x <;> rfl

/-- The nibbles of a byte that is made of two. -/
theorem extractLsb'_append_low {m n : Nat} (x : BitVec m) (y : BitVec n) : (x ++ y).extractLsb' 0 n = y := by
  apply BitVec.eq_of_getLsbD_eq
  intro i hi
  simp [BitVec.getLsbD_append, hi]

theorem extractLsb'_append_high {m n : Nat} (x : BitVec m) (y : BitVec n) : (x ++ y).extractLsb' n m = x := by
  apply BitVec.eq_of_getLsbD_eq
  intro i hi
  simp [BitVec.getLsbD_append, hi]

theorem upperNibble_nibbles (hi lo : Fin 16) : upperNibble (nibbles hi lo) = hi :=
  congrArg BitVec.toFin (extractLsb'_append_high (BitVec.ofFin hi : BitVec 4) (BitVec.ofFin lo : BitVec 4))

theorem lowerNibble_nibbles (hi lo : Fin 16) : lowerNibble (nibbles hi lo) = lo :=
  congrArg BitVec.toFin (extractLsb'_append_low (BitVec.ofFin hi : BitVec 4) (BitVec.ofFin lo : BitVec 4))

/-- The flags of a record's third byte, above its type. -/
theorem flagBits (b7 b6 b5 b4 : Bool) (t : BitVec 4) :
    let x : Byte := BitVec.ofBool b7 ++ BitVec.ofBool b6 ++ BitVec.ofBool b5 ++ BitVec.ofBool b4 ++ t
    x.extractLsb' 0 4 = t ∧ x.getLsbD 4 = b4 ∧ x.getLsbD 5 = b5 ∧ x.getLsbD 6 = b6 ∧ x.getLsbD 7 = b7 := by
  refine ⟨extractLsb'_append_low _ t, ?_, ?_, ?_, ?_⟩ <;> simp only [BitVec.getLsbD_append] <;> simp

/-- Settles O15: READ_LOG by its work, the read-out by the settling of the log, the record by its bytes. -/
theorem readLogAndItsReadout : Obligations.ReadLogAndItsReadout := by
  refine ⟨fun after s => ⟨fun p r rest h hr => ⟨?_, r.length_bytes⟩, fun p h hr => ?_, fun h => ⟨?_, fun r hr => ?_⟩,
    fun bits h hssel => ⟨_, rfl, ?_⟩⟩, fun r => ?_⟩
  · exact (exec_requestCommand_of_takes (q := .readLog) after 0 h).trans
      (by simp only [Request.work, readLogWork, advance_log, hr])
  · exact (exec_requestCommand_of_takes (q := .readLog) after 0 h).trans
      (by simp only [Request.work, readLogWork, advance_log, hr, noneRecordBytes])
  · exact congrArg Host.Outcome.next (if_pos ((advance_readoutOpen s after).trans h))
  · have htxn : s.port.txn = .ordinary := by
      simp only [State.readoutOpen, Bool.and_eq_true, decide_eq_true_eq] at h
      exact h.1.1.2
    refine sdo_eq (k := 24) (i := 7) (by decide) ?_ rfl
    refine (shiftedOut_of_ordinary (s := State.mk ..) ((advance_txn s after).trans htxn) 24).trans ?_
    rw [pendingByte_of_some (s := State.mk ..) ((advance_response s after).trans hr)]
    rfl
  · show ((s.advance after).selRises bits).log = _
    rw [selRises_eq ((advance_sselLow s after).trans hssel), released_eq,
      if_pos ((advance_readoutOpen s after).trans h)]
    have htake : ∀ (u : State) (l : List Byte), (u.takeRequest l).log = u.log := by simp
    split <;> simp only [htake] <;> split <;> split <;> first | rfl | omega
  · obtain ⟨htype, h4, h5, h6, h7⟩ := flagBits r.sample.lost r.sample.alarm r.sample.brk r.sample.drawUndefined r.type.code
    refine ⟨rfl, htype, h4, h5, h6, h7, upperNibble_nibbles _ _, lowerNibble_nibbles _ _, rfl, ?_, ?_, rfl, rfl,
      fun n => ?_, extractLsb'_append_low _ _, congrArg BitVec.toFin (extractLsb'_append_high _ _), ?_, ?_⟩
    · exact congrArg bytes24 (speedWord_eq _)
    · exact congrArg bytes16 (loadWord_eq _)
    · fin_cases n <;> exact congrArg bytes16 (loadWord_eq _)
    · refine (extractLsb'_append_high (r.outcome.code.setWidth 2) (r.cause.setWidth 6)).trans ?_
      cases r.outcome <;> rfl
    · refine (extractLsb'_append_low (r.outcome.code.setWidth 2) (r.cause.setWidth 6)).trans ?_
      apply BitVec.eq_of_getLsbD_eq
      intro i hi
      simp [hi]

end Sys2Proof.Machine
end

section
/-! PROOFS. The snapshots that the host reads, byte by byte (R71, R116, R178, R179, R195). -/

namespace Sys2Proof.Machine

section

variable {s : State}

/-- The set of the channels that a rule chooses. -/
theorem channelSet_getLsbD (p : Channel → Bool) (n : Channel) : (channelSet p).getLsbD n.val = p n := by
  have bits : ∀ b0 b1 b2 b3 : Bool, ∀ m : Fin 4,
      (BitVec.ofNat 4 ((if b0 then 1 else 0) + ((if b1 then 2 else 0) + ((if b2 then 4 else 0)
        + ((if b3 then 8 else 0) + 0))))).getLsbD m.val = [b0, b1, b2, b3].getD m.val false := by decide
  refine (bits (p 0) (p 1) (p 2) (p 3) n).trans ?_
  fin_cases n <;> rfl

theorem DrawState.length_codes (x : DrawState) : x.codes.length = 2 := by cases x <;> rfl

theorem headSeq_eq (s : State) : s.headSeq = (s.log.records.head?.map (·.seq)).getD 0 := by
  unfold State.headSeq
  split <;> simp [*]

/-! ### The five parts of the status (R195) -/

theorem length_statusDraw (s : State) : s.statusDraw.length = 14 := by
  simp [State.statusDraw, DrawState.length_codes, signed16, bytes16, bytes24]

theorem length_statusBytes (s : State) : s.statusBytes.length = 160 := by
  have hparts : s.statusNode.length = 33 ∧ s.statusMeasure.length = 53 ∧ s.statusTrims.length = 26
      ∧ s.statusRest.length = 34 := ⟨rfl, rfl, rfl, rfl⟩
  obtain ⟨hnode, hmeasure, htrims, hrest⟩ := hparts
  simp [State.statusBytes, hnode, hmeasure, htrims, hrest, length_statusDraw]

/-- The blocks of one length that a list of blocks is made of. -/
theorem take_drop_flatMap {α β : Type} {f : α → List β} {k : Nat} (hf : ∀ a, (f a).length = k) (rest : List β) {l : List α}
    {i : Nat} (h : i < l.length) : ((l.flatMap f ++ rest).drop (k * i)).take k = f l[i] := by
  induction l generalizing i with
  | nil => simp at h
  | cons a l ih =>
    cases i with
    | zero => simp [List.flatMap_cons, hf a]
    | succ i =>
      have hcons : ((a :: l).flatMap f ++ rest).drop (k * (i + 1)) = (l.flatMap f ++ rest).drop (k * i) := by
        rw [List.flatMap_cons, List.append_assoc, show k * (i + 1) = (f a).length + k * i by rw [hf a]; ring,
          List.drop_length_add_append]
      rw [hcons, ih (by simpa using h)]
      rfl

/-- The first bytes of the status, those of the node. -/
theorem statusBytes_take_node (s : State) {i count : Nat} (h : i + count ≤ 33) :
    (s.statusBytes.drop i).take count = (s.statusNode.drop i).take count := by
  have hlen : s.statusNode.length = 33 := rfl
  have happend : s.statusBytes = s.statusNode ++ (s.statusMeasure ++ s.statusDraw ++ s.statusTrims ++ s.statusRest) := by
    simp only [State.statusBytes, List.append_assoc]
  rw [happend, List.drop_append_of_le_length (by omega), List.take_append_of_le_length (by simp; omega)]

theorem nth_statusBytes_node (s : State) {i : Nat} (h : i < 33) : nth s.statusBytes i = nth s.statusNode i := by
  have hlen : s.statusNode.length = 33 := rfl
  have happend : s.statusBytes = s.statusNode ++ (s.statusMeasure ++ s.statusDraw ++ s.statusTrims ++ s.statusRest) := by
    simp only [State.statusBytes, List.append_assoc]
  rw [happend, nth, List.getD_append _ _ _ _ (by omega), nth]

/-- The filtered levels of the ready and the fault inputs in the status. -/
theorem statusBytes_filters (s : State) (n : Channel) :
    (nth s.statusBytes 30).getLsbD n.val = (s.inputs.rdy.get n).active
      ∧ (nth s.statusBytes 31).getLsbD n.val = (s.inputs.flt.get n).active := by
  have hn : n.val < 8 := by omega
  have h30 : nth s.statusNode 30 = setByte (channelSet fun m => (s.inputs.rdy.get m).active) := rfl
  have h31 : nth s.statusNode 31 = setByte (channelSet fun m => (s.inputs.flt.get m).active) := rfl
  rw [nth_statusBytes_node s (by decide), nth_statusBytes_node s (by decide), h30, h31, setByte, setByte,
    BitVec.getLsbD_setWidth, BitVec.getLsbD_setWidth, channelSet_getLsbD, channelSet_getLsbD]
  simp [hn]

/-- The bytes of the status from the section's speed on. -/
theorem statusBytes_drop_section (s : State) (i : Nat) :
    s.statusBytes.drop (77 + i)
      = (bytes24 (speedWord s.meas.speed) ++ bytes16 (loadWord s.meas.load)
          ++ ([flagByte s.meas.sharesComputed, flagByte s.meas.alarm, byteOf s.meas.outRun, byteOf s.meas.inRun]
            ++ (s.statusDraw ++ s.statusTrims ++ s.statusRest))).drop i := by
  have h : s.statusBytes = (s.statusNode ++ s.measureBytes 0 ++ s.measureBytes 1 ++ s.measureBytes 2 ++ s.measureBytes 3)
      ++ (bytes24 (speedWord s.meas.speed) ++ bytes16 (loadWord s.meas.load)
          ++ ([flagByte s.meas.sharesComputed, flagByte s.meas.alarm, byteOf s.meas.outRun, byteOf s.meas.inRun]
            ++ (s.statusDraw ++ s.statusTrims ++ s.statusRest))) := by
    simp only [State.statusBytes, State.statusMeasure, List.append_assoc]
  have hlen : (s.statusNode ++ s.measureBytes 0 ++ s.measureBytes 1 ++ s.measureBytes 2 ++ s.measureBytes 3).length = 77 := rfl
  rw [h, ← hlen, List.drop_length_add_append]

/-- The bytes of the status from the draw on. -/
theorem statusBytes_drop_draw (s : State) (i : Nat) :
    s.statusBytes.drop (86 + i) = (s.statusDraw ++ s.statusTrims ++ s.statusRest).drop i := by
  rw [← List.drop_drop]; rfl

/-- The bytes of the status from the trims on. -/
theorem statusBytes_drop_trims (s : State) (i : Nat) :
    s.statusBytes.drop (100 + i) = (s.statusTrims ++ s.statusRest).drop i := by
  have h : (s.statusDraw ++ (s.statusTrims ++ s.statusRest)).drop (14 + i) = (s.statusTrims ++ s.statusRest).drop i := by
    rw [← length_statusDraw s, List.drop_length_add_append]
  rw [← h, ← List.append_assoc, ← statusBytes_drop_draw, ← Nat.add_assoc]

theorem Entry.length_bytes (e : Entry) : e.bytes.length = 17 := rfl

/-- The bytes of a station's entry in READ_ROSTER. -/
theorem rosterBytes_entry (s : State) (u : Station) : (s.rosterBytes.drop (17 * u.val)).take 17 = (s.entry u).bytes := by
  rw [← List.append_nil s.rosterBytes]
  refine (take_drop_flatMap (l := stations) (fun t => (s.entry t).length_bytes) [] u.isLt).trans ?_
  fin_cases u <;> rfl

theorem length_rosterBytes (s : State) : s.rosterBytes.length = 272 := by
  simp [State.rosterBytes, stations, Entry.length_bytes]

/-- The bytes of the status from the break on. -/
theorem statusBytes_drop_rest (s : State) (i : Nat) : s.statusBytes.drop (126 + i) = s.statusRest.drop i := by
  have h : (s.statusTrims ++ s.statusRest).drop (26 + i) = s.statusRest.drop i := by
    have hlen : s.statusTrims.length = 26 := rfl
    rw [← hlen, List.drop_length_add_append]
  rw [← h, ← statusBytes_drop_trims, ← Nat.add_assoc]

/-- The bytes of a channel's measurement in the status. -/
theorem statusBytes_measure (s : State) (n : Channel) :
    (s.statusBytes.drop (33 + 11 * n.val)).take 11 = s.measureBytes n := by
  have h : s.statusBytes = s.statusNode ++ (channels.flatMap s.measureBytes
      ++ (bytes24 (speedWord s.meas.speed) ++ bytes16 (loadWord s.meas.load)
        ++ [flagByte s.meas.sharesComputed, flagByte s.meas.alarm, byteOf s.meas.outRun, byteOf s.meas.inRun]
        ++ (s.statusDraw ++ s.statusTrims ++ s.statusRest))) := by
    simp only [State.statusBytes, State.statusMeasure, channels, List.flatMap_cons, List.flatMap_nil, List.append_assoc,
      List.append_nil]
  have hlen : s.statusNode.length = 33 := rfl
  rw [h, ← hlen, List.drop_length_add_append]
  refine (take_drop_flatMap (f := s.measureBytes) (k := 11) (l := channels) (fun _ => rfl) _ n.isLt).trans ?_
  fin_cases n <;> rfl

/-- The measurement bytes of a channel. -/
theorem measureBytes_eq (s : State) (n : Channel) :
    s.measureBytes n
      = [(s.meas.chan.get n).method.code]
        ++ bytes24 (if s.chans.get n = .disabled then 0x800000 else BitVec.ofInt 24 ((s.meas.chan.get n).speed.getD 0))
        ++ bytes16 (if s.chans.get n = .disabled then 0x8000 else BitVec.ofInt 16 ((s.meas.chan.get n).load.getD 0))
        ++ bytes16 (loadWord (s.meas.chan.get n).share) ++ bytes16 (loadWord (s.meas.chan.get n).deviation)
        ++ [byteOf (s.meas.chan.get n).slip] := by
  unfold State.measureBytes
  by_cases h : s.chans.get n = .disabled <;> simp [State.sensed, h, shareBytes, invalidSpeed, invalidLoad]

end

/-- The bytes of READ_TRIAL lie as R195 lists them. -/
theorem trialBytes_layout (s : State) :
    let r := s.trial
    let trial := fun first count : Nat => (s.trialBytes.drop first).take count
    trial 0 2 = [r.phase.code, r.role.code]
      ∧ upperNibble (nth s.trialBytes 2) = r.id.proposer ∧ lowerNibble (nth s.trialBytes 2) = r.id.seq
      ∧ trial 3 7 = [r.params.kind.code.setWidth 8, byteOf r.params.drive.val, byteOf r.params.target.val,
          byteOf r.params.spanFirst.val, byteOf r.params.spanLast.val, BitVec.ofInt 8 r.params.step,
          byteOf r.params.duration]
      ∧ trial 10 2 = [r.startRound, byteOf r.remaining]
      ∧ trial 12 6 = bytes16 r.required ++ bytes16 r.accepted ++ bytes16 r.watched
      ∧ nth s.trialBytes 18 = r.readySet.setWidth 8 ∧ (r.count ≤ 255 → nth s.trialBytes 19 = byteOf r.count)
      ∧ trial 20 3 = [byteOf r.abortsOwed, (match r.request with | .none => 0 | .propose _ _ => 1 | .abort => 2),
          if r.refusing then 1 else 0]
      ∧ nth s.trialBytes 23 = s.lastOutcome.outcome.code
      ∧ upperNibble (nth s.trialBytes 24) = s.lastOutcome.id.proposer
      ∧ lowerNibble (nth s.trialBytes 24) = s.lastOutcome.id.seq
      ∧ trial 25 2 = [s.lastOutcome.code, byteOf s.lastOutcome.station.val] := by
  intro r trial
  refine ⟨rfl, upperNibble_nibbles _ _, lowerNibble_nibbles _ _, rfl, rfl, rfl, rfl, fun h => ?_, ?_, rfl,
    upperNibble_nibbles _ _, lowerNibble_nibbles _ _, rfl⟩
  · exact if_pos h
  · show [byteOf s.trial.abortsOwed, s.trial.request.code, flagByte s.trial.refusing] = _
    cases h : r.request <;> simp [r, PendingRequest.code, flagByte, h] at h ⊢

/-- Settles O14: the requests by their work, the tables by the parts of the bytes that they list. -/
theorem snapshotsChangeNothing : Obligations.SnapshotsChangeNothing := by
  refine ⟨fun after straps p s => ⟨fun h => ⟨?_, length_statusBytes _⟩, fun h => ⟨?_, rfl⟩,
    fun h => ⟨?_, length_rosterBytes (s.advance after)⟩,
    fun h => ⟨?_, rfl⟩⟩, fun s => ?_⟩
  · exact exec_requestCommand_of_takes (q := .readStatus) after straps h
  · exact exec_requestCommand_of_takes (q := .readTrial) after 0 h
  · exact exec_requestCommand_of_takes (q := .readRoster) after 0 h
  · exact exec_requestCommand_of_takes (q := .readCheck) after 0 h
  · intro piece
    have hhigh : (8000 + 6 * s.trim.applied).toNat = trmHigh s.trim.applied := rfl
    have hfree : 256 - s.log.records.length = s.freeRecords := rfl
    simp only [← loadWord_eq, ← speedWord_eq, ← headSeq_eq, hhigh, hfree]
    have fromNode : ∀ i count {bytes}, i + count ≤ 33 → (s.statusNode.drop i).take count = bytes → piece i count = bytes :=
      fun i count _ h hb => (statusBytes_take_node s h).trans hb
    have fromSection : ∀ i count {bytes}, (((bytes24 (speedWord s.meas.speed) ++ bytes16 (loadWord s.meas.load)
        ++ ([flagByte s.meas.sharesComputed, flagByte s.meas.alarm, byteOf s.meas.outRun, byteOf s.meas.inRun]
          ++ (s.statusDraw ++ s.statusTrims ++ s.statusRest))).drop i).take count = bytes) →
        piece (77 + i) count = bytes :=
      fun i count _ h => (congrArg (List.take count) (statusBytes_drop_section s i)).trans h
    have fromDraw : ∀ i count, piece (86 + i) count = ((s.statusDraw ++ s.statusTrims ++ s.statusRest).drop i).take count :=
      fun i count => congrArg (List.take count) (statusBytes_drop_draw s i)
    have fromTrims : ∀ i count {bytes}, ((s.statusTrims ++ s.statusRest).drop i).take count = bytes →
        piece (100 + i) count = bytes :=
      fun i count _ h => (congrArg (List.take count) (statusBytes_drop_trims s i)).trans h
    have fromRest : ∀ i count {bytes}, (s.statusRest.drop i).take count = bytes → piece (126 + i) count = bytes :=
      fun i count _ h => (congrArg (List.take count) (statusBytes_drop_rest s i)).trans h
    refine ⟨fromNode 0 10 (by decide) ?_, fromNode 10 16 (by decide) ?_, fromNode 26 4 (by decide) ?_, statusBytes_filters s,
      (nth_statusBytes_node s (by decide)).trans ?_,
      fun n => (statusBytes_measure s n).trans (measureBytes_eq s n), fromSection 0 5 ?_, fromSection 5 4 ?_, ?_, ?_, ?_,
      fromTrims 0 8 ?_, fromTrims 8 3 ?_, fromTrims 11 5 ?_, fun n => ?_, fromTrims 24 2 ?_, fromRest 0 3 ?_,
      fromRest 3 8 ?_, fromRest 11 2 ?_, fromRest 13 4 ?_, fromRest 17 17 ?_, ?_,
      fun u => ⟨congrArg (List.take 3) (rosterBytes_entry s u), congrArg (List.drop 3) (rosterBytes_entry s u)⟩, ?_⟩
    · simp [State.statusNode, flagByte]
    · simp [State.statusNode, stations]
    · simp [State.statusNode, stations, channels]
    · rfl
    · simp [bytes24, bytes16]
    · simp [bytes24, bytes16, flagByte]
    · refine (fromDraw 0 5).trans ?_
      cases hd : s.draw.state <;> simp [State.statusDraw, hd, signed16, bytes16, DrawState.codes]
    · refine (fromDraw 5 5).trans ?_
      cases hd : s.draw.state <;> simp [State.statusDraw, hd, signed16, bytes16, DrawState.codes, flagByte]
    · refine (fromDraw 10 4).trans ?_
      cases hd : s.draw.state <;> simp [State.statusDraw, hd, signed16, bytes16, bytes24, DrawState.codes]
    · simp [State.statusTrims, signed16, bytes16]
    · simp [State.statusTrims, signed16, unsigned16, bytes16]
    · simp [State.statusTrims, signed16, unsigned16, bytes16]
    · refine Eq.trans (congrArg (fun i => piece i 2) (show 116 + 2 * n.val = 100 + (16 + 2 * n.val) by omega))
        (fromTrims _ 2 ?_)
      fin_cases n <;> simp [State.statusTrims, signed16, unsigned16, bytes16, Quad.get]
    · simp [State.statusTrims, signed16, unsigned16, bytes16, flagByte]
    · simp [State.statusRest, flagByte]
    · simp [State.statusRest, unsigned16, bytes16]
    · simp [State.statusRest, unsigned16, bytes16, flagByte]
    · simp [State.statusRest, unsigned16, bytes16]
    · simp [State.statusRest, unsigned16, bytes16]
    · exact trialBytes_layout s
    · rfl

end Sys2Proof.Machine
end

section
/-! PROOFS. CONFIGURE: the fields of the record, the checks of the field table in their order, and the start of the blocks
(R184 to R186). -/

namespace Sys2Proof.Machine

/-! ### Words of bytes (00, Byte order) -/

theorem word16_toNat (p : List Byte) (i : Nat) :
    (word16 p i).toNat = 256 * (nth p i).toNat + (nth p (i + 1)).toNat := by
  rw [word16, BitVec.toNat_append, ← Nat.shiftLeft_add_eq_or_of_lt (nth p (i + 1)).isLt, Nat.shiftLeft_eq]
  omega

theorem word24_toNat (p : List Byte) (i : Nat) :
    (word24 p i).toNat = 65536 * (nth p i).toNat + (256 * (nth p (i + 1)).toNat + (nth p (i + 2)).toNat) := by
  rw [word24, BitVec.toNat_append, ← Nat.shiftLeft_add_eq_or_of_lt (word16 p (i + 1)).isLt, Nat.shiftLeft_eq,
    word16_toNat, Nat.add_assoc i 1 1]
  omega

theorem word16_toInt (p : List Byte) (i : Nat) :
    (word16 p i).toInt = if 256 * (nth p i).toNat + (nth p (i + 1)).toNat < 32768
      then ((256 * (nth p i).toNat + (nth p (i + 1)).toNat : Nat) : Int)
      else ((256 * (nth p i).toNat + (nth p (i + 1)).toNat : Nat) : Int) - 65536 := by
  rw [BitVec.toInt, word16_toNat]
  split <;> split <;> omega

theorem lowerNibble_val (b : Byte) : (lowerNibble b).val = b.toNat % 16 := by
  simp [lowerNibble, BitVec.extractLsb']

theorem lowerNibble_eq_iff {b : Byte} (h : b.toNat ≤ 15) (v : Station) : lowerNibble b = v ↔ b.toNat = v.val := by
  rw [Fin.ext_iff, lowerNibble_val]
  omega

theorem upstream_ofBytes (p : List Byte) (v : Station) :
    (ConfigRecord.ofBytes p).upstream = some v ↔ (nth p 1).toNat = v.val := by
  show (if (nth p 1).toNat ≤ 15 then some (lowerNibble (nth p 1)) else none) = some v ↔ _
  split
  next h => rw [Option.some_inj, lowerNibble_eq_iff h]
  next h => simp; omega

/-! ### The first failing field (R184) -/

/-- The indices of a record's checks, by the channels below its drive count. -/
def checkIndices (below : Channel → Bool) : List Nat :=
  [1, 2, 3] ++ channels.flatMap (fun n => if below n then
    [4 + 5 * n.val, 5 + 5 * n.val, 6 + 5 * n.val, 7 + 5 * n.val, 8 + 5 * n.val] else [])
  ++ [24, 25, 26, 27, 28, 29, 30, 31, 32, 33, 34, 35, 36, 37, 38, 39, 40]

theorem checkIndices_rise (below : Channel → Bool) :
    (checkIndices below).Pairwise (· < ·) ∧ ∀ i ∈ checkIndices below, 1 ≤ i ∧ i ≤ 40 := by
  revert below; decide

theorem map_fst_channelChecks (c : ConfigRecord) (n : Channel) :
    (c.channelChecks n).map (·.1) = if decide (n.val < c.driveCount) then
      [4 + 5 * n.val, 5 + 5 * n.val, 6 + 5 * n.val, 7 + 5 * n.val, 8 + 5 * n.val] else [] := by
  rw [ConfigRecord.channelChecks]
  split <;> simp [*]

theorem map_fst_configChecks (own : Station) (p : List Byte) :
    (configChecks own p).map (·.1) = checkIndices fun n => n.val < (ConfigRecord.ofBytes p).driveCount := by
  simp only [configChecks, checkIndices, List.map_append, map_fst_channelChecks, channels, List.flatMap_cons,
    List.flatMap_nil, List.append_assoc, List.append_nil]
  rfl

/-- The checks of one field index all pass. -/
def fieldPasses (own : Station) (p : List Byte) (i : Nat) : Prop := ∀ k ∈ configChecks own p, k.1 = i → k.2 = true

theorem configFailure_eq_none_iff (own : Station) (p : List Byte) :
    configFailure own p = none ↔ ∀ i : Nat, 1 ≤ i → i ≤ 40 → fieldPasses own p i := by
  rw [configFailure, Option.map_eq_none_iff, List.find?_eq_none]
  constructor
  · intro h i _ _ k hk _
    simpa using h k hk
  · intro h k hk
    have hrange := (checkIndices_rise _).2 k.1 (map_fst_configChecks own p ▸ List.mem_map_of_mem hk)
    simpa using h k.1 hrange.1 hrange.2 k hk rfl

/-- The first check of a rising list that fails. -/
theorem find_failing_eq_some_iff {l : List (Nat × Bool)} (h : (l.map (·.1)).Pairwise (· < ·)) (i : Nat) :
    (l.find? fun k => !k.2).map (·.1) = some i ↔ (i, false) ∈ l ∧ ∀ k ∈ l, k.1 < i → k.2 = true := by
  induction l with
  | nil => simp
  | cons x l ih =>
    rw [List.map_cons, List.pairwise_cons] at h
    obtain ⟨hfirst, hrest⟩ := h
    have hlater : ∀ k ∈ l, x.1 < k.1 := fun k hk => hfirst k.1 (List.mem_map_of_mem hk)
    obtain ⟨j, b⟩ := x
    cases b with
    | true => simp [ih hrest]
    | false =>
      constructor
      · intro hj
        obtain rfl : j = i := by simpa using hj
        exact ⟨List.mem_cons_self, fun k hk hlt => by
          rcases List.mem_cons.mp hk with rfl | hk
          · exact absurd hlt (lt_irrefl _)
          · exact absurd hlt (not_lt.mpr (hlater k hk).le)⟩
      · rintro ⟨hmem, hbefore⟩
        rcases List.mem_cons.mp hmem with heq | hmem
        · simp [(Prod.mk.inj heq).1]
        · exact absurd (hbefore (j, false) List.mem_cons_self (hlater _ hmem)) (by simp)

theorem configFailure_eq_some_iff (own : Station) (p : List Byte) (i : Nat) :
    configFailure own p = some i ↔
      1 ≤ i ∧ i ≤ 40 ∧ ¬fieldPasses own p i ∧ ∀ j : Nat, 1 ≤ j → j < i → fieldPasses own p j := by
  have hrise := checkIndices_rise fun n => n.val < (ConfigRecord.ofBytes p).driveCount
  rw [← map_fst_configChecks own p] at hrise
  rw [configFailure, find_failing_eq_some_iff hrise.1]
  constructor
  · rintro ⟨hmem, hbefore⟩
    obtain ⟨hlow, hhigh⟩ := hrise.2 i (List.mem_map_of_mem (f := (·.1)) hmem)
    exact ⟨hlow, hhigh, fun h => by simpa using h _ hmem rfl, fun j _ hji k hk hkj => hbefore k hk (hkj ▸ hji)⟩
  · rintro ⟨-, -, hfails, hbefore⟩
    simp only [fieldPasses, not_forall] at hfails
    obtain ⟨⟨j, b⟩, hk, rfl, hb⟩ := hfails
    obtain rfl : b = false := Bool.eq_false_iff.mpr hb
    refine ⟨hk, fun k hk hlt => ?_⟩
    exact hbefore k.1 (hrise.2 k.1 (List.mem_map_of_mem (f := (·.1)) hk)).1 hlt k hk rfl

theorem within_iff {lo hi x : Nat} : within lo hi x = true ↔ lo ≤ x ∧ x ≤ hi := by simp [within]
theorem withinInt_iff {lo hi x : Int} : withinInt lo hi x = true ↔ lo ≤ x ∧ x ≤ hi := by simp [withinInt]

/-- A channel's fields pass under the conditions of the field table. -/
theorem channelChecks_pass_iff (c : ConfigRecord) (n : Channel) (i : Nat) :
    (∀ k ∈ c.channelChecks n, k.1 = i → k.2 = true) ↔ (n.val < c.driveCount →
      (i = 4 + 5 * n.val → 1 ≤ (c.chan.get n).pulse ∧ (c.chan.get n).pulse ≤ 16777215)
        ∧ (i = 5 + 5 * n.val → 50 ≤ (c.chan.get n).share ∧ (c.chan.get n).share ≤ 1000
          ∧ (n.val + 1 = c.driveCount → c.shareSum = 1000))
        ∧ (i = 6 + 5 * n.val → 1 ≤ (c.chan.get n).expected ∧ (c.chan.get n).expected ≤ 65535)
        ∧ (i = 7 + 5 * n.val → 100 ≤ (c.chan.get n).f0 ∧ (c.chan.get n).f0 ≤ 50000)
        ∧ (i = 8 + 5 * n.val → (c.chan.get n).f0 + 100 ≤ (c.chan.get n).f100 ∧ (c.chan.get n).f100 ≤ 65535)) := by
  rw [ConfigRecord.channelChecks]
  split
  next h =>
    simp only [List.forall_mem_cons, List.not_mem_nil, false_imp_iff, implies_true, and_true, h, true_imp_iff, within_iff,
      Bool.and_eq_true, Bool.or_eq_true, bne_iff_ne, decide_eq_true_eq, ne_eq, ← imp_iff_not_or, and_assoc, eq_comm (b := i)]
  next h => simp [h]

/-- The fields pass under the conditions of the field table (R185). -/
theorem fieldPasses_iff (own : Station) (p : List Byte) (i : Nat) :
    let c := ConfigRecord.ofBytes p
    fieldPasses own p i ↔ (i = 1 → (nth p 0).toNat ≤ 3) ∧ (i = 2 → nth p 1 = 0xFF ∨ (nth p 1).toNat < own.val)
        ∧ (i = 3 → 1 ≤ c.driveCount ∧ c.driveCount ≤ 4)
        ∧ (∀ n : Channel, n.val < c.driveCount →
            (i = 4 + 5 * n.val → 1 ≤ (c.chan.get n).pulse ∧ (c.chan.get n).pulse ≤ 16777215)
              ∧ (i = 5 + 5 * n.val → 50 ≤ (c.chan.get n).share ∧ (c.chan.get n).share ≤ 1000
                ∧ (n.val + 1 = c.driveCount → c.shareSum = 1000))
              ∧ (i = 6 + 5 * n.val → 1 ≤ (c.chan.get n).expected ∧ (c.chan.get n).expected ≤ 65535)
              ∧ (i = 7 + 5 * n.val → 100 ≤ (c.chan.get n).f0 ∧ (c.chan.get n).f0 ≤ 50000)
              ∧ (i = 8 + 5 * n.val → (c.chan.get n).f0 + 100 ≤ (c.chan.get n).f100 ∧ (c.chan.get n).f100 ≤ 65535))
        ∧ (i = 24 → c.fastWidth ≤ 15) ∧ (i = 25 → 1 ≤ c.slowTime ∧ c.slowTime ≤ 255)
        ∧ (i = 26 → 100 ≤ c.stallTime ∧ c.stallTime ≤ 5000) ∧ (i = 27 → 1 ≤ c.minSpeed ∧ c.minSpeed ≤ 300000)
        ∧ (i = 28 → c.minLoad ≤ 4000) ∧ (i = 29 → 1 ≤ c.slipTolerance ∧ c.slipTolerance ≤ 1000)
        ∧ (i = 30 → 1 ≤ c.shareTolerance ∧ c.shareTolerance ≤ 1000)
        ∧ (i = 31 → -3000 ≤ c.softLow ∧ c.softLow ≤ 3000)
        ∧ (i = 32 → -3000 ≤ c.softHigh ∧ c.softHigh ≤ 3000 ∧ c.softLow < c.softHigh)
        ∧ (i = 33 → -3000 ≤ c.hardLow ∧ c.hardLow ≤ 3000 ∧ c.hardLow ≤ c.softLow)
        ∧ (i = 34 → -3000 ≤ c.hardHigh ∧ c.hardHigh ≤ 3000 ∧ c.softHigh ≤ c.hardHigh)
        ∧ (i = 35 → 1 ≤ c.trimLimit ∧ c.trimLimit ≤ 1000) ∧ (i = 36 → 1 ≤ c.shareTrimLimit ∧ c.shareTrimLimit ≤ 200)
        ∧ (i = 37 → 1 ≤ c.rampNormal ∧ c.rampNormal ≤ 1000) ∧ (i = 38 → 1 ≤ c.rampTrial ∧ c.rampTrial ≤ 1000)
        ∧ (i = 39 → 1 ≤ c.rampRecovery ∧ c.rampRecovery ≤ 1000) ∧ (i = 40 → (nth p 77).toNat ≤ 1) := by
  intro c
  simp only [Fin.forall_fin_succ, IsEmpty.forall_iff, and_true, ← channelChecks_pass_iff]
  simp only [fieldPasses, configChecks, List.forall_mem_append, List.forall_mem_cons, List.not_mem_nil, false_imp_iff,
    implies_true, and_true, within_iff, withinInt_iff, Bool.and_eq_true, Bool.or_eq_true, decide_eq_true_eq, and_assoc,
    eq_comm (b := i), zero_le, true_and]
  rfl

/-- Settles O16: the fields by the values of their bytes, the checks by the first one that fails, the effect by its state. -/
theorem configureChecksAndAccepts : Obligations.ConfigureChecksAndAccepts := by
  refine ⟨fun p => ?_, fun own p => ⟨?_, fun i => ?_⟩, fun after p s h => ⟨fun i hi => ?_, fun hnone => ?_⟩⟩
  · intro c u1 u2 u3 s2
    have hu2 : ∀ i, (word16 p i).toNat = u2 i := word16_toNat p
    have hu3 : ∀ i, (word24 p i).toNat = u3 i := word24_toNat p
    have hs2 : ∀ i, (word16 p i).toInt = s2 i := fun i => (word16_toInt p i).trans (by simp only [s2, u2, u1])
    refine ⟨rfl, upstream_ofBytes p, rfl, fun n => ?_, rfl, rfl, hu2 49, hu3 51, hu2 54, hu2 56, hu2 58, hs2 60, hs2 62, hs2 64,
      hs2 66, hu2 68, rfl, hu2 71, hu2 73, hu2 75, ?_⟩
    · rw [show (ConfigRecord.ofBytes p).chan.get n = ChannelConfig.ofBytes p n from Quad.get_ofFn _ n]
      simp only [ChannelConfig.ofBytes, hu2, hu3]
      congr 2 <;> omega
    · show decide (nth p 77 = 1) = true ↔ _
      rw [decide_eq_true_eq, ← BitVec.toNat_inj]
      rfl
  · exact (configFailure_eq_none_iff own p).trans (by simp only [fieldPasses_iff]; rfl)
  · exact (configFailure_eq_some_iff own p i).trans (by simp only [fieldPasses_iff]; rfl)
  · refine (exec_requestCommand_of_takes (q := .configure) after 0 h).trans ?_
    simp only [Request.work, configureWork, advance_station, hi]
  · have hwork : configureWork p (s.advance after)
        = ((s.advance after).acceptConfig (ConfigRecord.ofBytes p), .ok [byteOf s.station.val]) := by
      simp only [configureWork, advance_station, hnone]
    refine ⟨_, (exec_requestCommand_of_takes (q := .configure) after 0 h).trans
      (congrArg (fun w : State × Response => Host.Outcome.next (w.1.answer w.2)) hwork), ?_⟩
    refine ⟨rfl, rfl, rfl, rfl, rfl, rfl, rfl, rfl, fun n => ⟨Quad.get_ofFn _ n, Quad.get_ofFn _ n, Quad.get_ofFn _ n,
      Quad.get_all _ n, Quad.get_ofFn _ n⟩, rfl, rfl, advance_roster _ _, advance_trial _ _, advance_trim _ _, advance_log _ _,
      advance_brk _ _, advance_meas _ _, advance_draw _ _, advance_check _ _, advance_pwm _ _⟩

end Sys2Proof.Machine
end

section
/-! PROOFS. The requests that ask something of the blocks: the link, the trial, the trims, the log, the revolution check,
the channels and the break (02, 03, 04, 06, 08 to 10). -/

namespace Sys2Proof.Machine

section

variable {s : State}

/-! ### What a wait leaves of the conditions that the requests check -/

@[simp] theorem advance_cfg (s : State) (d : Wait) : (s.advance d).cfg = s.cfg := by simp [State.cfg]
@[simp] theorem advance_trialIdle (s : State) (d : Wait) : (s.advance d).trialIdle = s.trialIdle := by simp [State.trialIdle]
@[simp] theorem advance_isMember (s : State) (d : Wait) : (s.advance d).isMember = s.isMember := by simp [State.isMember]
@[simp] theorem advance_checkUnderWay (s : State) (d : Wait) : (s.advance d).checkUnderWay = s.checkUnderWay := by
  simp [State.checkUnderWay]
@[simp] theorem advance_entry (s : State) (d : Wait) (u : Station) : (s.advance d).entry u = s.entry u :=
  entry_congr (advance_roster s d) u
@[simp] theorem advance_isFaulted (s : State) (d : Wait) (n : Channel) : (s.advance d).isFaulted n = s.isFaulted n := by
  simp [State.isFaulted]

/-- A request that is taken answers what its work gives. -/
theorem exec_requestCommand_of_work {q : Request} {straps : BitVec 4} {p : List Byte} {after : Wait} {t : State}
    {r : Response} (h : s.takes q p) (hw : q.work straps p (s.advance after) = (t, r)) :
    exec (q.command after straps) s = .next (t.answer r) := by
  rw [exec_requestCommand_of_takes after straps h, hw]

@[simp] theorem answer_hasEvent (s : State) (r : Response) (e : Event) : (s.answer r).hasEvent e = s.hasEvent e := rfl

end

/-- Settles O17: both requests by their work, a LEAVE by the link state that it finds. -/
theorem joinAndLeave : Obligations.JoinAndLeave := by
  intro after p s a
  refine ⟨fun h => exec_requestCommand_of_takes (q := .join) after 0 h, fun h hl => ?_, fun h hl hidle => ?_,
    fun h hl hbusy => ?_⟩
  · have hwork : leaveWork p a = (a.enterStandby.raise .left, .ok []) := by simp [leaveWork, a, hl]
    refine ⟨_, exec_requestCommand_of_work (q := .leave) (straps := 0) h hwork, ?_⟩
    have hround : ((a.enterStandby.raise .left).answer (.ok [])).round
        = { a.round with windowOpen := false, synced := false, ownSlot := .unobserved } := by
      rw [answer_round, raise_round, enterStandby_round]
    refine ⟨?_, ?_, fun u => ?_, ?_, ?_, ?_, rfl⟩
    · rw [answer_link, raise_link, enterStandby_link]
    · rw [answer_hasEvent, hasEvent_raise]
    · rw [entry_congr ((answer_roster _ _).trans (raise_roster _ _)), entry_enterStandby]
    · rw [answer_line, raise_line, enterStandby_line]
    · rw [hround]; simp [a]
    · rw [hround]; simp [a]
  · have hwork : leaveWork p a = ({ a with link := { a.link with state := .leaving, leave := .owed } }, .ok []) := by
      simp [leaveWork, a, hl, hidle]
    exact exec_requestCommand_of_work (q := .leave) (straps := 0) h hwork
  · have hwork : leaveWork p a = (a, .refused .busy) := by simp [leaveWork, a, hl, hbusy]
    exact exec_requestCommand_of_work (q := .leave) (straps := 0) h hwork

/-! ### The requests to the Trial Controller (R44, R49, R64) -/

section

variable {s : State}

theorem ofCode_kind_ne_none_iff (n : Nat) : TrialKind.ofCode n ≠ .none ↔ 1 ≤ n ∧ n ≤ 3 := by
  match n with
  | 0 | 1 | 2 | 3 | n + 4 => simp [TrialKind.ofCode]

theorem ofCode_kind_eq_watch_iff (n : Nat) : TrialKind.ofCode n = .watch ↔ n = 1 := by
  unfold TrialKind.ofCode
  split <;> simp_all

theorem code_ofCode_kind {n : Nat} (h : 1 ≤ n ∧ n ≤ 3) : (TrialKind.ofCode n).code.toNat = n := by
  obtain ⟨h1, h3⟩ := h
  interval_cases n <;> rfl

/-- The step of a byte lies within −127 to +127 unless it is the byte of −128. -/
theorem toInt_byte_iff (b : Byte) : (-127 ≤ b.toInt ∧ b.toInt ≤ 127) ↔ b.toNat ≠ 0x80 := by
  rw [BitVec.toInt]
  have := b.isLt
  split <;> omega

theorem toInt_byte_eq_zero_iff (b : Byte) : b.toInt = 0 ↔ b.toNat = 0 := by
  rw [BitVec.toInt]
  have := b.isLt
  split <;> omega

theorem channel_of_byte_val {b : Byte} (h : b.toNat ≤ 3) : ((b.extractLsb' 0 2).toFin : Channel).val = b.toNat := by
  simp [BitVec.extractLsb']; omega

/-- PROPOSE_TRIAL's parameters keep R44 when their bytes do. -/
theorem ofRequest_valid_iff (b : List Byte) :
    (TrialParams.ofRequest b).valid = true ↔
      1 ≤ (nth b 0).toNat ∧ (nth b 0).toNat ≤ 3 ∧ (nth b 1).toNat ≤ 3 ∧ (nth b 3).toNat ≤ (nth b 2).toNat
        ∧ (nth b 2).toNat ≤ (nth b 4).toNat ∧ (nth b 4).toNat ≤ 15 ∧ (nth b 5).toNat ≠ 0x80 ∧ 1 ≤ (nth b 6).toNat
        ∧ (nth b 6).toNat ≤ 200 ∧ ((nth b 0).toNat = 1 → (nth b 5).toNat = 0 ∧ (nth b 2).toNat = (nth b 3).toNat) := by
  by_cases hrange : (nth b 1).toNat ≤ 3 ∧ (nth b 2).toNat ≤ 15 ∧ (nth b 3).toNat ≤ 15 ∧ (nth b 4).toNat ≤ 15
  · obtain ⟨hdrive, htarget, hfirst, hlast⟩ := hrange
    simp only [TrialParams.ofRequest, TrialParams.valid, hdrive, htarget, hfirst, hlast, decide_true, Bool.and_self, if_true,
      Bool.and_eq_true, Bool.or_eq_true, bne_iff_ne, decide_eq_true_eq, Fin.le_def, Fin.ext_iff, lowerNibble_val,
      ofCode_kind_ne_none_iff, ← imp_iff_not_or, ne_eq, ofCode_kind_eq_watch_iff, toInt_byte_eq_zero_iff]
    have hstep := toInt_byte_iff (nth b 5)
    rw [Nat.mod_eq_of_lt (by omega), Nat.mod_eq_of_lt (by omega), Nat.mod_eq_of_lt (by omega)]
    constructor
    · rintro ⟨⟨⟨⟨⟨⟨⟨⟨hkind, h1⟩, h2⟩, h3⟩, h4⟩, h5⟩, h6⟩, h7⟩, h8⟩
      exact ⟨hkind.1, hkind.2, trivial, h2, h3, trivial, hstep.mp ⟨h4, h5⟩, h6, h7, h8⟩
    · rintro ⟨h0, h1, -, h2, h3, -, h5, h6, h7, h8⟩
      exact ⟨⟨⟨⟨⟨⟨⟨⟨⟨h0, h1⟩, h2.trans h3⟩, h2⟩, h3⟩, (hstep.mpr h5).1⟩, (hstep.mpr h5).2⟩, h6⟩, h7⟩, h8⟩
  · have hkind : (TrialParams.ofRequest b).kind = .none := by
      simp only [TrialParams.ofRequest, Bool.and_eq_true, decide_eq_true_eq]
      exact if_neg (by simpa only [and_assoc] using hrange)
    have hinvalid : (TrialParams.ofRequest b).valid = false := by simp [TrialParams.valid, hkind]
    simp only [hinvalid, Bool.false_eq_true, false_iff]
    omega

/-- Another station that reports GO or RUN keeps a proposal from being taken. -/
theorem busyStation_isSome_iff (s : State) :
    s.busyStation.isSome = true ↔ ∃ t : Station, t ≠ s.station ∧ (s.entry t).presence = .present
      ∧ ((s.entry t).report.phase = .go ∨ (s.entry t).report.phase = .run) := by
  have hmem : ∀ t : Station, t ∈ stations := by decide
  simp [State.busyStation, State.busyAt, hmem, and_assoc]

end

/-- Settles O18: the bytes by the fields that they give, the answer by the first check that fails. -/
theorem proposeTrialChecks : Obligations.ProposeTrialChecks := by
  intro after b s h a p byte busy
  have hbusy : a.busyStation.isSome = true ↔ ∃ t : Station, t ≠ s.station ∧ (s.entry t).presence = .present
      ∧ ((s.entry t).report.phase = .go ∨ (s.entry t).report.phase = .run) := by
    rw [busyStation_isSome_iff]; simp [a]
  have hrefused : (!a.trialIdle || a.busyStation.isSome) = true ↔ busy := by
    simp only [Bool.or_eq_true, Bool.not_eq_true', hbusy, busy]
    simp [a]
  have hwork : ∀ {t : State} {r : Response}, proposeTrialWork b a = (t, r) →
      exec (.proposeTrial after) s = .next (t.answer r) :=
    fun hw => exec_requestCommand_of_work (q := .proposeTrial) (straps := 0) h hw
  refine ⟨ofRequest_valid_iff b, fun hv => ?_, fun hb => hwork ?_, fun hb hv => hwork ?_, fun hb hv habs => hwork ?_,
    fun hb hv hpres => hwork ?_⟩
  · obtain ⟨h0, h1, h2, h3, h4, h5, -, -, -, -⟩ := (ofRequest_valid_iff b).mp hv
    have hkind : (TrialParams.ofRequest b).kind = TrialKind.ofCode (nth b 0).toNat := by
      simp only [TrialParams.ofRequest]
      rw [if_pos (by simp; omega)]
    refine ⟨by rw [hkind, code_ofCode_kind ⟨h0, h1⟩], channel_of_byte_val h2, ?_, ?_, ?_, rfl, rfl⟩
    · exact (lowerNibble_val _).trans (Nat.mod_eq_of_lt (by omega))
    · exact (lowerNibble_val _).trans (Nat.mod_eq_of_lt (by omega))
    · exact (lowerNibble_val _).trans (Nat.mod_eq_of_lt (by omega))
  · rw [proposeTrialWork]; exact if_pos (hrefused.mpr hb)
  · simp only [proposeTrialWork]
    rw [if_neg (fun x => hb (hrefused.mp x)), if_pos (by simpa using hv)]
  · simp only [proposeTrialWork]
    rw [if_neg (fun x => hb (hrefused.mp x)), if_neg (by simpa using hv), if_pos (by simpa [a] using habs)]
  · simp only [proposeTrialWork]
    rw [if_neg (fun x => hb (hrefused.mp x)), if_neg (by simpa using hv), if_neg (by simpa [a] using hpres)]
    simp [a, p]

/-- Settles O19: by the local phase, and in IDLE by the pending request. -/
theorem abortTrialByPhase : Obligations.AbortTrialByPhase := by
  intro after b s h a
  have hwork : ∀ {t : State} {r : Response}, abortTrialWork b a = (t, r) →
      exec (.abortTrial after) s = .next (t.answer r) :=
    fun hw => exec_requestCommand_of_work (q := .abortTrial) (straps := 0) h hw
  have htrial : a.trial = s.trial := by simp [a]
  refine ⟨fun id p hphase hreq => ?_, fun hnone => hwork ?_, fun hphase hmember => hwork ?_, fun hphase => hwork ?_⟩
  · refine ⟨_, hwork (by simp only [abortTrialWork, htrial, hphase, hreq]; rfl), ?_, ?_,
      (answer_hasEvent _ _ _).trans (hasEvent_raise _ _), rfl⟩
    · simp [State.answer, hphase]
    · simp [State.answer, a]
  · rcases hnone with ⟨hphase, hreq⟩ | hphase
    · simp only [abortTrialWork, htrial, hphase, hreq]
    · simp only [abortTrialWork, htrial, hphase]
  · simp [abortTrialWork, htrial, hphase, show a.isMember = true by simpa [a] using hmember]
  · rcases hphase with ⟨hphase, hother⟩ | hphase | hphase | hphase
    · simp [abortTrialWork, htrial, hphase, show a.isMember = false by simpa [a] using hother, State.requestAbort]
    · simp [abortTrialWork, htrial, hphase, State.requestAbort]
    · simp [abortTrialWork, htrial, hphase, State.requestAbort]
    · simp [abortTrialWork, htrial, hphase, State.requestAbort]

/-! ### MANUAL_TRIM, SNAP and FLUSH_LOG (R132, R164, R165) -/

/-- Settles O20: by the checks of MANUAL_TRIM in their order. -/
theorem manualTrimChecks : Obligations.ManualTrimChecks := by
  intro after p s h a v
  have hwork : ∀ {t : State} {r : Response}, manualTrimWork p a = (t, r) →
      exec (.manualTrim after) s = .next (t.answer r) :=
    fun hw => exec_requestCommand_of_work (q := .manualTrim) (straps := 0) h hw
  refine ⟨fun hbusy => hwork ?_, fun hidle hlatch => hwork ?_, fun hidle hlatch hbig => hwork ?_,
    fun hidle hlatch hsmall => hwork ?_⟩
  · simp [manualTrimWork, a, hbusy]
  · simp [manualTrimWork, a, hidle, hlatch]
  · simp [manualTrimWork, a, hidle, hlatch, show s.cfg.trimLimit < (word16 p 0).toInt.natAbs from hbig]
  · have hnot : ¬s.cfg.trimLimit < (word16 p 0).toInt.natAbs := not_lt.mpr hsmall
    simp [manualTrimWork, a, hidle, hlatch, hnot, v, State.setManual, State.setClass, State.reselect, State.breakInForce]

/-- Settles O21: by the checks of each request in their order. -/
theorem snapAndFlushLog : Obligations.SnapAndFlushLog := by
  intro after p s a
  refine ⟨fun h hbusy => exec_requestCommand_of_work (q := .snap) (straps := 0) h ?_,
    fun h hidle hfull => exec_requestCommand_of_work (q := .snap) (straps := 0) h ?_,
    fun h hidle hroom => exec_requestCommand_of_work (q := .snap) (straps := 0) h ?_,
    fun h hbusy => exec_requestCommand_of_work (q := .flushLog) (straps := 0) h ?_,
    fun h hidle => exec_requestCommand_of_work (q := .flushLog) (straps := 0) h ?_⟩
  · simp [Request.work, snapWork, hbusy, a]
  · simp [Request.work, snapWork, hidle, Config.logCapacity, hfull, a]
  · have hnot : ¬Config.logCapacity ≤ s.log.records.length := not_le.mpr hroom
    have hlt : s.log.records.length < Config.logCapacity := hroom
    simp [Request.work, snapWork, hidle, hnot, hlt, State.appendRecord, a]
  · simp [Request.work, flushLogWork, hbusy, a]
  · simp [Request.work, flushLogWork, hidle, unsigned16, a]

/-! ### The revolution check's requests (R108, R114) -/

theorem channel_of_byte {b : Byte} {n : Channel} (h : b.toNat = n.val) : ((b.extractLsb' 0 2).toFin : Channel) = n :=
  Fin.ext ((channel_of_byte_val (by omega)).trans h)

/-- Settles O22: by the checks of each request in their order. -/
theorem revCheckAndCancel : Obligations.RevCheckAndCancel := by
  intro after p s a
  have hrev : ∀ {t : State} {r : Response}, s.takes .revCheck p → revCheckWork p a = (t, r) →
      exec (.revCheck after) s = .next (t.answer r) :=
    fun h hw => exec_requestCommand_of_work (q := .revCheck) (straps := 0) h hw
  have hcancel : ∀ {t : State} {r : Response}, s.takes .cancelCheck p → cancelCheckWork p a = (t, r) →
      exec (.cancelCheck after) s = .next (t.answer r) :=
    fun h hw => exec_requestCommand_of_work (q := .cancelCheck) (straps := 0) h hw
  refine ⟨fun h hbig => hrev h ?_, fun h hsmall hway => hrev h ?_, fun n h hn hway hnot => hrev h ?_,
    fun n h hn hway hready => hrev h ?_, fun h hway => ?_, fun h hway => hcancel h ?_⟩
  · simp [revCheckWork, hbig]
  · simp [revCheckWork, not_lt.mpr hsmall, hway, a]
  · have hle : ¬3 < (nth p 0).toNat := by omega
    have hready : a.ready n = false := by simp [State.ready, a, hnot]
    simp only [revCheckWork, channel_of_byte hn, if_neg hle, hready]
    simp [hway, a]
  · have hle : ¬3 < (nth p 0).toNat := by omega
    have hready : a.ready n = true := by simp [State.ready, a, hready]
    simp only [revCheckWork, channel_of_byte hn, if_neg hle, hready]
    simp [hway, a, State.armCheck]
  · refine ⟨_, hcancel h (by simp [cancelCheckWork, hway, a]; rfl), ?_,
      (answer_hasEvent _ _ _).trans (hasEvent_raise _ _), rfl⟩
    simp [State.answer, a]
  · simp [cancelCheckWork, hway, a]

/-! ### CLEAR_FAULTS and CLEAR_BREAK (R87, R96, R153) -/

section

variable {s : State}

/-- A channel is one that CLEAR_FAULTS releases. -/
def State.clearable (s : State) (n : Channel) : Prop := s.isFaulted n = true ∧ (s.inputs.flt.get n).active = false

theorem releaseChannel_of_clearable {n : Channel} (h : s.clearable n) :
    s.releaseChannel n = { s with
      chans := s.chans.set n (if (s.inputs.rdy.get n).active then .ready else .offline)
      meas := { s.meas with chan := s.meas.chan.set n { s.meas.chan.get n with slip := 0 } } } := by
  obtain ⟨hfaulted, hflt⟩ := h
  rw [State.releaseChannel, if_pos (by simp [hfaulted, State.fltActive, hflt])]
  rfl

theorem releaseChannel_of_not_clearable {n : Channel} (h : ¬s.clearable n) : s.releaseChannel n = s := by
  rw [State.releaseChannel, if_neg]
  simpa [State.clearable, State.fltActive] using h

/-- The release of a channel leaves every other channel, and all blocks but the channels and the measurement. -/
theorem releaseChannel_other {m n : Channel} (h : n ≠ m) :
    (s.releaseChannel m).chans.get n = s.chans.get n ∧ (s.releaseChannel m).meas.chan.get n = s.meas.chan.get n := by
  by_cases hm : s.clearable m
  · rw [releaseChannel_of_clearable hm]
    exact ⟨by simp [Quad.get_set, h], by simp [Quad.get_set, h]⟩
  · rw [releaseChannel_of_not_clearable hm]
    exact ⟨rfl, rfl⟩

theorem releaseChannel_rest (s : State) (m : Channel) :
    s.releaseChannel m = { s with chans := (s.releaseChannel m).chans, meas := (s.releaseChannel m).meas } := by
  by_cases hm : s.clearable m
  · rw [releaseChannel_of_clearable hm]
  · rw [releaseChannel_of_not_clearable hm]

theorem clearable_congr {t : State} {n : Channel} (hc : t.chans.get n = s.chans.get n) (hi : t.inputs = s.inputs) :
    t.clearable n ↔ s.clearable n := by
  simp [State.clearable, State.isFaulted, hc, hi]

/-- What the release of some channels, none twice, makes of each channel. -/
theorem released_get {l : List Channel} (hl : l.Nodup) (s : State) (n : Channel) :
    (n ∈ l → s.clearable n →
        (l.foldl State.releaseChannel s).chans.get n = (if (s.inputs.rdy.get n).active then .ready else .offline)
          ∧ (l.foldl State.releaseChannel s).meas.chan.get n = { s.meas.chan.get n with slip := 0 })
      ∧ (n ∉ l ∨ ¬s.clearable n →
        (l.foldl State.releaseChannel s).chans.get n = s.chans.get n
          ∧ (l.foldl State.releaseChannel s).meas.chan.get n = s.meas.chan.get n) := by
  induction l generalizing s with
  | nil => simp
  | cons m l ih =>
    obtain ⟨hm, hl⟩ := List.nodup_cons.mp hl
    obtain ⟨hin, hout⟩ := ih hl (s.releaseChannel m)
    rw [List.foldl_cons]
    by_cases hn : n = m
    · subst hn
      obtain ⟨hchan, hmeas⟩ := hout (.inl hm)
      rw [hchan, hmeas]
      refine ⟨fun _ hc => ?_, fun hc => ?_⟩
      · rw [releaseChannel_of_clearable hc]
        exact ⟨Quad.get_set_self _ _ _, Quad.get_set_self _ _ _⟩
      · rw [releaseChannel_of_not_clearable (by simpa using hc)]
        exact ⟨rfl, rfl⟩
    · obtain ⟨hchan, hmeas⟩ := releaseChannel_other (s := s) hn
      have hinputs : (s.releaseChannel m).inputs = s.inputs := releaseChannel_inputs s m
      rw [clearable_congr hchan hinputs, hinputs, hmeas] at hin
      rw [clearable_congr hchan hinputs, hchan, hmeas] at hout
      simpa [hn] using ⟨hin, hout⟩

theorem released_rest (l : List Channel) (s : State) :
    l.foldl State.releaseChannel s = { s with
      chans := (l.foldl State.releaseChannel s).chans, meas := (l.foldl State.releaseChannel s).meas } := by
  induction l generalizing s with
  | nil => rfl
  | cons m l ih =>
    rw [List.foldl_cons, ih, releaseChannel_rest s m]

end

/-- Settles O23: CLEAR_FAULTS channel by channel, CLEAR_BREAK by the filtered level. -/
theorem clearFaultsAndBreak : Obligations.ClearFaultsAndBreak := by
  intro after p s a
  have hclear : ∀ {t : State} {r : Response}, s.takes .clearBreak p → clearBreakWork p a = (t, r) →
      exec (.clearBreak after) s = .next (t.answer r) :=
    fun h hw => exec_requestCommand_of_work (q := .clearBreak) (straps := 0) h hw
  refine ⟨fun h => ?_, fun h hactive => hclear h ?_, fun h hinactive => hclear h ?_⟩
  · have hrest := released_rest channels a
    have hnodup : channels.Nodup := by decide
    have hmem : ∀ n : Channel, n ∈ channels := by decide
    have hsame : ∀ n, a.clearable n ↔ s.isFaulted n = true ∧ (s.inputs.flt.get n).active = false := by
      intro n; simp [State.clearable, a]
    refine ⟨_, exec_requestCommand_of_takes (q := .clearFaults) after 0 h, fun n => ?_, fun n => ?_, ?_, ?_, ?_, ?_, ?_⟩
    · show (channels.foldl State.releaseChannel a).chans.get n = _
      obtain ⟨hin, hout⟩ := released_get hnodup a n
      by_cases hc : a.clearable n
      · rw [if_pos ((hsame n).mp hc), (hin (hmem n) hc).1]; simp [a]
      · rw [if_neg (fun x => hc ((hsame n).mpr x)), (hout (.inr hc)).1]; simp [a]
    · show (channels.foldl State.releaseChannel a).meas.chan.get n = _
      obtain ⟨hin, hout⟩ := released_get hnodup a n
      by_cases hc : a.clearable n
      · rw [if_pos ((hsame n).mp hc), (hin (hmem n) hc).2]; simp [a]
      · rw [if_neg (fun x => hc ((hsame n).mpr x)), (hout (.inr hc)).2]; simp [a]
    · exact congrArg (fun q : Port => { q with
        srdy := true, request := []
        response := some (.ok (channels.map fun n => ((channels.foldl State.releaseChannel a).chans.get n).byte)) })
        (congrArg State.port hrest)
    · exact (congrArg State.check hrest).trans (advance_check s after)
    · exact (congrArg State.trial hrest).trans (advance_trial s after)
    · exact (congrArg State.trim hrest).trans (advance_trim s after)
    · exact (congrArg State.log hrest).trans (advance_log s after)
  · simp [clearBreakWork, a, hactive, State.breakBytes, flagByte]
  · simp [clearBreakWork, a, hinactive, State.breakBytes, flagByte, State.reselect, State.breakInForce]

end Sys2Proof.Machine
end

section
/-! PROOFS. The drive inputs (04, 06): the fast filters' looks and edges, the slow filters' samples and changes, the channel
counters, the revolution check's edges and its timeout. -/

namespace Sys2Proof.Machine

section

variable {s : State}

/-! ### Edges of the fast lines (R72 to R74) -/

@[simp] theorem advance_sensed (s : State) (d : Wait) (n : Channel) : (s.advance d).sensed n = s.sensed n := by
  simp [State.sensed]

theorem sensed_of_ne {n : Channel} (h : s.chans.get n ≠ .disabled) : s.sensed n = true := by simp [State.sensed, h]
theorem not_sensed_of_eq {n : Channel} (h : s.chans.get n = .disabled) : s.sensed n = false := by simp [State.sensed, h]

/-- An edge of a sensed line is taken when its filter has taken the change. -/
theorem edgeDue_iff (hrun : s.running = true) {n : Channel} (hn : s.sensed n = true) (l : FastLine) (level : Bool) :
    s.edgeDue l n level = true ↔ (s.fastFilter l n).level = !level ∧ (s.fastFilter l n).held = false
      ∧ s.cfg.fastWidth < (s.fastFilter l n).differs := by
  simp only [State.edgeDue, hrun, hn, FastFilter.taken, Bool.true_and, Bool.and_eq_true, bne_iff_ne, Bool.not_eq_true',
    decide_eq_true_eq]
  cases (s.fastFilter l n).level <;> cases level <;> simp

/-- The same for the state at a command's arrival. -/
theorem edgeDue_advance_iff {after : Wait} (hrun : s.running = true) {n : Channel} (hn : s.chans.get n ≠ .disabled)
    (l : FastLine) (level : Bool) :
    (s.advance after).edgeDue l n level = true ↔ ((s.advance after).fastFilter l n).level = !level
      ∧ ((s.advance after).fastFilter l n).held = false
      ∧ s.cfg.fastWidth < ((s.advance after).fastFilter l n).differs := by
  have h := edgeDue_iff (s := s.advance after) ((advance_running s after).trans hrun) (n := n)
    ((advance_sensed s after n).trans (sensed_of_ne hn)) l level
  rwa [advance_cfg] at h

@[simp] theorem takeEdge_fastFilter (s : State) (l : FastLine) (n : Channel) (level : Bool) :
    (s.takeEdge l n level).fastFilter l n = { level := level, differs := 0, held := false } := by
  cases l <;> simp [State.takeEdge, State.setFast, State.fastFilter]

/-! ### The revolution check (R109 to R115) -/

theorem endCheck_check (s : State) (v : Verdict) :
    (s.endCheck v).check = { s.check with state := .done, verdict := v, timer := .stopped s.indexReading } := rfl

theorem endCheck_hasEvent (s : State) (v : Verdict) : (s.endCheck v).hasEvent .revCheckDone = true := hasEvent_raise _ _

theorem indexReading_congr {t : State} (hn : t.now = s.now) (hc : t.check = s.check) : t.indexReading = s.indexReading := by
  simp [State.indexReading, hn, hc]

theorem checkSpeedEdge_of_other {n : Channel} (h : ¬(s.check.state = .counting ∧ s.check.channel = n)) (dir : Bool) :
    s.checkSpeedEdge n dir = s := by
  rw [State.checkSpeedEdge, if_neg (by simpa using h)]

theorem checkSpeedEdge_of_counting {n : Channel} (hs : s.check.state = .counting) (hc : s.check.channel = n) (dir : Bool) :
    s.checkSpeedEdge n dir
      = if 65535 < (s.check.count + (if dir then 1 else -1)).natAbs then s.endCheck (.incomplete .overrange)
        else { s with check := { s.check with count := s.check.count + (if dir then 1 else -1) } } := by
  simp only [State.checkSpeedEdge, hs, hc, decide_true, Bool.and_self, if_true]

/-- A speed edge at the counters, before the Revolution Check Unit sees it. -/
def State.edgeCounted (s : State) (n : Channel) (dir : Bool) : State :=
  ((s.takeEdge .spd n true).seeDir n dir).setCounters n ((s.counters.get n).speedEdge s.now dir)

theorem speedEdge_eq (s : State) (n : Channel) (dir : Bool) : s.speedEdge n dir = (s.edgeCounted n dir).checkSpeedEdge n dir :=
  by simp [State.speedEdge, State.edgeCounted]

end

/-- Settles O46: the edge at the filter and the counters, then by what the check makes of it. -/
theorem speedEdgeIsCounted : Obligations.SpeedEdgeIsCounted := by
  intro after n dir s hrun hn a f due
  have hiff : a.edgeDue .spd n true = true ↔ due := edgeDue_advance_iff hrun hn .spd true
  refine ⟨fun hdue => ?_, fun hdue => congrArg Host.Outcome.next (if_neg (fun h => hdue (hiff.mp h)))⟩
  have hexec : exec (.speedEdge after n dir) s = .next ((a.edgeCounted n dir).checkSpeedEdge n dir) :=
    (congrArg Host.Outcome.next (if_pos (hiff.mpr hdue))).trans (by rw [speedEdge_eq])
  have hcheck : (a.edgeCounted n dir).check = s.check := by simp [State.edgeCounted, a]
  have hport : (a.edgeCounted n dir).port = a.port := by simp [State.edgeCounted]
  have hreading : (a.edgeCounted n dir).indexReading = a.indexReading :=
    indexReading_congr (by simp [State.edgeCounted]) (hcheck.trans (by simp [a]))
  have hcounters : ((a.edgeCounted n dir).checkSpeedEdge n dir).counters
      = s.counters.set n ((s.counters.get n).speedEdge a.now dir) := by
    simp [State.edgeCounted, State.setCounters, a]
  refine ⟨_, hexec, ?_, ?_, fun m hm => ?_, fun hother => ?_, fun hs hc hle => ?_, fun hs hc hlt => ?_, by
    simp [State.edgeCounted, a], by simp [State.edgeCounted, a], by simp [State.edgeCounted, a],
    by simp [State.edgeCounted, a]⟩
  · rw [checkSpeedEdge_inputs]
    exact (congrArg (fun i : Inputs => i.spd.get n) (show (a.edgeCounted n dir).inputs = (a.takeEdge .spd n true).inputs by
      simp [State.edgeCounted])).trans (takeEdge_fastFilter a .spd n true)
  · rw [hcounters, Quad.get_set_self]; rfl
  · rw [hcounters, Quad.get_set, if_neg hm]
  · rw [checkSpeedEdge_of_other (by rwa [hcheck])]
    exact ⟨hcheck, hport⟩
  · rw [checkSpeedEdge_of_counting (by rwa [hcheck]) (by rwa [hcheck]), hcheck, if_neg (not_lt.mpr hle)]
    exact ⟨rfl, hport⟩
  · rw [checkSpeedEdge_of_counting (by rwa [hcheck]) (by rwa [hcheck]), hcheck, if_pos hlt]
    exact ⟨(endCheck_check _ _).trans (by rw [hcheck, hreading]), endCheck_hasEvent _ _⟩

/-! ### The looks of the fast filters (R73, R74) -/

section

variable {f : FastFilter} {w : Nat}

/-- A filter that waits for its edge's command looks no more. -/
theorem looks_of_taken (hh : f.held = false) (hd : w < f.differs) (k : Nat) (raw : Bool) : f.looks w k raw = f := by
  simp [FastFilter.looks, FastFilter.taken, hh, hd]

/-- A filter that counts: a level that differs is counted up to the look that takes it, one that does not differ discards
the count. -/
theorem looks_of_counting (hh : f.held = false) (hd : f.differs ≤ w) {k : Nat} (hk : 0 < k) (raw : Bool) :
    f.looks w k raw = { f with differs := if raw = f.level then 0 else min (f.differs + k) (w + 1) } := by
  have hnot : ¬w < f.differs := not_lt.mpr hd
  have hne : k ≠ 0 := by omega
  by_cases hraw : raw = f.level
  · simp [FastFilter.looks, FastFilter.taken, FastFilter.look, hh, hnot, hne, hraw]
  · simp [FastFilter.looks, FastFilter.taken, FastFilter.look, hh, hnot, hne, hraw]
    omega

/-- A filter that is held waits to see its line low. -/
theorem looks_of_held (hh : f.held = true) (hl : f.level = false) {k : Nat} (hk : 0 < k) (raw : Bool) :
    f.looks w k raw = { f with differs := 0, held := raw } := by
  have hne : k ≠ 0 := by omega
  cases raw <;> simp [FastFilter.looks, FastFilter.taken, FastFilter.look, hh, hl, hne]

variable {s : State}

/-- What a span of microseconds makes of a fast filter. -/
theorem elapse_fastFilter (l : FastLine) (m : Channel) (p : Span) :
    (s.elapse [p]).fastFilter l m = if s.sensed m then
      (s.fastFilter l m).looks s.cfg.fastWidth p.micros ((p.raw.line l).getLsbD m.val) else s.fastFilter l m := by
  cases l <;> simp [State.elapse, State.fastFilter, State.filtersThrough, FastFilter.through]

/-! ### Index edges (R109, R111) -/

theorem checkIndexEdge_of_armed {n : Channel} (hc : s.check.channel = n) (hs : s.check.state = .armed) :
    s.checkIndexEdge n = { s with check := { s.check with
      state := .counting, count := 0, firstIndex := s.now, timer := .running s.now } } := by
  rw [State.checkIndexEdge, if_pos hc, hs]

theorem checkIndexEdge_of_counting {n : Channel} (hc : s.check.channel = n) (hs : s.check.state = .counting) :
    s.checkIndexEdge n = State.endCheck { s with check := { s.check with revTime := s.now - s.check.firstIndex } }
      (verdictOf (s.cfg.chan.get n).expected s.check.count) := by
  rw [State.checkIndexEdge, if_pos hc, hs]

theorem checkIndexEdge_of_other {n : Channel} (h : s.check.channel ≠ n ∨ s.check.state = .idle ∨ s.check.state = .done) :
    s.checkIndexEdge n = s := by
  unfold State.checkIndexEdge
  split
  next hc =>
    rcases h with h | h | h
    · exact absurd hc h
    · rw [h]
    · rw [h]
  next => rfl

/-- The verdict by the bounds of a match (R111). -/
theorem verdictOf_eq (expected : Nat) (count : Int) :
    verdictOf expected count = if count < 0 then .reversed
      else if 0 < count ∧ (expected : Int) - 1 ≤ count ∧ count ≤ (expected : Int) + 1 then .isMatch else .mismatch := by
  have h : (count - expected).natAbs ≤ 1 ↔ (expected : Int) - 1 ≤ count ∧ count ≤ (expected : Int) + 1 := by omega
  simp [verdictOf, h]

end

/-- Settles O47: each edge by what makes it due, the looks by the states of a filter. -/
theorem loadIndexAndFallingEdges : Obligations.LoadIndexAndFallingEdges := by
  intro after n s hrun hn a due
  have hiff : ∀ l level, a.edgeDue l n level = true ↔ due l level := edgeDue_advance_iff hrun hn
  refine ⟨fun h => ?_, fun h => ?_, fun l h => ?_,
    fun h => congrArg Host.Outcome.next (if_neg (fun x => h ((hiff _ _).mp x))),
    fun h => congrArg Host.Outcome.next (if_neg (fun x => h ((hiff _ _).mp x))),
    fun l h => congrArg Host.Outcome.next (if_neg (fun x => h ((hiff _ _).mp x))),
    fun l m j e raw hj => ⟨fun hm => ?_, fun hm hheld hle => ?_, fun hm hheld hlow => ?_, fun hm hheld hlt => ?_⟩⟩
  · refine ⟨_, congrArg Host.Outcome.next (if_pos ((hiff _ _).mpr h)), ?_, ?_, ?_, ?_⟩
    · exact takeEdge_fastFilter a .ldf n true
    · simp [State.setCounters, Counters.loadEdge]
    · simp
    · simp [a]
  · have hexec : exec (.indexEdge after n) s = .next ((a.takeEdge .idx n true).checkIndexEdge n) :=
      congrArg Host.Outcome.next (if_pos ((hiff _ _).mpr h))
    have hcheck : (a.takeEdge .idx n true).check = s.check := by simp [a]
    have hcfg : (a.takeEdge .idx n true).cfg = s.cfg := by simp [State.cfg, a]
    refine ⟨_, hexec, ?_, by simp [a], fun hc hs => ?_, fun hc hs => ?_, fun hother => ?_⟩
    · rw [checkIndexEdge_inputs]
      exact takeEdge_fastFilter a .idx n true
    · rw [checkIndexEdge_of_armed (by rwa [hcheck]) (by rwa [hcheck])]
      simp [a]
    · rw [checkIndexEdge_of_counting (by rwa [hcheck]) (by rwa [hcheck]), hcfg, hcheck]
      refine ⟨?_, endCheck_hasEvent _ _⟩
      rw [endCheck_check, verdictOf_eq]
      simp [a, State.indexReading]
    · rw [checkIndexEdge_of_other (by rwa [hcheck])]
      exact ⟨hcheck, by simp⟩
  · refine ⟨_, congrArg Host.Outcome.next (if_pos ((hiff _ _).mpr h)), takeEdge_fastFilter a l n false, ?_, ?_, ?_⟩
    · simp
    · simp
    · simp [a]
  · exact (elapse_fastFilter l m _).trans (if_neg (by simp [not_sensed_of_eq hm]))
  · exact ((elapse_fastFilter l m _).trans (if_pos (sensed_of_ne hm))).trans (looks_of_counting hheld hle hj _)
  · exact ((elapse_fastFilter l m _).trans (if_pos (sensed_of_ne hm))).trans (looks_of_held hheld hlow hj _)
  · exact ((elapse_fastFilter l m _).trans (if_pos (sensed_of_ne hm))).trans (looks_of_taken hheld hlt _ _)

/-! ### The filtered RDY and FLT levels (R84 to R86, R112) -/

section

variable {s : State}

/-- The RDY filter of a channel alone takes its new level; `changeRdy_eq` ties it to the model. -/
def State.flipRdy (s : State) (n : Channel) : State :=
  { s with inputs := { s.inputs with rdy := s.inputs.rdy.set n (s.inputs.rdy.get n).flip } }

/-- The FLT filter of a channel alone takes its new level; `changeFlt_eq` ties it to the model. -/
def State.flipFlt (s : State) (n : Channel) : State :=
  { s with inputs := { s.inputs with flt := s.inputs.flt.set n (s.inputs.flt.get n).flip } }

@[simp] theorem flipRdy_inputs_rdy (s : State) (n : Channel) :
    (s.flipRdy n).inputs.rdy.get n = { active := !(s.inputs.rdy.get n).active, run := 0 } := Quad.get_set_self _ _ _
@[simp] theorem flipFlt_inputs_flt (s : State) (n : Channel) :
    (s.flipFlt n).inputs.flt.get n = { active := !(s.inputs.flt.get n).active, run := 0 } := Quad.get_set_self _ _ _

theorem changeRdy_eq (s : State) (n : Channel) :
    s.changeRdy n = if (s.inputs.rdy.get n).active then (s.flipRdy n).rdyFalls n else (s.flipRdy n).rdyRises n := by
  have h : (s.flipRdy n).rdyActive n = !(s.inputs.rdy.get n).active := by simp [State.rdyActive]
  show (if (s.flipRdy n).rdyActive n then (s.flipRdy n).rdyRises n else (s.flipRdy n).rdyFalls n) = _
  rw [h]
  cases (s.inputs.rdy.get n).active <;> rfl

/-- A channel that is sensed and not FAULTED is OFFLINE or READY. -/
theorem offline_or_ready {n : Channel} (hd : s.chans.get n ≠ .disabled) (hf : s.isFaulted n = false) :
    s.chans.get n = .offline ∨ s.chans.get n = .ready := by
  simp only [State.isFaulted] at hf
  cases h : s.chans.get n <;> simp_all

theorem changeFlt_eq {n : Channel} (hd : s.chans.get n ≠ .disabled) :
    s.changeFlt n = if (s.inputs.flt.get n).active = false ∧ s.isFaulted n = false then
      (s.flipFlt n).latchFault n .faultInput else s.flipFlt n := by
  have hactive : (s.flipFlt n).fltActive n = !(s.inputs.flt.get n).active := by simp [State.fltActive]
  have hopen : ((s.flipFlt n).chans.get n = .offline ∨ (s.flipFlt n).ready n = true) ↔ s.isFaulted n = false := by
    refine ⟨fun h => ?_, fun h => ?_⟩
    · rcases h with h | h
      · simp [State.isFaulted, show s.chans.get n = .offline from h]
      · simp [State.isFaulted, show s.chans.get n = .ready from of_decide_eq_true h]
    · rcases offline_or_ready hd h with h | h
      · exact .inl h
      · exact .inr (decide_eq_true h)
  show (if (s.flipFlt n).fltActive n && (decide ((s.flipFlt n).chans.get n = .offline) || (s.flipFlt n).ready n) then
    (s.flipFlt n).latchFault n .faultInput else s.flipFlt n) = _
  simp only [hactive, Bool.and_eq_true, Bool.not_eq_true', Bool.or_eq_true, decide_eq_true_eq, hopen]

/-- A channel that leaves READY ends a check under way on it. -/
theorem leaveReady_of_checked {n : Channel} (hw : s.checkUnderWay = true) (hc : s.check.channel = n) :
    s.leaveReady n = s.endCheck (.incomplete .channel) := by simp [State.leaveReady, hw, hc]

theorem leaveReady_of_other {n : Channel} (h : s.checkUnderWay = false ∨ s.check.channel ≠ n) : s.leaveReady n = s := by
  rw [State.leaveReady, if_neg]
  rcases h with h | h <;> simp [h]

theorem latchFault_hasEvent (s : State) (n : Channel) (c : FaultCause) : (s.latchFault n c).hasEvent .channelFault = true :=
  (leaveReady_raised _ n (raised_self ((s.setChannel n (.faulted c)).raise .channelFault))).hasEvent (hasEvent_raise _ _)

/-- What a latching makes of the check. -/
theorem latchFault_check_of_checked {n : Channel} (hw : s.checkUnderWay = true) (hc : s.check.channel = n) (c : FaultCause) :
    (s.latchFault n c).check
        = { s.check with state := .done, verdict := .incomplete .channel, timer := .stopped s.indexReading }
      ∧ (s.latchFault n c).hasEvent .revCheckDone = true := by
  rw [State.latchFault, leaveReady_of_checked (s := (s.setChannel n (.faulted c)).raise .channelFault) hw hc]
  exact ⟨rfl, endCheck_hasEvent _ _⟩

theorem latchFault_check_of_other {n : Channel} (h : s.checkUnderWay = false ∨ s.check.channel ≠ n) (c : FaultCause) :
    (s.latchFault n c).check = s.check := by
  rw [State.latchFault, leaveReady_of_other (s := (s.setChannel n (.faulted c)).raise .channelFault) h]
  rfl

theorem rdyFalls_of_ready {n : Channel} (h : s.chans.get n = .ready) :
    s.rdyFalls n = (s.setChannel n .offline).leaveReady n := by simp [State.rdyFalls, State.ready, h]
theorem rdyFalls_of_not_ready {n : Channel} (h : s.chans.get n ≠ .ready) : s.rdyFalls n = s := by
  simp [State.rdyFalls, State.ready, h]

theorem rdyRises_eq (s : State) (n : Channel) :
    s.rdyRises n = s.setChannel n
      (if s.chans.get n = .offline ∧ (s.inputs.flt.get n).active = false then .ready else s.chans.get n) := by
  by_cases h : s.chans.get n = .offline ∧ (s.inputs.flt.get n).active = false
  · simp [State.rdyRises, State.fltActive, h]
  · rw [if_neg h, State.setChannel, Quad.set_get_self, State.rdyRises, if_neg (by simpa [State.fltActive] using h)]

end

/-- Settles O48: the changes by the level that the filter takes and the channel state that it finds. -/
theorem readyAndFaultLevelsAct : Obligations.ReadyAndFaultLevelsAct := by
  intro after n s hrun hn hconfig a ended
  have hsensed : a.sensed n = true := (advance_sensed s after n).trans (sensed_of_ne hn)
  have hchans : a.chans = s.chans := advance_chans s after
  have hrdy : a.inputs.rdy = s.inputs.rdy := by simp [a]
  have hflt : a.inputs.flt = s.inputs.flt := by simp [a]
  have hcheck : a.check = s.check := advance_check s after
  have hway : a.checkUnderWay = s.checkUnderWay := advance_checkUnderWay s after
  refine ⟨fun hq => ?_, fun hq => ?_⟩
  · have hdue : (a.sensed n && a.flipDue (a.inputs.rdy.get n)) = true := by
      simp [hsensed, State.flipDue, a, hrun, hconfig, hq]
    refine ⟨_, congrArg Host.Outcome.next (if_pos hdue), ?_⟩
    rw [changeRdy_eq, hrdy]
    cases hactive : (s.inputs.rdy.get n).active with
    | true =>
      rw [if_pos rfl]
      by_cases hready : s.chans.get n = .ready
      · rw [rdyFalls_of_ready (s := a.flipRdy n) (by rwa [← hchans] at hready)]
        refine ⟨?_, ?_, fun _ _ hw hc => ?_, fun hother => ?_⟩
        · rw [leaveReady_inputs, setChannel_inputs, flipRdy_inputs_rdy, hrdy, hactive]
        · rw [leaveReady_chans, if_pos rfl, if_pos hready, ← hchans]; rfl
        · rw [leaveReady_of_checked (s := (a.flipRdy n).setChannel n .offline) (hway.trans hw)
            ((congrArg RevCheck.channel hcheck).trans hc)]
          refine ⟨?_, endCheck_hasEvent _ _⟩
          exact congrArg (fun k : RevCheck => { k with
            state := .done, verdict := .incomplete .channel, timer := .stopped a.indexReading }) hcheck
        · rw [leaveReady_of_other (s := (a.flipRdy n).setChannel n .offline)]
          · exact ⟨hcheck, rfl⟩
          · simpa [hready, State.checkUnderWay, a, State.flipRdy] using hother
      · rw [rdyFalls_of_not_ready (s := a.flipRdy n) (by rwa [← hchans] at hready)]
        refine ⟨?_, ?_, fun h => absurd h hready, fun _ => ⟨hcheck, rfl⟩⟩
        · rw [flipRdy_inputs_rdy, hrdy, hactive]
        · rw [if_pos rfl, if_neg hready, Quad.set_get_self]; exact hchans
    | false =>
      rw [if_neg Bool.false_ne_true, rdyRises_eq]
      refine ⟨?_, ?_, fun _ h => absurd h (by simp), fun _ => ⟨hcheck, rfl⟩⟩
      · exact (flipRdy_inputs_rdy a n).trans (by rw [hrdy, hactive])
      · rw [if_neg Bool.false_ne_true]
        show a.chans.set n (if a.chans.get n = .offline ∧ (a.inputs.flt.get n).active = false then _ else a.chans.get n) = _
        rw [hchans, hflt]
  · have hdue : (a.sensed n && a.flipDue (a.inputs.flt.get n)) = true := by
      simp [hsensed, State.flipDue, a, hrun, hconfig, hq]
    refine ⟨_, congrArg Host.Outcome.next (if_pos hdue), ?_⟩
    have hfaulted : a.isFaulted n = s.isFaulted n := advance_isFaulted s after n
    rw [changeFlt_eq (by rwa [hchans]), hflt, hfaulted]
    by_cases hlatch : (s.inputs.flt.get n).active = false ∧ s.isFaulted n = false
    · rw [if_pos hlatch]
      refine ⟨?_, ?_, fun _ _ => latchFault_hasEvent _ _ _, fun _ _ hw hc => ?_, fun hother => ?_, fun hnot => ?_⟩
      · rw [latchFault_inputs, flipFlt_inputs_flt, hflt]
      · rw [if_pos hlatch, ← hchans, State.latchFault, leaveReady_chans]; rfl
      · obtain ⟨hended, hevent⟩ := latchFault_check_of_checked (s := a.flipFlt n) (hway.trans hw)
          ((congrArg RevCheck.channel hcheck).trans hc) .faultInput
        refine ⟨hended.trans ?_, hevent⟩
        exact congrArg (fun k : RevCheck => { k with
            state := .done, verdict := .incomplete .channel, timer := .stopped a.indexReading }) hcheck
      · exact (latchFault_check_of_other (s := a.flipFlt n) (by simpa [State.checkUnderWay, a, State.flipFlt] using hother)
          .faultInput).trans hcheck
      · simp [hlatch] at hnot
    · rw [if_neg hlatch]
      refine ⟨?_, ?_, fun h k => absurd ⟨h, k⟩ hlatch, fun h k => absurd ⟨h, k⟩ hlatch, fun _ => hcheck, fun _ => ⟨hcheck, rfl⟩⟩
      · rw [flipFlt_inputs_flt, hflt]
      · rw [if_neg hlatch, Quad.set_get_self]; exact hchans

end Sys2Proof.Machine
end

section
/-! PROOFS. The drive inputs' timed events, and what the commands of the drive and break lines and of the outputs leave as it
was (04, 06, 08, 09). -/

namespace Sys2Proof.Machine

section

variable {s : State}

@[simp] theorem advance_stallDue (s : State) (d : Wait) (n : Channel) :
    (s.advance d).stallDue n = true ↔ s.running = true ∧ s.sensed n = true ∧ (s.counters.get n).stalled = false
      ∧ (s.counters.get n).stallFrom + 1000 * s.cfg.stallTime ≤ (s.advance d).now := by
  simp [State.stallDue, and_assoc]

end

/-- Settles O50: both events by what makes them due. -/
theorem stallAndIndexTimeout : Obligations.StallAndIndexTimeout := by
  intro after s hrun a
  refine ⟨fun n hn hstalled hdue => ?_, fun hway hlimit => ?_⟩
  · have hd : a.stallDue n = true := (advance_stallDue s after n).mpr ⟨hrun, sensed_of_ne hn, hstalled, hdue⟩
    refine (congrArg Host.Outcome.next (if_pos hd)).trans ?_
    rw [State.stallChannel, State.setCounters, show a.counters = s.counters from advance_counters s after]
  · have hd : a.indexTimeoutDue = true := by
      simp only [State.indexTimeoutDue, Bool.and_eq_true, decide_eq_true_eq]
      exact ⟨⟨(advance_running s after).trans hrun, (advance_checkUnderWay s after).trans hway⟩, hlimit⟩
    refine ⟨_, congrArg Host.Outcome.next (if_pos hd), endCheck_hasEvent _ _, ?_⟩
    exact congrArg (fun k : RevCheck => { k with
      state := .done, verdict := .incomplete .noIndex, timer := .stopped a.indexReading }) (advance_check s after)

/-- Settles O51: the sample filter by filter. -/
theorem slowFilterSamples : Obligations.SlowFilterSamples := by
  intro after v s hrun hconfig a hdue
  have hd : a.sampleDue = true := by
    simp only [State.sampleDue, Bool.and_eq_true, decide_eq_true_eq]
    refine ⟨⟨(advance_running s after).trans hrun, by simpa [a] using hconfig⟩, ?_⟩
    simpa [a, Config.samplePeriod] using hdue
  have hcfg : a.cfg = s.cfg := advance_cfg s after
  refine ⟨_, congrArg Host.Outcome.next (if_pos hd), by simp [State.sampleSlow], fun n hn => ⟨?_, ?_⟩, fun n hn => ⟨?_, ?_⟩,
    by simp [State.sampleSlow, SlowFilter.sample], rfl, rfl, rfl, by simp, by simp⟩
  · simp [State.sampleSlow, sensed_of_ne hn, SlowFilter.sample, hcfg, a]
  · simp [State.sampleSlow, sensed_of_ne hn, SlowFilter.sample, hcfg, a]
  · simp [State.sampleSlow, not_sensed_of_eq hn]
  · simp [State.sampleSlow, not_sensed_of_eq hn]

/-! ### What the commands of the drive lines leave as it was -/

/-- What the drive inputs and the outputs may change: no block of the link, the trial or the log, and of the port and the
trims no more than event flags and targets. -/
structure DriveWork (a t : State) : Prop where
  rest : t = { a with
    pins := t.pins, inputs := t.inputs, counters := t.counters, chans := t.chans, check := t.check, trim := t.trim
    pwm := t.pwm, brk := t.brk, port := t.port }
  raised : Raised a.port t
  applied : t.trim.applied = a.trim.applied
  shift : t.trim.shift = a.trim.shift

/-- What a command that moves no drive may change: the pins, the filters and the outputs. -/
def QuietWork (a t : State) : Prop := t = { a with pins := t.pins, inputs := t.inputs, pwm := t.pwm }

section

variable {a t u : State}

theorem DriveWork.refl (a : State) : DriveWork a a := ⟨rfl, raised_self a, rfl, rfl⟩

theorem DriveWork.trans (h : DriveWork a t) (k : DriveWork t u) : DriveWork a u where
  rest := by have hr := k.rest; rw [h.rest] at hr; exact hr
  raised := h.raised.trans k.raised
  applied := k.applied.trans h.applied
  shift := k.shift.trans h.shift

theorem QuietWork.driveWork (h : QuietWork a t) : DriveWork a t := by
  unfold QuietWork at h
  exact ⟨by rw [h], (raised_self a).of_port (by rw [h]), by rw [h], by rw [h]⟩

theorem DriveWork.endCheck (a : State) (v : Verdict) : DriveWork a (a.endCheck v) :=
  ⟨rfl, by simp, rfl, rfl⟩

theorem DriveWork.leaveReady (a : State) (n : Channel) : DriveWork a (a.leaveReady n) := by
  unfold State.leaveReady
  split
  · exact .endCheck a _
  · exact .refl a

theorem QuietWork.takeEdge (a : State) (l : FastLine) (n : Channel) (level : Bool) : QuietWork a (a.takeEdge l n level) := by
  cases l <;> rfl

theorem DriveWork.checkSpeedEdge (a : State) (n : Channel) (dir : Bool) : DriveWork a (a.checkSpeedEdge n dir) := by
  by_cases h : a.check.state = .counting ∧ a.check.channel = n
  · rw [checkSpeedEdge_of_counting h.1 h.2]
    by_cases hover : 65535 < (a.check.count + (if dir then 1 else -1)).natAbs
    · rw [if_pos hover]; exact .endCheck a _
    · rw [if_neg hover]; exact ⟨rfl, raised_self a, rfl, rfl⟩
  · rw [checkSpeedEdge_of_other h]
    exact .refl a

theorem DriveWork.checkIndexEdge (a : State) (n : Channel) : DriveWork a (a.checkIndexEdge n) := by
  by_cases hc : a.check.channel = n
  · cases hs : a.check.state with
    | armed => rw [checkIndexEdge_of_armed hc hs]; exact ⟨rfl, raised_self a, rfl, rfl⟩
    | counting =>
      rw [checkIndexEdge_of_counting hc hs]
      exact ⟨rfl, endCheck_raised _ _ (raised_self a), rfl, rfl⟩
    | idle => rw [checkIndexEdge_of_other (.inr (.inl hs))]; exact .refl a
    | done => rw [checkIndexEdge_of_other (.inr (.inr hs))]; exact .refl a
  · rw [checkIndexEdge_of_other (.inl hc)]; exact .refl a

theorem DriveWork.speedEdge (a : State) (n : Channel) (dir : Bool) : DriveWork a (a.speedEdge n dir) := by
  rw [speedEdge_eq]
  have hcounted : DriveWork a (a.edgeCounted n dir) := ⟨rfl, raised_self a, rfl, rfl⟩
  exact hcounted.trans (.checkSpeedEdge _ n dir)

theorem DriveWork.changeRdy (a : State) (n : Channel) : DriveWork a (a.changeRdy n) := by
  rw [changeRdy_eq]
  have hflip : DriveWork a (a.flipRdy n) := ⟨rfl, raised_self a, rfl, rfl⟩
  split
  · unfold State.rdyFalls
    split
    · have hset : DriveWork (a.flipRdy n) ((a.flipRdy n).setChannel n .offline) := ⟨rfl, raised_self _, rfl, rfl⟩
      exact hflip.trans (hset.trans (.leaveReady _ n))
    · exact hflip
  · rw [rdyRises_eq]
    exact hflip.trans ⟨rfl, raised_self _, rfl, rfl⟩

theorem DriveWork.changeFlt (a : State) (n : Channel) : DriveWork a (a.changeFlt n) := by
  have hflip : DriveWork a (a.flipFlt n) := ⟨rfl, raised_self a, rfl, rfl⟩
  unfold State.changeFlt
  dsimp only
  split
  · have hset : DriveWork (a.flipFlt n) (((a.flipFlt n).setChannel n (.faulted .faultInput)).raise .channelFault) :=
      ⟨rfl, raise_raised _ _ (raised_self _), rfl, rfl⟩
    exact hflip.trans (hset.trans (.leaveReady _ n))
  · exact hflip

theorem DriveWork.changeBrk (a : State) : DriveWork a a.changeBrk := by
  have hflip : DriveWork a a.flipBrk := ⟨rfl, raised_self a, rfl, rfl⟩
  cases h : a.inputs.brk.active with
  | true => rw [changeBrk_of_active h]; exact hflip
  | false =>
    rw [changeBrk_of_inactive h]
    cases hl : a.flipBrk.brk.latch with
    | true => rw [latchBreak_of_set hl]; exact hflip.trans ⟨rfl, raised_self _, rfl, rfl⟩
    | false => rw [latchBreak_of_clear hl]; exact hflip.trans ⟨rfl, raise_raised _ _ (raised_self _), rfl, rfl⟩

/-- A command that does its work when it is due, and lets time pass otherwise. -/
theorem DriveWork.ite {p : Bool} (h : DriveWork a t) : DriveWork a (if p then t else a) := by
  cases p
  · exact .refl a
  · exact h

theorem QuietWork.ite {p : Bool} (h : QuietWork a t) : QuietWork a (if p then t else a) := by
  cases p
  · rfl
  · exact h

end

/-- Settles O52: each command by what its work may change. -/
theorem driveCommandsLeaveTheLink : Obligations.DriveCommandsLeaveTheLink := by
  intro after n dir l v o s t a quiet moving
  have hquiet : ∀ c ∈ quiet, exec c s = .next t → QuietWork a t := by
    intro c hc h
    have hstart : QuietWork a a.startPwmPeriod := rfl
    have hend : QuietWork a (a.endHighTime o) := by cases o <;> rfl
    simp only [quiet, List.mem_cons, List.not_mem_nil, or_false] at hc
    rcases hc with rfl | rfl | rfl | rfl
    · exact Host.Outcome.next.inj h ▸ QuietWork.ite (.takeEdge a l n false)
    · exact Host.Outcome.next.inj h ▸ QuietWork.ite rfl
    · exact Host.Outcome.next.inj h ▸ QuietWork.ite hstart
    · exact Host.Outcome.next.inj h ▸ QuietWork.ite hend
  have hmoving : ∀ c ∈ moving, exec c s = .next t → DriveWork a t ∧ t.pwm = a.pwm := by
    intro c hc h
    have taken : ∀ {p : Bool} {u : State}, DriveWork a u → u.pwm = a.pwm → (if p then u else a) = t →
        DriveWork a t ∧ t.pwm = a.pwm := by
      rintro p u hu hpwm rfl
      cases p
      · exact ⟨.refl a, rfl⟩
      · exact ⟨hu, hpwm⟩
    have hload : DriveWork a ((a.takeEdge .ldf n true).setCounters n ((a.takeEdge .ldf n true).counters.get n).loadEdge) :=
      ⟨rfl, raised_self a, rfl, rfl⟩
    have hstall : DriveWork a (a.stallChannel n) := ⟨rfl, raised_self a, rfl, rfl⟩
    have hindex : DriveWork a ((a.takeEdge .idx n true).checkIndexEdge n) :=
      (QuietWork.takeEdge a .idx n true).driveWork.trans (.checkIndexEdge _ n)
    simp only [moving, List.mem_cons, List.not_mem_nil, or_false] at hc
    rcases hc with rfl | rfl | rfl | rfl | rfl | rfl | rfl | rfl
    · exact taken (.speedEdge a n dir) (by simp) (Host.Outcome.next.inj h)
    · exact taken hload (by simp) (Host.Outcome.next.inj h)
    · exact taken hindex (by simp) (Host.Outcome.next.inj h)
    · exact taken (.changeRdy a n) (by simp) (Host.Outcome.next.inj h)
    · exact taken (.changeFlt a n) (by simp) (Host.Outcome.next.inj h)
    · exact taken (.changeBrk a) (by simp) (Host.Outcome.next.inj h)
    · exact taken hstall (by simp) (Host.Outcome.next.inj h)
    · exact taken (.endCheck a _) (by simp) (Host.Outcome.next.inj h)
  refine ⟨fun c hc h => ?_, fun c hc h => ?_, fun c hc h => (hmoving c hc h).2.trans (advance_pwm s after)⟩
  · have hwork : DriveWork a t := by
      rcases List.mem_append.mp hc with hc | hc
      · exact (hquiet c hc h).driveWork
      · exact (hmoving c hc h).1
    obtain ⟨hrest, hraised, happlied, hshift⟩ := hwork
    have hresponse := hraised.response.trans (advance_response s after)
    have hmask := hraised.mask.trans (advance_raised s after (raised_self s)).mask
    rw [hrest] at hresponse hmask happlied hshift ⊢
    simp only [a, advance_station, advance_config, advance_link, advance_round, advance_roster, advance_ownReport,
      advance_trial, advance_lastOutcome, advance_seqCounter, advance_meas, advance_draw, advance_log, advance_power,
      true_and]
    exact ⟨hresponse, hmask, happlied.trans (by simp [a]), hshift.trans (by simp [a])⟩
  · have hwork := hquiet c hc h
    unfold QuietWork at hwork
    rw [hwork]
    simp [a]

end Sys2Proof.Machine
end

section
/-! PROOFS. The timed events of the round and the detected start edges (R3, R7, R13, R17, R19): what they note in the round,
what they leave of a frame attempt. -/

namespace Sys2Proof.Machine

section

variable {s : State}

/-! ### Times of the round (R7, R17) -/

@[simp] theorem advance_period (s : State) (d : Wait) : (s.advance d).period = s.period := by simp [State.period]

/-- Every round is longer than its sixteen slot windows. -/
theorem le_period (s : State) : 8000 ≤ s.period := by
  unfold State.period Config.period
  split <;> decide

/-- Beyond the sixteenth slot window a start edge is in none. -/
theorem slotOf_eq_none_of_le {e : Nat} (h : 5800 ≤ s.offset e) : s.slotOf e = none := by
  refine slotOf_eq_none_iff.mpr fun k => ?_
  have hk := k.isLt
  simp only [slotOpens, Config.slotLead, Config.slotLength]
  omega

/-- An open mark window holds every start edge of the round from P − 1000 µs on. -/
theorem inWindow_of_le {e : Nat} (hon : s.link.state.onLink = true) (hs : s.round.start ≤ e)
    (hp : s.period ≤ (e - s.round.start) + 1000) : s.inWindow e = true := by
  have hround : (s.roundOf e).state = s.link.state := by rw [roundOf_of_le hs]; rfl
  simp [State.inWindow, hround, hon, offset_of_le hs, Config.windowLead, hp]

end

/-- Settles O29: both events by what makes them due. -/
theorem windowAndOrigination : Obligations.WindowAndOrigination := by
  intro after s hrun hon a
  have hround : a.round = s.round := advance_round s after
  have hlink : a.link = s.link := advance_link s after
  have htx : a.line.tx = s.line.tx := advance_line_tx s after
  have hperiod : a.period = s.period := advance_period s after
  refine ⟨fun hclosed hdue => ?_, fun hopen hnone hreleased hdue => ?_, fun hstarted => ?_⟩
  · refine congrArg Host.Outcome.next (if_pos ?_)
    simp [State.windowDue, a, hrun, hon, hclosed, Config.windowLead, State.roundTime] at hdue ⊢
    exact hdue
  · have hd : a.originationDue = true := by
      simp only [State.originationDue, Bool.and_eq_true, Bool.not_eq_true', decide_eq_true_eq, hround, hlink, htx, hperiod,
        State.roundTime]
      exact ⟨⟨⟨⟨⟨(advance_running s after).trans hrun, hon⟩, hopen⟩, hnone⟩, hreleased⟩, by simpa [a, Config.holdoff] using hdue⟩
    have hlong := le_period s
    have hstart : a.round.start ≤ a.now := by rw [hround]; omega
    refine (congrArg Host.Outcome.next (if_pos hd)).trans ?_
    set b : State := { a with line := { a.line with
        tx := .mark (a.round.number + 1), rx := some a.now, rxNext := none
        rxSampled := a.line.rx.filter fun st => st + Config.stopSample ≤ a.now } } with hb
    have hwindow : b.inWindow a.now = true := by
      refine inWindow_of_le (by simpa [hb, hlink] using hon) hstart ?_
      show a.period ≤ (a.now - a.round.start) + 1000
      rw [hperiod, hround]; omega
    have hslot : b.slotOf a.now = none := by
      refine slotOf_eq_none_of_le ?_
      rw [offset_of_le (s := b) hstart]
      show 5800 ≤ a.now - a.round.start
      rw [hround]; omega
    have hnote : b.noteStart a.now = { b with round := { a.round with startInWindow := true } } := by
      rw [State.noteStart, if_pos (show b.inThisRound a.now = true from decide_eq_true hstart), hwindow, hslot]
      simp [hb]
    show Host.Outcome.next (b.noteStart a.now) = _
    rw [hnote, hb]
    simp [a, Config.stopSample]
  · refine congrArg Host.Outcome.next (if_neg ?_)
    simp [State.originationDue, hstarted]

/-! ### A frame attempt whose window has closed (R17) -/

section

variable {s : State}

/-- What is left of an attempt that is cut. -/
structure AttemptCut (s t : State) : Prop where
  attempt : t.line.attempt = none
  short : s.round.lost = false → t.hasLinkError .short = true
  quiet : s.round.lost = true → t.line.errors = s.line.errors ∧ t.port = s.port

theorem attemptCut_cutAttempt (s : State) (f : Attempt) : AttemptCut s (s.cutAttempt f) := by
  obtain ⟨hline, hshort, hquiet⟩ := cutAttempt_sets s f
  exact ⟨by rw [hline], fun h => (hshort h).1, hquiet⟩

theorem settleAttempt_of_none (h : s.line.attempt = none) : s.settleAttempt = s :=
  settleAttempt_of_open (by simp [h])

/-- At a command's arrival an attempt whose window is open stands. -/
theorem advance_of_slot_open {f : Attempt} (d : Wait) (hf : s.line.attempt = some f) (hopen : s.round.slotsClosed ≤ f.slot.val) :
    s.advance d = s.elapse d :=
  advance_of_open d fun g hg => by rw [hf] at hg; cases hg; exact hopen

/-- At a command's arrival an attempt whose window has closed has been cut, or stands and can still be completed. -/
theorem advance_of_closed {f : Attempt} (d : Wait) (hf : s.line.attempt = some f) (hclosed : f.slot.val < s.round.slotsClosed) :
    ((s.elapse d).awaitsLast f = true ∧ s.advance d = s.elapse d)
      ∨ ((s.elapse d).awaitsLast f = false ∧ AttemptCut s (s.advance d)) := by
  cases h : (s.elapse d).awaitsLast f with
  | true => exact .inl ⟨rfl, settleAttempt_of_awaits (s := s.elapse d) hf h⟩
  | false =>
    refine .inr ⟨rfl, ?_⟩
    rw [State.advance, settleAttempt_of_closed (s := s.elapse d) hf hclosed h]
    obtain ⟨hattempt, hshort, hquiet⟩ := attemptCut_cutAttempt (s.elapse d) f
    exact ⟨hattempt, hshort, hquiet⟩

end

/-- Settles O31: the attempt by the window that closes, and by whether its missing characters can still come. -/
theorem slotWindowCloses : Obligations.SlotWindowCloses := by
  intro after s hrun hreceives hopen a k received begun detectable waits htime
  have hround : a.round = s.round := advance_round s after
  have hdue : a.slotCloseDue = true := by
    simp only [State.slotCloseDue, Bool.and_eq_true, decide_eq_true_eq, hround, State.roundTime]
    exact ⟨⟨⟨(advance_running s after).trans hrun, by simpa [a] using hreceives⟩, hopen⟩, htime⟩
  set closed : State := { a with round := { s.round with slotsClosed := k + 1 } } with hclosed
  have hexec : exec (.slotWindowClose after) s = .next closed.settleAttempt := by
    refine (congrArg Host.Outcome.next (if_pos hdue)).trans ?_
    rw [State.closeSlot, hround]
  -- the attempt's missing characters, judged before and after the window closes
  have hwaits : ∀ (t : State) (f : Attempt), t.line.begun = received → t.line.tx = s.line.tx → t.line.rx = s.line.rx →
      t.line.rxNext = s.line.rxNext → t.round.start = s.round.start → t.now = a.now → (t.awaitsLast f = true ↔ waits f) := by
    intro t f hb htx hrx hnext hstart hnow
    rw [awaitsLast_iff, startsIn_eq, startOpen_iff, hb, htx, hrx, hnext, hstart, hnow]
    refine or_congr_right (and_congr_right fun _ => and_congr_right fun _ => and_congr_right fun _ => ?_)
    refine forall_congr' fun st => imp_congr_right fun _ => and_congr_right fun _ => ?_
    omega
  have helapsed : ∀ f, (s.elapse after).awaitsLast f = true ↔ waits f := fun f =>
    hwaits (s.elapse after) f rfl rfl rfl rfl rfl (by simp [a])
  have hbegun : closed.line.begun = received := by
    simp only [LineInterface.begun, received, hclosed, a, advance_line_rx, advance_line_rxNext, advance_line_rxSampled,
      advance_line_tx]
  have hafter : ∀ f, closed.awaitsLast f = true ↔ waits f := fun f =>
    hwaits closed f hbegun (advance_line_tx s after) (advance_line_rx s after) (advance_line_rxNext s after) rfl rfl
  have hkept : closed.settleAttempt.round = { s.round with slotsClosed := k + 1 } := settleAttempt_round closed
  have hstands : closed.settleAttempt = closed → closed.settleAttempt = { a with round := closed.settleAttempt.round } :=
    fun h => h.trans (by rw [hkept])
  refine ⟨_, hexec, hkept, fun f hf hle hnot => ?_, fun f hf hle hw => hstands ?_, fun f hf hlt => hstands ?_,
    fun hnone => hstands ?_⟩
  · rcases lt_or_eq_of_le hle with hlt | heq
    · rcases advance_of_closed after hf hlt with ⟨hw, -⟩ | ⟨-, hcut⟩
      · exact absurd ((helapsed f).mp hw) hnot
      · have hsettled : closed.settleAttempt = closed := settleAttempt_of_none hcut.attempt
        rw [hsettled]
        exact ⟨hcut.attempt, hcut.short, fun hl => (hcut.quiet hl).1⟩
    · have hline : a.line = s.line := by
        rw [show a = s.elapse after from advance_of_slot_open after hf heq.ge]
        rfl
      have hcf : closed.line.attempt = some f := (congrArg LineInterface.attempt hline).trans hf
      rw [settleAttempt_of_closed hcf (Nat.lt_succ_of_le hle) (Bool.eq_false_iff.mpr fun x => hnot ((hafter f).mp x))]
      obtain ⟨hattempt, hshort, hquiet⟩ := attemptCut_cutAttempt closed f
      exact ⟨hattempt, hshort, fun hl => (hquiet hl).1.trans (congrArg LineInterface.errors hline)⟩
  · have hcf : closed.line.attempt = some f := by
      rcases lt_or_eq_of_le hle with hlt | heq
      · rcases advance_of_closed after hf hlt with ⟨-, ha⟩ | ⟨hnot, -⟩
        · exact (congrArg (fun x : State => x.line.attempt) ha).trans hf
        · exact absurd ((helapsed f).mpr hw) (by simp [hnot])
      · exact (congrArg (fun x : State => x.line.attempt) (advance_of_slot_open after hf heq.ge)).trans hf
    exact settleAttempt_of_awaits hcf ((hafter f).mpr hw)
  · have ha : a = s.elapse after := advance_of_slot_open after hf hlt.le
    refine settleAttempt_of_open fun g hg => ?_
    have hg' : s.line.attempt = some g := (congrArg (fun x : State => x.line.attempt) ha).symm.trans hg
    rw [hf] at hg'; cases hg'; exact hlt
  · have ha : a = s.elapse after := advance_of_open after (by simp [hnone])
    exact settleAttempt_of_none ((congrArg (fun x : State => x.line.attempt) ha).trans hnone)

/-! ### A character start (R3, R13, R20) -/

section

variable {s : State}

/-- What the round notes of a start edge. -/
theorem noteStart_round (s : State) (e : Nat) :
    (s.noteStart e).round = if s.round.start ≤ e then
      { s.round with
        startInWindow := s.round.startInWindow || s.inWindow e
        ownSlot := if s.round.synced && s.slotOf e = some s.station then .heard else s.round.ownSlot } else s.round := by
  unfold State.noteStart State.inThisRound
  by_cases h : s.round.start ≤ e <;> simp [h]

/-- A start edge is noted alike whatever is under way at the receiver. -/
theorem noteStart_of_line (s : State) (l : LineInterface) (e : Nat) :
    State.noteStart { s with line := l } e = { s with line := l, round := (s.noteStart e).round } := by
  have hin : State.inThisRound { s with line := l } e = s.inThisRound e := rfl
  unfold State.noteStart
  rw [hin]
  cases s.inThisRound e <;> rfl

/-- The Line Interface after a start edge has been detected; `detectStart_eq` ties it to the model. -/
def LineInterface.detected (l : LineInterface) (e : Nat) : LineInterface :=
  match l.rx with
  | none => { l with rx := some e }
  | some st => if st + 21 ≤ e ∧ l.rxNext = none then { l with rxNext := some e } else l

/-- A start edge is detected: the receiver is idle, or the character under way has had its stop bit sampled and none follows. -/
def LineInterface.detects (l : LineInterface) (e : Nat) : Prop := ∀ st, l.rx = some st → st + 21 ≤ e ∧ l.rxNext = none

theorem detectStart_of_detects {e : Nat} (h : s.line.detects e) :
    s.detectStart e = { s with line := s.line.detected e, round := (s.noteStart e).round } := by
  unfold State.detectStart LineInterface.detected
  cases hrx : s.line.rx with
  | none =>
    exact noteStart_of_line s _ e
  | some st =>
    obtain ⟨hsampled, hnext⟩ := h st hrx
    have hd : (decide (st + Config.stopSample ≤ e) && decide (s.line.rxNext = none)) = true := by
      simp [Config.stopSample, hnext, hsampled]
    dsimp only
    rw [if_pos hd, if_pos ⟨hsampled, hnext⟩, noteStart_of_line, hrx]

theorem detectStart_of_not_detects {e : Nat} (h : ¬s.line.detects e) : s.detectStart e = s := by
  unfold State.detectStart
  cases hrx : s.line.rx with
  | none => exact absurd (fun st hst => by rw [hrx] at hst; cases hst) h
  | some st =>
    have hnot : ¬(st + 21 ≤ e ∧ s.line.rxNext = none) := fun hs => h fun st' hst => by
      rw [hrx] at hst; cases hst; exact hs
    refine if_neg fun hd => hnot ?_
    obtain ⟨hsampled, hnext⟩ := Bool.and_eq_true_iff.mp hd
    exact ⟨of_decide_eq_true hsampled, of_decide_eq_true hnext⟩

theorem detected_of_not_detects {l : LineInterface} {e : Nat} (h : ¬l.detects e) : l.detected e = l := by
  unfold LineInterface.detected
  cases hrx : l.rx with
  | none => exact absurd (fun st hst => by rw [hrx] at hst; cases hst) h
  | some st => exact if_neg fun hs => h fun st' hst => by rw [hrx] at hst; cases hst; exact hs

/-- What a detected start edge makes of the line and the round. -/
theorem detectStart_eq (s : State) (e : Nat) :
    s.detectStart e = { s with line := s.line.detected e, round := (s.detectStart e).round } := by
  by_cases h : s.line.detects e
  · rw [detectStart_of_detects h]
  · rw [detectStart_of_not_detects h, detected_of_not_detects h]

/-- Once a start edge of a microsecond has been detected or not, none of the same microsecond is open any more. -/
theorem startOpen_detected {e : Nat} (he : s.now ≤ e + 1) (k : Station) : (s.detectStart e).startOpen k = false := by
  refine Bool.eq_false_iff.mpr fun hopen => ?_
  obtain ⟨-, -, hidle⟩ := (startOpen_iff _ k).mp hopen
  rw [detectStart_eq] at hidle
  unfold LineInterface.detected at hidle
  cases hrx : s.line.rx with
  | none =>
    simp only [hrx] at hidle
    obtain ⟨-, hlate⟩ := hidle e rfl
    omega
  | some st =>
    simp only [hrx] at hidle
    split at hidle
    · obtain ⟨hnone, -⟩ := hidle st rfl
      cases hnone
    next hnot =>
      obtain ⟨hnone, hlate⟩ := hidle st hrx
      exact hnot ⟨by omega, hnone⟩

end

end Sys2Proof.Machine
end

section
/-! PROOFS. Detected start edges and the own slot (R3, R13, R17, R19): what becomes of an attempt whose window has closed when a
character begins. -/

namespace Sys2Proof.Machine

section

variable {s : State}

/-! ### The start edges that an attempt can wait for (R17) -/

/-- A detected start edge leaves the attempt, the link error flags and the transmitter. -/
theorem detected_keeps (l : LineInterface) (e : Nat) :
    (l.detected e).attempt = l.attempt ∧ (l.detected e).errors = l.errors ∧ (l.detected e).tx = l.tx := by
  unfold LineInterface.detected
  split
  · exact ⟨rfl, rfl, rfl⟩
  · split <;> exact ⟨rfl, rfl, rfl⟩

/-- Noting a start edge leaves the round's times and flags. -/
theorem noteStart_round_keeps (s : State) (e : Nat) :
    (s.noteStart e).round.start = s.round.start ∧ (s.noteStart e).round.lost = s.round.lost
      ∧ (s.noteStart e).round.slotsClosed = s.round.slotsClosed := by
  rw [noteStart_round]
  split <;> exact ⟨rfl, rfl, rfl⟩

theorem detectStart_round_keeps (s : State) (e : Nat) :
    (s.detectStart e).round.start = s.round.start ∧ (s.detectStart e).round.lost = s.round.lost
      ∧ (s.detectStart e).round.slotsClosed = s.round.slotsClosed := by
  by_cases h : s.line.detects e
  · rw [detectStart_of_detects h]
    exact noteStart_round_keeps s e
  · rw [detectStart_of_not_detects h]
    exact ⟨rfl, rfl, rfl⟩

/-- A detected start edge is one more character under way. -/
theorem begun_detected {l : LineInterface} {e : Nat} (htx : l.tx = .released) (h : l.detects e) :
    (l.detected e).begun.Perm (e :: l.begun) := by
  unfold LineInterface.detected
  cases hrx : l.rx with
  | none => simp [LineInterface.begun, htx, hrx]
  | some st =>
    dsimp only
    rw [if_pos (h st hrx)]
    simpa [LineInterface.begun, htx, hrx, (h st hrx).2] using
      (List.perm_append_singleton e (l.rxSampled.toList ++ [st]))

/-- At the close of a slot window, or later, an attempt that the start edge of the microsecond before leaves complete was
waiting for it already. -/
theorem awaitsLast_of_detected {f : Attempt} {e : Nat} (htx : s.line.tx = .released) (hnow : s.now = e + 1)
    (hlate : 40 + 360 * (f.slot.val + 1) ≤ s.now - s.round.start)
    (h : 15 ≤ f.bytes.length + ((s.line.detected e).begun.filter fun st =>
      decide (s.round.start ≤ st ∧ 40 + 360 * f.slot.val ≤ st - s.round.start
        ∧ st - s.round.start < 40 + 360 * (f.slot.val + 1))).length) : s.awaitsLast f = true := by
  rw [awaitsLast_iff, startsIn_eq]
  by_cases hd : s.line.detects e
  · rw [((begun_detected htx hd).filter _).length_eq, List.filter_cons] at h
    split at h
    next hin =>
      obtain ⟨hstart, -, hbefore⟩ := of_decide_eq_true hin
      rw [List.length_cons] at h
      have hopen : s.startOpen f.slot = true := (startOpen_iff s _).mpr
        ⟨htx, by omega, fun st hst => ⟨(hd st hst).2, by have := (hd st hst).1; omega⟩⟩
      rw [hopen]
      simp only [and_true]
      omega
    · exact .inl h
  · rw [detected_of_not_detects hd] at h
    exact .inl h

theorem begun_detected_congr {l m : LineInterface} (e : Nat) (hrx : l.rx = m.rx) (hnext : l.rxNext = m.rxNext)
    (hsampled : l.rxSampled = m.rxSampled) (htx : l.tx = m.tx) : (l.detected e).begun = (m.detected e).begun := by
  unfold LineInterface.detected LineInterface.begun
  rw [hrx, hnext]
  cases m.rx with
  | none => simp [hsampled, htx]
  | some st => dsimp only; split <;> simp [hsampled, htx, hrx, hnext]

/-- What becomes of an attempt whose window had closed before the command, when the command has begun a character and leaves
no start edge open: it stays if the characters under way can complete it. -/
theorem settleAttempt_of_begun {f : Attempt} (after : Wait) {b : State} (hf : s.line.attempt = some f)
    (hclosed : f.slot.val < s.round.slotsClosed) (hattempt : b.line.attempt = (s.advance after).line.attempt)
    (herrors : b.line.errors = (s.advance after).line.errors) (hport : b.port = (s.advance after).port)
    (hlost : b.round.lost = s.round.lost) (hslots : b.round.slotsClosed = s.round.slotsClosed)
    (hopen : b.startOpen f.slot = false)
    (hwaits : 15 ≤ f.bytes.length + (b.startsIn f.slot).length → (s.elapse after).awaitsLast f = true) :
    (15 ≤ f.bytes.length + (b.startsIn f.slot).length →
        b.settleAttempt.line.attempt = some f ∧ b.settleAttempt.line.errors = s.line.errors
          ∧ b.settleAttempt.port = (s.advance after).port)
      ∧ (f.bytes.length + (b.startsIn f.slot).length < 15 → b.settleAttempt.line.attempt = none
          ∧ (s.round.lost = false → b.settleAttempt.hasLinkError .short = true)
          ∧ (s.round.lost = true → b.settleAttempt.line.errors = s.line.errors
              ∧ b.settleAttempt.port = (s.advance after).port)) := by
  have hb : b.awaitsLast f = true ↔ 15 ≤ f.bytes.length + (b.startsIn f.slot).length := by simp [awaitsLast_iff, hopen]
  rcases advance_of_closed after hf hclosed with ⟨-, hstands⟩ | ⟨hnot, hcut⟩
  · have hbf : b.line.attempt = some f := hattempt.trans ((congrArg (fun x : State => x.line.attempt) hstands).trans hf)
    have hberr : b.line.errors = s.line.errors := herrors.trans (congrArg (fun x : State => x.line.errors) hstands :)
    refine ⟨fun h => ?_, fun h => ?_⟩
    · rw [settleAttempt_of_awaits hbf (hb.mpr h)]
      exact ⟨hbf, hberr, hport⟩
    · rw [settleAttempt_of_closed hbf (hslots ▸ hclosed) (Bool.eq_false_iff.mpr fun x => by have := hb.mp x; omega)]
      obtain ⟨hnone, hshort, hquiet⟩ := attemptCut_cutAttempt b f
      rw [hlost] at hshort hquiet
      exact ⟨hnone, hshort, fun hl => ⟨(hquiet hl).1.trans hberr, (hquiet hl).2.trans hport⟩⟩
  · obtain ⟨hnone, hshort, hquiet⟩ := hcut
    rw [settleAttempt_of_none (hattempt.trans hnone)]
    refine ⟨fun h => absurd (hwaits h) (by simp [hnot]), fun _ => ⟨hattempt.trans hnone, fun hl => ?_, fun hl => ?_⟩⟩
    · have := hshort hl
      simpa only [State.hasLinkError, herrors] using this
    · exact ⟨herrors.trans (hquiet hl).1, hport⟩

end

/-- Settles O24: the start edge by what is under way at the receiver, the attempt by the characters that it leaves begun. -/
theorem characterStartIsDetected : Obligations.CharacterStartIsDetected := by
  intro after s hrun hreceives a noted settled
  have hround : a.round = s.round := advance_round s after
  have hexec : exec (.characterStart after true) s = .next (a.detectStart (a.now - 1)).settleAttempt := by
    refine congrArg Host.Outcome.next (if_pos ?_)
    simp [hrun, hreceives]
  have hnoted : (a.noteStart (a.now - 1)).round = noted := by
    rw [noteStart_round]
    simp only [noted, hround, Bool.and_eq_true, decide_eq_true_eq]
  obtain ⟨hstart, hlost, hslots⟩ := detectStart_round_keeps a (a.now - 1)
  rw [hround] at hstart hlost hslots
  have hline : (a.detectStart (a.now - 1)).line = a.line.detected (a.now - 1) :=
    congrArg State.line (detectStart_eq a (a.now - 1))
  obtain ⟨hattempt, herrors, hdtx⟩ := detected_keeps a.line (a.now - 1)
  rw [← hline] at hattempt herrors hdtx
  have hopen : settled → a = s.elapse after := fun h => advance_of_open after h
  have hstands : settled → (a.detectStart (a.now - 1)).settleAttempt = a.detectStart (a.now - 1) := fun h => by
    refine settleAttempt_of_open fun f hf => ?_
    rw [hattempt, hopen h] at hf
    exact hslots.trans_le (h f hf)
  have hrx : a.line.rx = s.line.rx := advance_line_rx s after
  have hnext : a.line.rxNext = s.line.rxNext := advance_line_rxNext s after
  refine ⟨?_, fun h hidle => ?_, fun st h hst hnone hsampled => ?_, fun st h hst hlate => ?_, fun f hf hclosed htx htime => ?_⟩
  · exact congrArg Host.Outcome.next (if_neg (by simp))
  · have hd : a.line.detects (a.now - 1) := fun st' hst' => by rw [hrx, hidle] at hst'; cases hst'
    rw [hexec, hstands h, detectStart_of_detects hd, hnoted]
    simp [LineInterface.detected, hrx, hidle]
  · have hd : a.line.detects (a.now - 1) := fun st' hst' => by
      rw [hrx, hst] at hst'; cases hst'; exact ⟨hsampled, hnext.trans hnone⟩
    rw [hexec, hstands h, detectStart_of_detects hd, hnoted]
    simp [LineInterface.detected, hrx, hst, hnext, hnone, hsampled]
  · have hd : ¬a.line.detects (a.now - 1) := fun hd => by have := (hd st (hrx.trans hst)).1; omega
    rw [hexec, hstands h, detectStart_of_not_detects hd]
  · set e := a.now - 1 with he
    set b := a.detectStart e with hb
    have hnow : a.now = e + 1 := by omega
    have hbtx : b.line.tx = .released := hdtx.trans ((advance_line_tx s after).trans htx)
    refine ⟨_, hexec, fun hidle => ?_, fun st hst => ?_, ?_⟩
    · rw [settleAttempt_line_rx, settleAttempt_line_rxNext, hline]
      simp [LineInterface.detected, hrx, hidle, hnext]
    · rw [settleAttempt_line_rx, settleAttempt_line_rxNext, hline]
      simp only [LineInterface.detected, hrx, hst, hnext]
      split
      next h => exact ⟨rfl, (if_pos ⟨h.2, h.1⟩).symm⟩
      next h => exact ⟨hrx.trans hst, by rw [if_neg fun hs => h ⟨hs.2, hs.1⟩, hnext]⟩
    · have hbegun : (b.settleAttempt.line.rxSampled.toList ++ b.settleAttempt.line.rx.toList
          ++ b.settleAttempt.line.rxNext.toList) = b.line.begun := by
        simp [LineInterface.begun, hbtx, List.append_assoc]
      intro begun
      have hcount : begun = b.startsIn f.slot := by rw [startsIn_eq, ← hbegun, hstart]
      rw [hcount]
      refine settleAttempt_of_begun after hf hclosed hattempt herrors (by simp [hb, a]) hlost hslots
        (startOpen_detected (by omega) _) fun h => ?_
      rw [startsIn_eq, hstart, hline,
        begun_detected_congr (m := (s.elapse after).line) e hrx hnext (advance_line_rxSampled s after)
          (advance_line_tx s after)] at h
      exact awaitsLast_of_detected (s := s.elapse after) htx (by simpa [a] using hnow) (by simpa [a] using htime) h

end Sys2Proof.Machine
end

section
/-! PROOFS. The own slot (R19, R32): what the node sends, and what it leaves of an attempt whose window has closed. -/

namespace Sys2Proof.Machine

section

variable {s : State}

/-- A node that begins to send has its own start edge at the receiver, and the character before it when that has had its stop
bit sampled. -/
theorem beginSending_line (s : State) (x : Tx) :
    (s.beginSending x).line = { s.line with
      tx := x, rx := some s.now, rxNext := none, rxSampled := s.line.rx.filter fun st => decide (st + 21 ≤ s.now) } := by
  rw [State.beginSending, noteStart_line]
  rfl

theorem beginSending_round (s : State) (x : Tx) : (s.beginSending x).round = (s.noteStart s.now).round := by
  rw [State.beginSending, noteStart_of_line]

/-- A node that sends can detect no start edge. -/
theorem startOpen_of_sending (h : s.line.tx ≠ .released) (k : Station) : s.startOpen k = false :=
  Bool.eq_false_iff.mpr fun hopen => h ((startOpen_iff s k).mp hopen).1

/-- The character whose stop bit has been sampled is one of those under way before the node began to send. -/
theorem begun_of_sending {l : LineInterface} {x : Tx} {now : Nat} (hx : x ≠ .released) (htx : l.tx = .released) :
    List.Sublist { l with tx := x, rx := some now, rxNext := none,
                          rxSampled := l.rx.filter fun st => decide (st + 21 ≤ now) }.begun l.begun := by
  simp only [LineInterface.begun, if_neg hx, if_pos htx, List.append_nil]
  rw [Option.toList_filter]
  exact (List.filter_sublist.trans (List.sublist_append_left _ _)).trans (List.sublist_append_right _ _)

end

/-- Settles O30: the transmission that begins, and the attempt by the character that is still to complete. -/
theorem ownSlotSendsTheReport : Obligations.OwnSlotSendsTheReport := by
  intro after s hrun hon a
  have hround : a.round = s.round := advance_round s after
  have htx : a.line.tx = s.line.tx := advance_line_tx s after
  refine ⟨fun hlost hdone hreleased htime => ?_, fun hlost => ?_⟩
  · have hdue : a.ownSlotDue = true := by
      simp only [State.ownSlotDue, Bool.and_eq_true, Bool.not_eq_true', decide_eq_true_eq, hround, htx]
      exact ⟨⟨⟨⟨⟨(advance_running s after).trans hrun, by simpa [a] using hon⟩, hlost⟩, hdone⟩, hreleased⟩,
        by simpa [State.roundTime, hround, slotOpens, Config.slotLead, Config.slotLength, a] using htime⟩
    set a' : State := { a with round := { a.round with ownSlotDone := true } } with ha'
    set b := a'.beginSending (.frame a.slotReport 0) with hb
    have hexec : exec (.ownSlotOpen after) s = .next b.settleAttempt := congrArg Host.Outcome.next (if_pos hdue)
    have hline : b.line = { a.line with
        tx := .frame a.slotReport 0, rx := some a.now, rxNext := none
        rxSampled := a.line.rx.filter fun st => decide (st + 21 ≤ a.now) } := beginSending_line a' _
    have hbround : b.round = (a'.noteStart a.now).round := beginSending_round a' _
    obtain ⟨hstart, hblost, hslots⟩ := noteStart_round_keeps a' a.now
    rw [← hbround] at hstart hblost hslots
    rw [show a'.round.start = s.round.start from (congrArg RoundTimer.start hround :)] at hstart
    rw [show a'.round.lost = s.round.lost from (congrArg RoundTimer.lost hround :)] at hblost
    rw [show a'.round.slotsClosed = s.round.slotsClosed from (congrArg RoundTimer.slotsClosed hround :)] at hslots
    have hle : a'.round.start ≤ a.now := by show a.round.start ≤ a.now; rw [hround]; omega
    have hnoted := noteStart_round a' a.now
    rw [if_pos hle, ← hbround] at hnoted
    have hreport : a.slotReport = { s.ownReport with
        station := s.station, leaving := decide (s.link.state = .leaving ∧ s.link.leave = .owed) } := by
      simp [State.slotReport, a]
    have hsending : b.line.tx ≠ .released := by rw [hline]; exact fun h => Tx.noConfusion h
    have hsettled : b.settleAttempt.round = b.round := settleAttempt_round b
    refine ⟨_, hexec, ?_, ?_, ?_, ?_, fun hopen => ?_, fun f hf hclosed => ?_, ?_, fun hsynced => ?_, ?_, ?_, ?_⟩
    · rw [settleAttempt_line_tx, hline, ← hreport]
    · rw [settleAttempt_line_rx, hline]
    · rw [settleAttempt_line_rxNext, hline]
    · rw [settleAttempt_line_rxSampled, hline]; simp [a]
    · have ha : a.line = s.line := by
        rw [show a = s.elapse after from advance_of_open after hopen]
        rfl
      have hstands : b.settleAttempt = b := settleAttempt_of_open fun f hf => by
        rw [hline] at hf
        exact hslots.trans_le (hopen f ((congrArg LineInterface.attempt ha).symm.trans hf))
      rw [hstands, hline, ha]
    · intro begun
      have hcount : begun = b.startsIn f.slot := by
        rw [startsIn_eq, hstart, LineInterface.begun, if_neg hsending, List.append_nil, ← settleAttempt_line_rxSampled b]
      rw [hcount]
      obtain ⟨hkept, hcut⟩ := settleAttempt_of_begun (b := b) after hf hclosed (by rw [hline])
        (by rw [hline]) (by simp [hb, ha', a]) hblost
        hslots (startOpen_of_sending hsending f.slot) fun h => by
          refine (awaitsLast_iff _ f).mpr (.inl (h.trans (Nat.add_le_add_left ?_ _)))
          rw [startsIn_eq, startsIn_eq, hstart]
          refine List.Sublist.length_le (List.Sublist.filter _ ?_)
          have hsub := begun_of_sending (l := a.line) (x := .frame a.slotReport 0) (now := a.now)
            (fun hx => Tx.noConfusion hx) (htx.trans hreleased)
          rw [← hline] at hsub
          have hbegun : a.line.begun = (s.elapse after).line.begun := by
            simp only [LineInterface.begun, a, advance_line_tx, advance_line_rx, advance_line_rxNext, advance_line_rxSampled,
              elapse_line]
            rfl
          exact hbegun ▸ hsub
      exact ⟨fun h => ⟨(hkept h).1, (hkept h).2.1⟩, fun h => ⟨(hcut h).1, (hcut h).2.1 hlost⟩⟩
    · rw [hsettled, hnoted]
    · have hslot : a'.slotOf a.now = some a'.station := by
        rw [slotOf_eq_some_iff, offset_of_le hle]
        have hstation : a'.station = s.station := advance_station s after
        rw [hstation]
        show slotOpens s.station.val ≤ a.now - a.round.start ∧ a.now - a.round.start < slotOpens (s.station.val + 1)
        rw [hround, htime]
        simp only [slotOpens, Config.slotLead, Config.slotLength]
        omega
      have hsyn : a'.round.synced = true := (congrArg RoundTimer.synced hround).trans hsynced
      rw [hsettled, hnoted]
      simp [hslot, hsyn]
    · simp [hb, ha', a]
    · simp [hb, ha', a]
    · simp [hb, ha', a]
  · refine congrArg Host.Outcome.next (if_neg ?_)
    simp [State.ownSlotDue, hlost]

end Sys2Proof.Machine
end

section
/-! PROOFS. A received character that completes (R3, R9 to R15): what it leaves at the receiver, the mark that it may be, and the
lost round that it may close. -/

namespace Sys2Proof.Machine

section

variable {s : State}

/-! ### Link error flags that stand (R21) -/

theorem hasLinkError_of_errors {t : State} (h : t.line.errors = s.line.errors) (e : LinkError) :
    t.hasLinkError e = s.hasLinkError e := by simp [State.hasLinkError, h]

/-- A link error sets no flag but its own. -/
theorem linkError_hasLinkError_of_ne {e f : LinkError} (h : e ≠ f) : (s.linkError e).hasLinkError f = s.hasLinkError f := by
  have hbit : (e.flag.getLsbD f.bit) = false := by
    cases e <;> cases f <;> simp_all [LinkError.flag, LinkError.bit]
  simp [State.hasLinkError, linkError_line, hbit]

theorem linkErrorIf_hasLinkError_of (p : Bool) (e : LinkError) {f : LinkError} (h : s.hasLinkError f = true) :
    (s.linkErrorIf p e).hasLinkError f = true := by
  cases p
  · exact h
  · exact linkError_hasLinkError_of e h

theorem linkErrorIf_hasLinkError_of_ne (p : Bool) {e f : LinkError} (h : e ≠ f) :
    (s.linkErrorIf p e).hasLinkError f = s.hasLinkError f := by
  cases p
  · rfl
  · exact linkError_hasLinkError_of_ne h

/-- A boundary clears no link error flag. -/
theorem takeBoundary_hasLinkError_of (k : BoundaryKind) (n : BitVec 8) {f : LinkError} (h : s.hasLinkError f = true) :
    (s.takeBoundary k n).hasLinkError f = true := by
  have hdrop : s.dropAttempt.hasLinkError f = true := by
    unfold State.dropAttempt
    split
    · exact h
    · exact linkErrorIf_hasLinkError_of _ .short h
  simp only [State.hasLinkError, takeBoundary_line]
  split <;> exact hdrop

/-- A boundary begins no transmission. -/
theorem takeBoundary_tx_of_released (k : BoundaryKind) (n : BitVec 8) (h : s.line.tx = .released) :
    (s.takeBoundary k n).line.tx = .released := by
  rw [takeBoundary_line]
  split
  · rfl
  · exact (LineWork.dropAttempt s).tx.trans h

/-- An event that a boundary finds raised stands at its end. -/
theorem takeBoundary_hasEvent_of (k : BoundaryKind) (n : BitVec 8) {e : Event} (h : s.hasEvent e = true) :
    (s.takeBoundary k n).hasEvent e = true :=
  Raised.hasEvent (s := s) (by simp) h

/-! ### The receiver after a character (R3) -/

/-- The Line Interface when the character that completes has left the receiver. -/
def State.lineLeft (s : State) : LineInterface :=
  if s.characterDue then s.line.shift else { s.line with rxSampled := none }

/-- A received character that completes is taken with its start edge, from the receiver that it has left. -/
theorem completeCharacter_of_completes {st : Nat} (c : CharBits) (h : s.completes st) :
    s.completeCharacter c = State.received { s with line := s.lineLeft } st c := by
  obtain ⟨hrun, hreceives, htime, ⟨htx, hrx⟩ | ⟨hsampled, hown⟩⟩ := h
  · have hdue : s.characterDue = true := by simp [State.characterDue, hrun, hreceives, hrx, Config.characterTime, htime]
    simp [State.completeCharacter, State.lineLeft, hdue, htx, hrx]
  · have hnot : s.characterDue = false := by
      cases hrx : s.line.rx with
      | none => simp [State.characterDue, hrx]
      | some own =>
        refine Bool.eq_false_iff.mpr fun hdue => ?_
        simp only [State.characterDue, hrx, Option.any_some, Bool.and_eq_true] at hdue
        obtain ⟨-, hd⟩ := hdue
        have hlate : own + 22 ≤ s.now := of_decide_eq_true hd
        exact absurd (hown own hrx) (by omega)
    have hdue : s.sampledDue = true := by
      simp [State.sampledDue, hrun, hreceives, hnot, hsampled, Config.characterTime, htime]
    simp [State.completeCharacter, State.lineLeft, hnot, hdue, hsampled]

theorem exec_characterComplete_of_completes {st : Nat} {after : Wait} (c : CharBits) (h : (s.advance after).completes st) :
    exec (.characterComplete after c) s
      = .next (State.received { s.advance after with line := (s.advance after).lineLeft } st c) :=
  congrArg Host.Outcome.next (completeCharacter_of_completes c h)

/-! ### The mark window (R3, R7, R11) -/

theorem roundOf_of_lt {e : Nat} (h : e < s.round.start) : s.roundOf e = s.round.before := by
  simp [State.roundOf, State.inThisRound, Nat.not_le.mpr h]

theorem roundOf_state_of_le {e : Nat} (h : s.round.start ≤ e) : (s.roundOf e).state = s.link.state := by
  rw [roundOf_of_le h, State.roundFrame]

/-- A start edge falls in the mark window of the round under way, or in that of the round that the last boundary closed. -/
theorem inWindow_iff {e : Nat} : s.inWindow e = true ↔ s.link.state.onLink = true
    ∧ ((s.round.start ≤ e ∧ s.period ≤ (e - s.round.start) + 1000)
      ∨ (e < s.round.start ∧ s.round.before.state.onLink = true ∧ s.period ≤ (e - s.round.before.start) + 1000)) := by
  rcases Nat.lt_or_ge e s.round.start with h | h
  · simp [State.inWindow, State.offset, roundOf_of_lt h, Config.windowLead, h, Nat.not_le.mpr h, and_assoc]
  · simp only [State.inWindow, roundOf_state_of_le h, offset_of_le h, Config.windowLead, Bool.and_eq_true, decide_eq_true_eq]
    simp [h, Nat.not_lt.mpr h]

/-- A valid mark is a boundary in LISTENING, in a round that was one of LISTENING, and inside a mark window. -/
theorem markTaken_iff {e : Nat} : s.markTaken e = true ↔ s.link.state = .listening
    ∨ (e < s.round.start ∧ s.round.before.state = .listening) ∨ s.inWindow e = true := by
  rcases Nat.lt_or_ge e s.round.start with h | h
  · simp [State.markTaken, roundOf_of_lt h, h, or_assoc]
  · simp [State.markTaken, roundOf_state_of_le h, Nat.not_lt.mpr h]

/-- Where no mark window is open, a mark is taken in LISTENING alone. -/
theorem not_markTaken_of_early {e : Nat} (hon : s.link.state.onLink = true) (hs : s.round.start ≤ e)
    (hearly : (e - s.round.start) + 1000 < s.period) : s.markTaken e = false := by
  refine Bool.eq_false_iff.mpr fun h => ?_
  rcases markTaken_iff.mp h with hl | ⟨hlt, -⟩ | hw
  · rw [hl] at hon; cases hon
  · omega
  · rcases (inWindow_iff.mp hw).2 with ⟨-, hle⟩ | ⟨hlt, -⟩ <;> omega

theorem settleAttempt_hasLinkError_of {f : LinkError} (h : s.hasLinkError f = true) : s.settleAttempt.hasLinkError f = true := by
  rcases settleAttempt_cases s with e | ⟨a, -, -, -, e⟩ <;> rw [e]
  · exact h
  · exact linkErrorIf_hasLinkError_of _ .short h

/-- All that time does to the link error flags is to set SHORT. -/
theorem advance_hasLinkError_of_ne {f : LinkError} (after : Wait) (h : f ≠ .short) :
    (s.advance after).hasLinkError f = s.hasLinkError f := by
  show (s.elapse after).settleAttempt.hasLinkError f = _
  rcases settleAttempt_cases (s.elapse after) with e | ⟨a, -, -, -, e⟩ <;> rw [e]
  · rfl
  · exact linkErrorIf_hasLinkError_of_ne _ h.symm

/-- A valid mark sets no FRAMING. -/
theorem received_mark (st : Nat) (n : BitVec 8) : s.received st ⟨n, true, true⟩ = s.takeMark st n := rfl

/-- An early mark is noted in the attempt that it interrupts, which may end with it. -/
theorem takeMark_of_not_taken {st : Nat} (n : BitVec 8) (h : s.markTaken st = false) :
    s.takeMark st n = (s.markInAttempt.linkError .earlyMark).settleAttempt := if_neg (by simp [h])

/-- A character that begins in the mark window and is no valid mark closes the round as lost. -/
theorem received_of_inWindow {st : Nat} {c : CharBits} (hw : s.inWindow st = true) (hc : (c.mark && c.stop) = false) :
    s.received st c
      = ((s.linkErrorIf (!c.stop) .framing).linkError .lostMark).takeBoundary .lost (s.round.number + 1) := by
  have hw' : (s.linkErrorIf (!c.stop) .framing).inWindow st = true := (inWindow_congr (by simp) (by simp) (by simp)).trans hw
  unfold State.received
  dsimp only
  rw [if_neg (by simp [hc]), State.takeOther, if_pos hw', linkErrorIf_round]

end

/-- Settles O25: the mark by the window of its round. -/
theorem marksAreAdoptedOrEarly : Obligations.MarksAreAdoptedOrEarly := by
  intro after st n s a left hcompletes
  set u : State := { a with line := a.lineLeft } with hu
  have hexec : exec (.characterComplete after ⟨n, true, true⟩) s = .next (u.takeMark st n) :=
    (exec_characterComplete_of_completes _ hcompletes).trans (congrArg Host.Outcome.next (received_mark st n))
  have hround : u.round = s.round := advance_round s after
  have hlink : u.link = s.link := advance_link s after
  have htaken : u.markTaken st = s.markTaken st := markTaken_congr hlink (advance_config s after) hround
  refine ⟨fun hmark => ?_, fun hon hstart hearly => ?_⟩
  · have hm : s.markTaken st = true := by
      rw [markTaken_iff, inWindow_iff]
      rcases hmark with h | ⟨hon, hs, hp⟩ | ⟨hon, hlt, hb⟩ | ⟨hon, hlt, hb, hp⟩
      · exact .inl h
      · exact .inr (.inr ⟨hon, .inl ⟨hs, hp⟩⟩)
      · exact .inr (.inl ⟨hlt, hb⟩)
      · exact .inr (.inr ⟨hon, .inr ⟨hlt, hb, hp⟩⟩)
    refine ⟨u.takeBoundary .adopted n, hexec.trans (congrArg Host.Outcome.next (if_pos (htaken.trans hm))), ?_, ?_, ?_, ?_⟩
    · simp
    · simp [hu]
    · simp
    · simp [takeBoundary_round_lost_eq]
  · have hwork : LineWork u (u.markInAttempt.linkError .earlyMark).settleAttempt :=
      ((LineWork.markInAttempt u).trans (.linkError _ _)).trans (.settleAttempt _)
    rw [takeMark_of_not_taken n (htaken.trans (not_markTaken_of_early hon hstart hearly))] at hexec
    have hsampled : u.line.rxSampled = none := by
      simp only [hu, State.lineLeft]; split <;> rfl
    have htx : u.line.tx = s.line.tx := by
      rw [← advance_line_tx s after]
      simp only [hu, State.lineLeft]; split <;> rfl
    exact ⟨_, hexec, hwork.round.trans hround, settleAttempt_hasLinkError_of (linkError_hasLinkError _ _), hwork.rx, hwork.rxNext,
      hwork.rxSampled.trans hsampled, hwork.tx.trans htx, hwork.link.trans hlink, hwork.roster.trans (advance_roster s after)⟩

/-- Settles O26: a character of the window by its link errors, the own mark by its readback. -/
theorem lostRoundsAndOwnMarks : Obligations.LostRoundsAndOwnMarks := by
  intro after st c s a window hon
  have hround : a.round = s.round := advance_round s after
  have hlink : a.link = s.link := advance_link s after
  refine ⟨fun hcompletes hwindow hc => ?_, fun n hrun htx hrx htime => ?_⟩
  · set u : State := { a with line := a.lineLeft } with hu
    have hw : u.inWindow st = true :=
      (inWindow_congr (s := s) hlink (advance_config s after) hround).trans (inWindow_iff.mpr ⟨hon, hwindow⟩)
    have hexec : exec (.characterComplete after c) s
        = .next (((u.linkErrorIf (!c.stop) .framing).linkError .lostMark).takeBoundary .lost (s.round.number + 1)) := by
      refine (exec_characterComplete_of_completes c hcompletes).trans (congrArg Host.Outcome.next ?_)
      rw [received_of_inWindow hw hc, show u.round = s.round from hround]
    refine ⟨_, hexec, by simp, by simp [hu], by simp, ?_, fun hclear => ?_, fun hstop => ?_⟩
    · exact takeBoundary_hasLinkError_of _ _ (linkError_hasLinkError _ _)
    · refine takeBoundary_hasEvent_of _ _ (linkError_hasEvent ?_)
      have herrors : u.line.errors = a.line.errors := by simp only [hu, State.lineLeft]; split <;> rfl
      rw [linkErrorIf_hasLinkError_of_ne _ (by decide), hasLinkError_of_errors herrors]
      exact (advance_hasLinkError_of_ne after (by decide)).trans hclear
    · refine takeBoundary_hasLinkError_of _ _ (linkError_hasLinkError_of _ ?_)
      rw [hstop]
      exact linkError_hasLinkError _ _
  · have hdue : a.characterDue = true := by
      have harx : a.line.rx = some st := (advance_line_rx s after).trans hrx
      have hreceives : a.link.state.receives = true := by rw [hlink]; exact receives_of_onLink hon
      have harun : a.running = true := (advance_running s after).trans hrun
      simp [State.characterDue, harun, hreceives, harx, Config.characterTime, htime]
    have hatx : a.line.tx = .mark n := (advance_line_tx s after).trans htx
    have hexec : exec (.characterComplete after c) s
        = .next (State.takeBoundary { a with line := { a.line.shift with tx := .released } } .originated n) := by
      refine congrArg Host.Outcome.next ?_
      show a.completeCharacter c = _
      simp [State.completeCharacter, hdue, hatx]
    exact ⟨_, hexec, by simp, by simp, by simp [takeBoundary_round_lost_eq], takeBoundary_tx_of_released _ _ rfl⟩

end Sys2Proof.Machine
end

section
/-! PROOFS. The formats (09, R192 to R196): each field of a report, of a claim and of a character reads back from the bytes or
levels that carry it. -/

namespace Sys2Proof.Machine

/-! ### Words and sums of bytes -/

theorem extractLsb'_append_extractLsb' (w : BitVec 16) : w.extractLsb' 8 8 ++ w.extractLsb' 0 8 = w := by
  refine BitVec.eq_of_getLsbD_eq fun i hi => ?_
  simp only [BitVec.getLsbD_append, BitVec.getLsbD_extractLsb']
  grind

theorem word24_extractLsb' (w : BitVec 24) : w.extractLsb' 16 8 ++ (w.extractLsb' 8 8 ++ w.extractLsb' 0 8) = w := by
  refine BitVec.eq_of_getLsbD_eq fun i hi => ?_
  simp only [BitVec.getLsbD_append, BitVec.getLsbD_extractLsb']
  grind

theorem sumBytes_append (l m : List Byte) : sumBytes (l ++ m) = sumBytes l + sumBytes m := by
  induction l with
  | nil => simp [sumBytes]
  | cons x l ih => simpa [sumBytes, BitVec.add_assoc] using congrArg (x + ·) ih

/-- The check byte makes a frame sum to 0. -/
theorem sumBytes_frame (r : Report) : sumBytes r.frame = 0 := by
  rw [Report.frame, sumBytes_append]
  simp [sumBytes]

theorem ofCode_code_phase (x : TrialPhase) : TrialPhase.ofCode x.code = some x := by cases x <;> rfl

/-- The pieces of a report's second byte. -/
theorem secondByte_pieces : ∀ c n : BitVec 3,
    (0#1 ++ c ++ 0#1 ++ n : Byte).extractLsb' 0 3 = n ∧ (0#1 ++ c ++ 0#1 ++ n : Byte).getLsbD 3 = false
      ∧ (0#1 ++ c ++ 0#1 ++ n : Byte).extractLsb' 4 3 = c ∧ (0#1 ++ c ++ 0#1 ++ n : Byte).getLsbD 7 = false := by
  decide

/-- The pieces of a claim's first byte. -/
theorem firstClaimByte_pieces : ∀ (k d : BitVec 2) (t : BitVec 4),
    (k ++ d ++ t : Byte).extractLsb' 6 2 = k ∧ (k ++ d ++ t : Byte).extractLsb' 4 2 = d := by decide

theorem ofCode_code_kind (k : TrialKind) : TrialKind.ofCode k.code.toNat = k := by cases k <;> rfl

theorem charLevels_data : ∀ d : BitVec 8,
    BitVec.ofNat 8 (((List.range 8).map fun i => d.getLsbD i).foldr (fun b n => (if b then 1 else 0) + 2 * n) 0) = d := by
  decide

theorem charOfLevels_charLevels (c : CharBits) : charOfLevels (charLevels c) = c :=
  congrArg (fun d => (⟨d, c.mark, c.stop⟩ : CharBits)) (charLevels_data c.data)

/-- A report with a ready count of at most 4 is a good one, and its frame carries it. -/
theorem ofFrame_frame {r : Report} (h : r.readyCount ≤ 4) : Report.ofFrame r.frame = some r := by
  obtain ⟨htarget, hleaving, hbrk, hfault, halarm⟩ :=
    flagBits r.alarm r.fault r.brk r.leaving (BitVec.ofFin r.station)
  obtain ⟨hready, -, hphase, -⟩ := secondByte_pieces r.phase.code (BitVec.ofNat 3 r.readyCount)
  have hcount : (BitVec.ofNat 3 r.readyCount).toNat = r.readyCount := by
    rw [BitVec.toNat_ofNat]; exact Nat.mod_eq_of_lt (by omega)
  have hstation : lowerNibble (nth r.frame 0) = r.station := congrArg BitVec.toFin htarget
  have hid : TrialId.ofByte (nth r.frame 9) = r.id := by
    show TrialId.ofByte (nibbles r.id.proposer r.id.seq) = r.id
    rw [TrialId.ofByte, upperNibble_nibbles, lowerNibble_nibbles]
  have hspeed : word24 r.frame 2 = r.speed := word24_extractLsb' r.speed
  have hload : word16 r.frame 5 = r.load := extractLsb'_append_extractLsb' r.load
  have htrim : word16 r.frame 7 = r.trim := extractLsb'_append_extractLsb' r.trim
  have hcode : (nth r.frame 1).extractLsb' 4 3 = r.phase.code := hphase
  have hlow : ((nth r.frame 1).extractLsb' 0 3).toNat = r.readyCount := (congrArg BitVec.toNat hready).trans hcount
  unfold Report.ofFrame
  dsimp only
  rw [hcode, ofCode_code_phase, hlow]
  dsimp only
  rw [if_pos h, hstation, hid, hspeed, hload, htrim]
  rw [show (nth r.frame 0).getLsbD 4 = r.leaving from hleaving, show (nth r.frame 0).getLsbD 5 = r.brk from hbrk,
    show (nth r.frame 0).getLsbD 6 = r.fault from hfault, show (nth r.frame 0).getLsbD 7 = r.alarm from halarm]
  rfl

/-- Valid parameters read back from their four bytes. -/
theorem ofBytes_claimBytes {p : TrialParams} (h : p.valid = true) :
    TrialParams.ofBytes p.claimBytes = p ∧ (BitVec.ofInt 8 p.step).toInt = p.step ∧ (byteOf p.duration).toNat = p.duration := by
  simp only [TrialParams.valid, Bool.and_eq_true, decide_eq_true_eq] at h
  obtain ⟨⟨⟨⟨⟨-, hlow⟩, hhigh⟩, -⟩, hdur⟩, -⟩ := h
  have hstep : (BitVec.ofInt 8 p.step).toInt = p.step := by
    rw [BitVec.toInt_ofInt]; exact Int.bmod_eq_of_le (by omega) (by omega)
  have hduration : (byteOf p.duration).toNat = p.duration := by
    rw [byteOf, BitVec.toNat_ofNat]; exact Nat.mod_eq_of_lt (by omega)
  obtain ⟨hkind, hdrive⟩ := firstClaimByte_pieces p.kind.code (BitVec.ofFin p.drive) (BitVec.ofFin p.target)
  have htarget : lowerNibble p.byteA = p.target := congrArg BitVec.toFin (extractLsb'_append_low _ _)
  refine ⟨?_, hstep, hduration⟩
  unfold TrialParams.ofBytes TrialParams.claimBytes
  dsimp only
  rw [show p.byteA.extractLsb' 6 2 = p.kind.code from hkind,
    show p.byteA.extractLsb' 4 2 = BitVec.ofFin p.drive from hdrive, ofCode_code_kind, htarget, hduration,
    show p.byteC.toInt = p.step from hstep, TrialParams.byteB, upperNibble_nibbles, lowerNibble_nibbles]

/-- Settles O56: the report and the claim by their bytes, the codes by their tables. -/
theorem formatsReadBack : Obligations.FormatsReadBack := by
  refine ⟨fun r hr => ?_, fun p hp => ?_, rfl, rfl, rfl, rfl, rfl, rfl, rfl, rfl, fun _ _ => rfl, rfl, rfl, rfl, rfl, rfl,
    rfl, rfl, rfl, rfl, rfl, rfl, fun _ => rfl, fun _ => rfl, fun _ => rfl, fun c => ⟨charOfLevels_charLevels c, rfl, rfl, ?_⟩⟩
  · obtain ⟨hstation, hleaving, hbrk, hfault, halarm⟩ := flagBits r.alarm r.fault r.brk r.leaving (BitVec.ofFin r.station)
    obtain ⟨hready, hbit3, hphase, hbit7⟩ := secondByte_pieces r.phase.code (BitVec.ofNat 3 r.readyCount)
    have hcount : (BitVec.ofNat 3 r.readyCount).toNat = r.readyCount := by
      rw [BitVec.toNat_ofNat]; exact Nat.mod_eq_of_lt (by omega)
    exact ⟨rfl, sumBytes_frame r, ofFrame_frame hr, congrArg BitVec.toFin hstation, hleaving, hbrk, hfault, halarm,
      (congrArg BitVec.toNat hready).trans hcount, hbit3, hphase, hbit7, rfl, rfl, rfl, upperNibble_nibbles _ _,
      lowerNibble_nibbles _ _, rfl⟩
  · obtain ⟨hback, hstep, hduration⟩ := ofBytes_claimBytes hp
    obtain ⟨hkind, hdrive⟩ := firstClaimByte_pieces p.kind.code (BitVec.ofFin p.drive) (BitVec.ofFin p.target)
    exact ⟨hback, hkind, congrArg BitVec.toNat hdrive, congrArg BitVec.toFin (extractLsb'_append_low _ _),
      upperNibble_nibbles _ _, lowerNibble_nibbles _ _, hstep, hduration⟩
  · intro i
    fin_cases i <;> rfl

end Sys2Proof.Machine
end

section
/-! PROOFS. Frame attempts (R16 to R20, R30): what a character of the round under way does to the attempt of its slot, the valid
frame, and the own-slot conflict. -/

namespace Sys2Proof.Machine

section

variable {s t u : State}

/-! ### Own-slot conflict (R30, R67, R140) -/

/-- What an own-slot conflict leaves: STANDBY with DUPLICATE, the line released, the roster cleared, the round timer running
on, and every trim on its way to 0. -/
structure InConflict (s t : State) : Prop where
  link : t.link = { state := .standby, listenCount := 0, joinCount := 0, leave := .idle }
  line : t.line = s.line.off
  duplicate : t.hasEvent .duplicate = true
  cleared : ∀ k : Station, t.entry k = Entry.cleared
  number : t.round.number = s.round.number
  start : t.round.start = s.round.start
  manual : t.trim.manual = 0
  trialTarget : t.trim.trialTarget = none
  target : t.trim.target = 0
  shiftTarget : t.trim.shiftTarget = 0
  cls : t.trim.cls = .recovery
  applied : t.trim.applied = s.trim.applied
  shift : t.trim.shift = s.trim.shift
  log : t.log = s.log

/-- Whatever a conflict does to the trial record, the applied trims stand. -/
theorem conflictTrial_applied (s : State) :
    s.conflictTrial.trim.applied = s.trim.applied ∧ s.conflictTrial.trim.shift = s.trim.shift := by
  unfold State.conflictTrial
  split
  · exact ⟨rfl, rfl⟩
  · split <;> exact ⟨rfl, rfl⟩

theorem inConflict_conflict (s : State) : InConflict s s.conflict := by
  set v : State := (s.conflictTrial.setManual 0).present 0 0 none .recovery with hv
  have hconflict : s.conflict = v.enterStandby.raise .duplicate := rfl
  obtain ⟨happlied, hshift⟩ := conflictTrial_applied s
  have htrim := conflict_trim s
  rw [present_trim, setManual_trim] at htrim
  have hround : s.conflict.round = { s.round with windowOpen := false, synced := false, ownSlot := .unobserved } := by
    rw [hconflict, raise_round, enterStandby_round]
    simp [hv]
  refine ⟨enterStandby_link v, ?_, hasEvent_raise _ _, fun k => ?_, by rw [hround],
    by rw [hround], ?_, ?_, ?_, ?_, ?_, ?_, ?_, by simp⟩
  · rw [hconflict, raise_line, enterStandby_line]
    simp [hv]
  · rw [State.entry, show s.conflict.roster = List.replicate 16 Entry.cleared from enterStandby_roster v]
    exact entry_replicate_cleared k
  · rw [htrim]
  · rw [htrim]; simp
  · rw [htrim]; simp
  · rw [htrim]
  · rw [htrim]; simp
  · rw [htrim]; exact happlied
  · rw [htrim]; exact hshift

end

/-- Settles O27: the mismatch by what the node sends. -/
theorem readbackMismatch : Obligations.ReadbackMismatch := by
  intro after s hrun a
  have harun : a.running = true := (advance_running s after).trans hrun
  refine ⟨fun n htx => ?_, fun r k htx => ?_⟩
  · have hatx : a.line.tx = .mark n := (advance_line_tx s after).trans htx
    have hexec : exec (.readbackMismatch after) s
        = .next (State.linkError { a with line := { a.line with tx := .released } } .collision) := by
      refine congrArg Host.Outcome.next ((if_pos harun).trans ?_)
      rw [show (s.advance after).line.tx = .mark n from hatx]
    exact ⟨_, hexec, linkError_line _ _, linkError_hasLinkError _ _, by simp [a], by simp [a], by simp [a]⟩
  · have hatx : a.line.tx = .frame r k := (advance_line_tx s after).trans htx
    have hexec : exec (.readbackMismatch after) s = .next a.conflict := by
      refine congrArg Host.Outcome.next ((if_pos harun).trans ?_)
      rw [show (s.advance after).line.tx = .frame r k from hatx]
    have h := inConflict_conflict a
    have hround : a.round = s.round := advance_round s after
    have htrim : a.trim = s.trim := advance_trim s after
    exact ⟨_, hexec, h.link, h.line, h.duplicate, h.cleared, h.number.trans (congrArg RoundTimer.number hround),
      h.start.trans (congrArg RoundTimer.start hround), h.manual, h.trialTarget, h.target, h.shiftTarget, h.cls,
      h.applied.trans (congrArg Trim.applied htrim), h.shift.trans (congrArg Trim.shift htrim),
      h.log.trans (advance_log s after), by rw [h.line]; rfl⟩

end Sys2Proof.Machine
end

section
/-! PROOFS. Frames (R16 to R18, R35 to R37): the character that is put to the attempt of its slot, and the valid frame. -/

namespace Sys2Proof.Machine

section

variable {s t u : State}

/-! ### Link errors alone (R21) -/

/-- All that happens is that link error flags are set, with LINK_ERROR for each that was clear. -/
structure Flagged (s t : State) : Prop where
  rest : t = { s with line := { s.line with errors := t.line.errors }, port := t.port }
  raised : Raised s.port t
  keeps : ∀ i : Nat, s.line.errors.getLsbD i = true → t.line.errors.getLsbD i = true
  event : ∀ e : LinkError, s.hasLinkError e = false → t.hasLinkError e = true → t.hasEvent .linkError = true
  quiet : t.line.errors = s.line.errors → t.port = s.port

namespace Flagged

theorem refl (s : State) : Flagged s s :=
  ⟨rfl, raised_self s, fun _ h => h, fun e h h' => absurd h' (by simp [h]), fun _ => rfl⟩

theorem trans (h : Flagged s t) (k : Flagged t u) : Flagged s u where
  rest := by rw [k.rest, h.rest]
  raised := h.raised.trans k.raised
  keeps i hi := k.keeps i (h.keeps i hi)
  event e hs hu := by
    cases ht : t.hasLinkError e with
    | true => exact Raised.hasEvent k.raised (h.event e hs ht)
    | false => exact k.event e ht hu
  quiet he := by
    have hmid : t.line.errors = s.line.errors := BitVec.eq_of_getLsbD_eq fun i _ => by
      cases hs : s.line.errors.getLsbD i with
      | true => exact h.keeps i hs
      | false =>
        refine Bool.eq_false_iff.mpr fun ht => ?_
        have := k.keeps i ht
        rw [he, hs] at this
        cases this
    exact (k.quiet (he.trans hmid.symm)).trans (h.quiet hmid)

theorem linkError (s : State) (e : LinkError) : Flagged s (s.linkError e) where
  rest := by unfold State.linkError State.raiseIf; split <;> rfl
  raised := by simp
  keeps i hi := by rw [linkError_line]; simp [hi]
  event f hs ht := by
    by_cases hef : e = f
    · subst hef; exact linkError_hasEvent hs
    · rw [linkError_hasLinkError_of_ne hef, hs] at ht; cases ht
  quiet he := by
    have hset : s.hasLinkError e = true := (hasLinkError_of_errors he e).symm.trans (linkError_hasLinkError s e)
    simp [State.linkError, State.raiseIf, hset]

theorem linkErrorIf (s : State) (p : Bool) (e : LinkError) : Flagged s (s.linkErrorIf p e) := by
  cases p
  · exact refl s
  · exact linkError s e

end Flagged

/-- What a link error does, field by field. -/
theorem linkError_eq (s : State) (e : LinkError) :
    s.linkError e = { s with
      line := { s.line with errors := s.line.errors ||| e.flag }
      port := { s.port with events := if s.hasLinkError e then s.port.events else s.port.events ||| Event.linkError.flag } } := by
  unfold State.linkError State.raiseIf
  cases s.hasLinkError e <;> rfl

theorem linkErrorIf_hasLinkError_iff {p : Bool} {e f : LinkError} :
    (s.linkErrorIf p e).hasLinkError f = true ↔ s.hasLinkError f = true ∨ (p = true ∧ f = e) := by
  cases p
  · simp [linkErrorIf_false]
  · rw [linkErrorIf_true]
    by_cases h : e = f
    · subst h; simp
    · rw [linkError_hasLinkError_of_ne h]; simp [Ne.symm h]

/-! ### A character of the round under way (R3, R16, R17) -/

/-- A character of the round under way that takes no boundary is put to the attempt of its slot, where frames are assembled. -/
theorem received_of_round {st : Nat} {c : CharBits} (hs : s.round.start ≤ st) (hc : (c.mark && c.stop) = false)
    (hw : s.inWindow st = false) :
    s.received st c = if s.round.synced then (s.linkErrorIf (!c.stop) .framing).assemble st c
      else s.linkErrorIf (!c.stop) .framing := by
  have hw' : (s.linkErrorIf (!c.stop) .framing).inWindow st = false :=
    (inWindow_congr (by simp) (by simp) (by simp)).trans hw
  have hin : (s.linkErrorIf (!c.stop) .framing).inThisRound st = true := by simp [State.inThisRound, hs]
  unfold State.received
  dsimp only
  rw [if_neg (by simp [hc]), State.takeOther, if_neg (by simp [hw']), if_neg (by simp [hin]), linkErrorIf_round]

/-- No slot window reaches into the mark window. -/
theorem not_inWindow_of_slot {st : Nat} {k : Station} (hs : s.round.start ≤ st)
    (hin : st - s.round.start < 40 + 360 * (k.val + 1)) : s.inWindow st = false := by
  refine Bool.eq_false_iff.mpr fun hw => ?_
  have hlong := le_period s
  have hk := k.isLt
  rcases (inWindow_iff.mp hw).2 with ⟨-, hle⟩ | ⟨hlt, -⟩ <;> omega

theorem not_inWindow_of_early {st : Nat} (hs : s.round.start ≤ st)
    (h : s.link.state = .listening ∨ (st - s.round.start) + 1000 < s.period) : s.inWindow st = false := by
  refine Bool.eq_false_iff.mpr fun hw => ?_
  obtain ⟨hon, hrest⟩ := inWindow_iff.mp hw
  rcases h with hl | hlt
  · rw [hl] at hon; cases hon
  · rcases hrest with ⟨-, hle⟩ | ⟨hlt', -⟩ <;> omega

/-- The slot of a start edge of the round under way. -/
theorem slotOf_of_round {st : Nat} {k : Station} (hs : s.round.start ≤ st) (hopen : 40 + 360 * k.val ≤ st - s.round.start)
    (hclose : st - s.round.start < 40 + 360 * (k.val + 1)) : s.slotOf st = some k := by
  rw [slotOf_eq_some_iff, offset_of_le hs]
  exact ⟨hopen, hclose⟩

theorem slotOf_none_of_round {st : Nat} (hs : s.round.start ≤ st)
    (h : ∀ k : Station, ¬(40 + 360 * k.val ≤ st - s.round.start ∧ st - s.round.start < 40 + 360 * (k.val + 1))) :
    s.slotOf st = none := by
  rw [slotOf_eq_none_iff, offset_of_le hs]
  exact h

/-- No cut attempt's train reaches a start edge. -/
theorem trainAt_of_fresh {st : Nat} (h : ∀ o : CutAttempt, s.line.overrun = some o → o.lastEnd < st) : s.trainAt st = none := by
  unfold State.trainAt
  cases ho : s.line.overrun with
  | none => rfl
  | some o => rw [Option.filter_some_neg (by simpa using h o ho)]; rfl

theorem trainAt_of_overrun {st : Nat} {o : CutAttempt} (ho : s.line.overrun = some o) (h : st ≤ o.lastEnd) :
    s.trainAt st = some o.slot := by
  simp [State.trainAt, ho, h]

/-! ### The cases of an assembly (R16, R17) -/

theorem assemble_outside {st : Nat} (c : CharBits) (hslot : s.slotOf st = none) (htrain : s.trainAt st = none) :
    s.assemble st c = s.linkErrorIf (!s.round.lost && c.stop) .slot := by
  simp [State.assemble, hslot, htrain]

theorem assemble_outside_train {st : Nat} {j : Station} (c : CharBits) (hslot : s.slotOf st = none)
    (htrain : s.trainAt st = some j) :
    s.assemble st c = (s.extendTrain j st).linkErrorIf (!s.round.lost && c.stop) .slot := by
  simp [State.assemble, hslot, htrain]

theorem assemble_joins {st : Nat} {k : Station} {f : Attempt} (c : CharBits) (hslot : s.slotOf st = some k)
    (hf : s.line.attempt = some f) (hk : f.slot = k) : s.assemble st c = s.joinAttempt f st c := by
  have hfilter : s.line.attempt.filter (·.slot = k) = some f := by rw [hf, Option.filter_some_pos (by simp [hk])]
  simp [State.assemble, hslot, hfilter]

theorem assemble_train {st : Nat} {k j : Station} (c : CharBits) (hslot : s.slotOf st = some k)
    (hnone : s.line.attempt.filter (·.slot = k) = none) (htrain : s.trainAt st = some j) :
    s.assemble st c = (s.extendTrain j st).linkErrorIf (!s.round.lost && c.stop && j != k) .slot := by
  simp [State.assemble, hslot, hnone, htrain]

theorem assemble_opens {st : Nat} {k : Station} (c : CharBits) (hslot : s.slotOf st = some k)
    (hnone : s.line.attempt.filter (·.slot = k) = none) (htrain : s.trainAt st = none) (hopen : s.round.slotsClosed ≤ k.val) :
    s.assemble st c = (s.discardAttempt (!s.round.lost)).openAttempt k st c := by
  simp [State.assemble, hslot, hnone, htrain, hopen]

theorem assemble_closed {st : Nat} {k : Station} (c : CharBits) (hslot : s.slotOf st = some k)
    (hnone : s.line.attempt.filter (·.slot = k) = none) (htrain : s.trainAt st = none) (hclosed : k.val < s.round.slotsClosed) :
    s.assemble st c = if c.stop then (s.extendTrain k st).linkErrorIf (!s.round.lost) .short else s := by
  simp [State.assemble, hslot, hnone, htrain, Nat.not_le.mpr hclosed]

/-- A frame character opens an attempt. -/
theorem openAttempt_of_stop (s : State) (k : Station) (st : Nat) {c : CharBits} (h : c.stop = true) :
    s.openAttempt k st c = { s with line := { s.line with
      attempt := some { slot := k, bytes := [c.data], framing := false, markInside := false, lastEnd := st + 22 } } } := by
  rw [State.openAttempt, if_pos h, joinAttempt_of_lt _ _ _ (by simp)]
  simp [h, Config.characterTime]

theorem joinAttempt_last (s : State) {f : Attempt} (st : Nat) (c : CharBits) (h : f.bytes.length = 14) :
    s.joinAttempt f st c = s.finishAttempt { f with
      bytes := f.bytes ++ [c.data], framing := f.framing || !c.stop, lastEnd := st + 22 } := by
  have hlen : (f.bytes ++ [c.data]).length = Config.frameLength := by simp [h, Config.frameLength]
  rw [State.joinAttempt]
  exact if_pos hlen

/-- A valid frame sets no link error flag. -/
theorem finishAttempt_of_valid (s : State) {f : Attempt} (h : f.isValid = true) :
    s.finishAttempt f
      = if f.slot = s.station then State.conflict { s with line := { s.line with attempt := none } }
        else if s.round.lost then { s with line := { s.line with attempt := none } }
        else State.deliver { s with line := { s.line with attempt := none } } f.slot f.bytes := by
  have hvalid := h
  simp only [Attempt.isValid, Bool.and_eq_true, Bool.not_eq_true', decide_eq_true_eq] at h
  obtain ⟨⟨⟨-, hmark⟩, hsum⟩, hslot⟩ := h
  simp [State.finishAttempt, hvalid, hmark, hsum, hslot, State.linkErrorIf]

end

end Sys2Proof.Machine
end

section
/-! PROOFS. The fifteenth character of a frame attempt (R17, R18, R30, R35 to R37), and every other character of a slot window. -/

namespace Sys2Proof.Machine

section

variable {s : State} {after : Wait} {st : Nat} {f : Attempt} {c : CharBits}

/-! ### The last character -/

/-- An attempt that lacks the character that completes is left by the time that has passed. -/
theorem advance_of_completes (hcompletes : (s.advance after).completes st) (hf : s.line.attempt = some f)
    (hs : s.round.start ≤ st) (hopen : 40 + 360 * f.slot.val ≤ st - s.round.start)
    (hclose : st - s.round.start < 40 + 360 * (f.slot.val + 1)) (h14 : f.bytes.length = 14) :
    s.advance after = s.elapse after := by
  rcases Nat.lt_or_ge f.slot.val s.round.slotsClosed with hclosed | hstill
  · rcases advance_of_closed after hf hclosed with ⟨-, h⟩ | ⟨hnot, -⟩
    · exact h
    · have hbegun : st ∈ s.line.begun := by
        obtain ⟨-, -, -, ⟨htx, hrx⟩ | ⟨hsampled, -⟩⟩ := hcompletes
        · rw [advance_line_tx] at htx
          rw [advance_line_rx] at hrx
          simp [LineInterface.begun, htx, hrx]
        · rw [advance_line_rxSampled] at hsampled
          simp [LineInterface.begun, hsampled]
      have hmem : st ∈ (s.elapse after).startsIn f.slot := by
        rw [startsIn_eq, List.mem_filter, decide_eq_true_eq]
        exact ⟨hbegun, hs, hopen, hclose⟩
      have hawaits : (s.elapse after).awaitsLast f = true :=
        (awaitsLast_iff _ f).mpr (.inl (by have := List.length_pos_of_mem hmem; omega))
      rw [hnot] at hawaits
      cases hawaits
  · exact advance_of_slot_open after hf hstill

/-- The character that completes a frame. -/
theorem exec_characterComplete_last (hcompletes : (s.advance after).completes st) (hsync : s.round.synced = true)
    (hf : s.line.attempt = some f) (hs : s.round.start ≤ st) (hopen : 40 + 360 * f.slot.val ≤ st - s.round.start)
    (hclose : st - s.round.start < 40 + 360 * (f.slot.val + 1)) (h14 : f.bytes.length = 14)
    (hc : (c.mark && c.stop) = false) :
    exec (.characterComplete after c) s
      = .next ((State.linkErrorIf { s.advance after with line := (s.advance after).lineLeft } (!c.stop) .framing).finishAttempt
          { f with bytes := f.bytes ++ [c.data], framing := f.framing || !c.stop, lastEnd := st + 22 }) := by
  have ha := advance_of_completes hcompletes hf hs hopen hclose h14
  set u : State := { s.advance after with line := (s.advance after).lineLeft } with hu
  have hround : u.round = s.round := advance_round s after
  have hattempt : u.line.attempt = some f := by
    refine Eq.trans ?_ ((congrArg (fun x : State => x.line.attempt) ha).trans hf)
    simp only [hu, State.lineLeft]; split <;> rfl
  have hus : u.round.start ≤ st := by rw [hround]; exact hs
  have hwork := LineWork.linkErrorIf u (!c.stop) .framing
  have hslot : (u.linkErrorIf (!c.stop) .framing).slotOf st = some f.slot := by
    refine slotOf_of_round ?_ ?_ ?_ <;> rw [hwork.round, hround] <;> assumption
  have hflagged : (u.linkErrorIf (!c.stop) .framing).line.attempt = some f := by
    rw [(Flagged.linkErrorIf u (!c.stop) .framing).rest]; exact hattempt
  refine (exec_characterComplete_of_completes c hcompletes).trans (congrArg Host.Outcome.next ?_)
  rw [← hu, received_of_round hus hc (not_inWindow_of_slot (k := f.slot) hus (by rw [hround]; exact hclose)),
    if_pos (by rw [hround]; exact hsync), assemble_joins c hslot hflagged rfl, joinAttempt_last _ _ _ h14]

/-- A valid frame: a conflict in the own slot, a delivery in another's, unless the round is lost. -/
theorem exec_characterComplete_valid (hcompletes : (s.advance after).completes st) (hsync : s.round.synced = true)
    (hf : s.line.attempt = some f) (hs : s.round.start ≤ st) (hopen : 40 + 360 * f.slot.val ≤ st - s.round.start)
    (hclose : st - s.round.start < 40 + 360 * (f.slot.val + 1)) (h14 : f.bytes.length = 14) (hframing : f.framing = false)
    (hinside : f.markInside = false) (hmark : c.mark = false) (hstop : c.stop = true)
    (hsum : sumBytes (f.bytes ++ [c.data]) = 0) (hslot : lowerNibble (nth (f.bytes ++ [c.data]) 0) = f.slot) :
    exec (.characterComplete after c) s = .next (
      let u : State := { s.advance after with line := { (s.advance after).lineLeft with attempt := none } }
      if f.slot = s.station then u.conflict else if s.round.lost then u else u.deliver f.slot (f.bytes ++ [c.data])) := by
  have hvalid : Attempt.isValid { f with
      bytes := f.bytes ++ [c.data], framing := f.framing || !c.stop, lastEnd := st + 22 } = true := by
    simp [Attempt.isValid, hframing, hinside, hstop, hsum, hslot]
  rw [exec_characterComplete_last hcompletes hsync hf hs hopen hclose h14 (by simp [hmark]),
    finishAttempt_of_valid _ hvalid, hstop, Bool.not_true, linkErrorIf_false]
  simp

end

end Sys2Proof.Machine
end

section
/-! PROOFS. What a frame's character comes to (R16 to R18, R35 to R37): the delivered report, and the attempt, the train and the
flags that every other character leaves. -/

namespace Sys2Proof.Machine

section

variable {s : State}

/-! ### A delivered report (R35 to R37, R41) -/

theorem storeReport_entry {t : Station} (r : Report) (h : s.roster.length = 16) (o : Station) :
    (s.storeReport t r).entry o = if o = t then (if r.leaving then Entry.cleared
        else { presence := .present, miss := 0, heard := true, lastRound := s.round.number, report := r })
      else s.entry o := by
  unfold State.storeReport
  dsimp only
  split <;> rw [entry_congr (raiseIf_roster _ _ _), entry_setEntry _ _ _ h]

theorem hasEvent_raiseIf_iff {p : Bool} {e : Event} :
    (s.raiseIf p e).hasEvent e = true ↔ s.hasEvent e = true ∨ p = true := by
  cases p
  · simp [State.raiseIf]
  · simp [State.raiseIf, hasEvent_raise]

theorem storeReport_hasEvent {t : Station} (r : Report) :
    (s.storeReport t r).hasEvent .peerChange = true
      ↔ s.hasEvent .peerChange = true ∨ (s.entry t).presence ≠ (if r.leaving then .absent else .present) := by
  unfold State.storeReport
  dsimp only
  split
  · rw [hasEvent_raiseIf_iff, bne_iff_ne]; exact Iff.rfl
  · rw [hasEvent_raiseIf_iff, bne_iff_ne]; exact Iff.rfl

theorem deliver_of_report {t : Station} {bytes : List Byte} {r : Report} (h : Report.ofFrame bytes = some r) :
    s.deliver t bytes = s.storeReport t r := by simp [State.deliver, h]

theorem deliver_of_none {t : Station} {bytes : List Byte} (h : Report.ofFrame bytes = none) : s.deliver t bytes = s := by
  simp [State.deliver, h]

/-- A ready count above 4 or an undefined phase code makes no good report. -/
theorem ofFrame_eq_none {f : List Byte}
    (h : 4 < ((nth f 1).extractLsb' 0 3).toNat ∨ TrialPhase.ofCode ((nth f 1).extractLsb' 4 3) = none) :
    Report.ofFrame f = none := by
  unfold Report.ofFrame
  dsimp only
  cases hp : TrialPhase.ofCode ((nth f 1).extractLsb' 4 3) with
  | none => rfl
  | some x =>
    rcases h with h | h
    · exact if_neg (Nat.not_le.mpr h)
    · rw [hp] at h; cases h

/-! ### Flags and the attempt (R17, R21) -/

/-- A link error and the attempt do not touch each other. -/
theorem linkErrorIf_withAttempt (s : State) (p : Bool) (e : LinkError) (x : Option Attempt) :
    { s.linkErrorIf p e with line := { (s.linkErrorIf p e).line with attempt := x } }
      = State.linkErrorIf { s with line := { s.line with attempt := x } } p e := by
  cases p
  · rfl
  · simp only [linkErrorIf_true, linkError_eq]
    rfl

/-- A frame character opens an attempt in its slot; one of another slot gives way with SHORT. -/
theorem assemble_opened {st : Nat} {k : Station} {c : CharBits} (hslot : s.slotOf st = some k) (htrain : s.trainAt st = none)
    (hopen : s.round.slotsClosed ≤ k.val) (hstop : c.stop = true) (hother : ∀ f, s.line.attempt = some f → f.slot ≠ k) :
    s.assemble st c = State.linkErrorIf { s with line := { s.line with
        attempt := some { slot := k, bytes := [c.data], framing := false, markInside := false, lastEnd := st + 22 } } }
      (s.line.attempt.isSome && !s.round.lost) .short := by
  have hfilter : s.line.attempt.filter (·.slot = k) = none := by
    cases hf : s.line.attempt with
    | none => rfl
    | some f => rw [Option.filter_some_neg (by simpa using hother f hf)]
  rw [assemble_opens c hslot hfilter htrain hopen, openAttempt_of_stop _ _ _ hstop]
  unfold State.discardAttempt
  cases hf : s.line.attempt with
  | none => rfl
  | some f => exact linkErrorIf_withAttempt { s with line := { s.line with attempt := none } } _ _ _

/-- A character with a framing fault that no attempt waits for and no train leads to does nothing. -/
theorem assemble_framing {st : Nat} {c : CharBits} (hnone : s.line.attempt = none) (htrain : s.trainAt st = none)
    (hstop : c.stop = false) : s.assemble st c = s := by
  unfold State.assemble
  dsimp only
  cases hslot : s.slotOf st with
  | none => simp [htrain, hstop, linkErrorIf_false]
  | some k => simp [hnone, htrain, hstop, State.discardAttempt, State.openAttempt]

/-- A failed attempt sets its flags and nothing else. -/
theorem finishAttempt_flags {f : Attempt} (h : f.isValid = false) :
    Flagged { s with line := { s.line with attempt := none } } (s.finishAttempt f)
      ∧ ∀ e : LinkError, (s.finishAttempt f).hasLinkError e = true ↔ s.hasLinkError e = true
          ∨ (s.round.lost = false ∧ ((e = .check ∧ sumBytes f.bytes ≠ 0)
              ∨ (e = .slot ∧ lowerNibble (nth f.bytes 0) ≠ f.slot) ∨ (e = .short ∧ f.markInside = true))) := by
  rw [finishAttempt_of_invalid s h]
  refine ⟨((Flagged.linkErrorIf _ _ _).trans (.linkErrorIf _ _ _)).trans (.linkErrorIf _ _ _), fun e => ?_⟩
  simp only [linkErrorIf_hasLinkError_iff, Bool.and_eq_true, Bool.not_eq_true', bne_iff_ne]
  rw [hasLinkError_of_errors (s := s) rfl]
  tauto

/-- The fifteenth character of an attempt that fails: it is given up with the flags of its faults, and nothing else happens. -/
theorem exec_characterComplete_failed {after : Wait} {st : Nat} {f : Attempt} {c : CharBits}
    (hcompletes : (s.advance after).completes st) (hsync : s.round.synced = true)
    (hf : s.line.attempt = some f) (hs : s.round.start ≤ st) (hopen : 40 + 360 * f.slot.val ≤ st - s.round.start)
    (hclose : st - s.round.start < 40 + 360 * (f.slot.val + 1)) (h14 : f.bytes.length = 14)
    (hc : (c.mark && c.stop) = false)
    (hbad : f.framing = true ∨ c.stop = false ∨ f.markInside = true ∨ sumBytes (f.bytes ++ [c.data]) ≠ 0
      ∨ lowerNibble (nth (f.bytes ++ [c.data]) 0) ≠ f.slot) :
    ∃ t, exec (.characterComplete after c) s = .next t
      ∧ t = { s.advance after with
          line := t.line, port := { (s.advance after).port with events := t.port.events } }
      ∧ t.line = { (s.advance after).lineLeft with attempt := none, errors := t.line.errors }
      ∧ (∀ e : LinkError, t.hasLinkError e = true ↔ s.hasLinkError e = true ∨ (e = .framing ∧ c.stop = false)
          ∨ (s.round.lost = false ∧ ((e = .check ∧ sumBytes (f.bytes ++ [c.data]) ≠ 0)
              ∨ (e = .slot ∧ lowerNibble (nth (f.bytes ++ [c.data]) 0) ≠ f.slot) ∨ (e = .short ∧ f.markInside = true))))
      ∧ (∀ e : LinkError, s.hasLinkError e = false → t.hasLinkError e = true → t.hasEvent .linkError = true)
      ∧ (t.line.errors = s.line.errors → t.port = (s.advance after).port) := by
  have ha := advance_of_completes hcompletes hf hs hopen hclose h14
  set u : State := { s.advance after with line := (s.advance after).lineLeft } with hu
  have herrors : u.line.errors = s.line.errors := by
    have hleft : u.line.errors = (s.advance after).line.errors := by simp only [hu, State.lineLeft]; split <;> rfl
    exact hleft.trans (by rw [ha]; rfl)
  have hlost : (u.linkErrorIf (!c.stop) .framing).round.lost = s.round.lost := by
    rw [linkErrorIf_round, show u.round = s.round from advance_round s after]
  have hinvalid : Attempt.isValid
      { f with bytes := f.bytes ++ [c.data], framing := f.framing || !c.stop, lastEnd := st + 22 } = false := by
    simp only [Attempt.isValid, Bool.and_eq_false_iff, Bool.not_eq_false', Bool.or_eq_true, Bool.not_eq_true',
      decide_eq_false_iff_not]
    tauto
  obtain ⟨hflags, hiff⟩ := finishAttempt_flags (s := u.linkErrorIf (!c.stop) .framing) hinvalid
  rw [linkErrorIf_withAttempt] at hflags
  have hexec := exec_characterComplete_last hcompletes hsync hf hs hopen hclose h14 hc
  rw [← hu] at hexec
  generalize (u.linkErrorIf (!c.stop) .framing).finishAttempt
    { f with bytes := f.bytes ++ [c.data], framing := f.framing || !c.stop, lastEnd := st + 22 } = t at hflags hiff hexec
  obtain ⟨hrest, ⟨x, hx⟩, -, hevent, hquiet⟩ :=
    (Flagged.linkErrorIf { u with line := { u.line with attempt := none } } (!c.stop) .framing).trans hflags
  refine ⟨t, hexec, ?_, ?_, fun e => ?_, fun e hclear hset => ?_, fun hsame => ?_⟩
  · have hport : t.port = { (s.advance after).port with events := t.port.events } := by rw [hx]
    rw [← hport, hrest]
  · exact congrArg State.line hrest
  · rw [hiff, hlost, linkErrorIf_hasLinkError_iff, hasLinkError_of_errors herrors, Bool.not_eq_true', and_comm, or_assoc]
  · exact hevent e ((hasLinkError_of_errors herrors e).trans hclear) hset
  · exact hquiet (hsame.trans herrors.symm)

end

/-- Settles O32: the fifteenth character by the checks of its frame; any other character by the slot of its start edge and the
attempt and the train that it finds there. -/
theorem validFrameIsDelivered : Obligations.ValidFrameIsDelivered := by
  refine ⟨?_, ?_⟩
  · intro after st f c s a bytes received hcompletes hsync hf hs hopen hclose h14 hframing hinside hmark hstop hsum hslot hlen
    have ha : a = s.elapse after := advance_of_completes hcompletes hf hs hopen hclose h14
    have hexec := exec_characterComplete_valid hcompletes hsync hf hs hopen hclose h14 hframing hinside hmark hstop hsum hslot
    have hline : a.line = s.line := by rw [ha]; rfl
    have hreceived : { a.lineLeft with attempt := none } = received := by
      simp only [State.lineLeft, received, LineInterface.shift, hline]
      split <;> rfl
    have hround : a.round = s.round := advance_round s after
    have haentry : ∀ o, a.entry o = s.entry o := fun o => entry_congr (advance_roster s after) o
    dsimp only at hexec
    rw [show { (s.advance after).lineLeft with attempt := none } = received from hreceived] at hexec
    refine ⟨fun r hother hlost hbytes hready => ?_, fun hother hlost hbad => ?_, fun hother hlost => ?_, fun hown hst => ?_⟩
    · rw [if_neg hother, if_neg (by simp [hlost]), deliver_of_report (show Report.ofFrame (f.bytes ++ [c.data]) = some r by
        rw [show f.bytes ++ [c.data] = r.frame from hbytes]; exact ofFrame_frame hready)] at hexec
      set u : State := { a with line := received } with hu
      have huentry : ∀ o, u.entry o = s.entry o := haentry
      have huround : u.round = s.round := hround
      have hevent : u.hasEvent .peerChange = s.hasEvent .peerChange := by
        have : u.port = s.port := by rw [hu, ha]; rfl
        exact hasEvent_congr this _
      have hentry := storeReport_entry (s := u) (t := f.slot) r ((congrArg List.length (advance_roster s after)).trans hlen)
      refine ⟨_, hexec, ?_, fun o ho => ?_, ?_, ?_, ?_, ?_, ?_, ?_, ?_, ?_, ?_, ?_⟩
      · rw [hentry, if_pos rfl, huround]
      · rw [hentry, if_neg ho, huentry]
      · rw [storeReport_hasEvent, hevent, huentry]
      · exact storeReport_line u f.slot r
      · exact (storeReport_round u f.slot r).trans huround
      · exact (storeReport_link u f.slot r).trans (advance_link s after)
      · exact (storeReport_trial u f.slot r).trans (advance_trial s after)
      · exact (storeReport_trim u f.slot r).trans (advance_trim s after)
      · exact (storeReport_log u f.slot r).trans (advance_log s after)
      · exact (storeReport_meas u f.slot r).trans (advance_meas s after)
      · exact (storeReport_draw u f.slot r).trans (advance_draw s after)
      · exact (storeReport_ownReport u f.slot r).trans (advance_ownReport s after)
    · rw [if_neg hother, if_neg (by simp [hlost]), deliver_of_none (ofFrame_eq_none hbad)] at hexec
      exact hexec
    · rw [if_neg hother, if_pos hlost] at hexec
      exact hexec
    · rw [if_pos hown] at hexec
      have h := inConflict_conflict { a with line := received }
      have htrim : a.trim = s.trim := advance_trim s after
      refine ⟨_, hexec, h.link, h.line.trans ?_, h.duplicate, h.cleared, h.number.trans (by rw [← hround]),
        h.start.trans (by rw [← hround]), h.manual, h.trialTarget, h.target, h.shiftTarget, h.cls,
        h.applied.trans (by rw [← htrim]), h.shift.trans (by rw [← htrim]), h.log.trans (advance_log s after)⟩
      rw [hline]
      simp only [received]
      split <;> rfl
  · intro after st c s a left answers flagging unlessLost inSlot fresh hcompletes hs hc hearly
    have hround : a.round = s.round := advance_round s after
    set u : State := { a with line := a.lineLeft } with hu
    have huround : u.round = s.round := hround
    have hlost : u.round.lost = s.round.lost := by rw [huround]
    have hus : u.round.start ≤ st := by rw [huround]; exact hs
    have hkept : u.line.attempt = a.line.attempt ∧ u.line.overrun = a.line.overrun ∧ u.line.errors = a.line.errors := by
      simp only [hu, State.lineLeft]; split <;> exact ⟨rfl, rfl, rfl⟩
    obtain ⟨hattempt, hoverrun, herrors⟩ := hkept
    have hw : u.inWindow st = false := by
      refine (inWindow_congr (s := s) (advance_link s after) (advance_config s after) hround).trans ?_
      exact not_inWindow_of_early hs hearly
    have hanswers : ∀ t, u.received st c = t → answers t := fun t ht =>
      (exec_characterComplete_of_completes c hcompletes).trans (congrArg Host.Outcome.next ht)
    have hreceived := received_of_round hus hc hw
    have hflagging : ∀ e x, flagging e x = x.linkError e := fun e x => (linkError_eq x e).symm
    have hunless : ∀ e x, unlessLost e x = x.linkErrorIf (!s.round.lost) e := fun e x => by
      simp only [unlessLost, hflagging]
      cases s.round.lost <;> rfl
    -- where frames are assembled, the character is put to the attempt of its slot
    have hassemble : s.round.synced = true → c.stop = true → u.received st c = u.assemble st c := fun hsync hstop => by
      rw [hreceived, if_pos (by rw [huround]; exact hsync), hstop]; rfl
    have hslot : ∀ k, inSlot k → u.slotOf st = some k := fun k hk =>
      slotOf_of_round hus (by rw [huround]; exact hk.1) (by rw [huround]; exact hk.2)
    have hnoslot : (∀ k, ¬inSlot k) → u.slotOf st = none := fun h =>
      slotOf_none_of_round hus (by rw [huround]; exact h)
    have htrain : fresh → u.trainAt st = none := fun h => trainAt_of_fresh (by rw [hoverrun]; exact h)
    refine ⟨fun hsync hstop => hanswers _ ?_, fun hsync hstop => hanswers _ ?_, fun hsync hno hfresh hstop => hanswers _ ?_,
      fun o hsync hno ho hlate hstop => hanswers _ ?_, fun hsync hfresh hstop hnone => hanswers _ ?_,
      fun k hsync hk hstop => ?_, fun f hsync hk hf hlt => ?_, fun f hsync hk hf h14 => ?_⟩
    · rw [hreceived, if_neg (by rw [huround]; simp [hsync]), hstop]
      rfl
    · rw [hreceived, if_neg (by rw [huround]; simp [hsync]), hstop, hflagging]
      rfl
    · rw [hassemble hsync hstop, assemble_outside c (hnoslot hno) (htrain hfresh), hlost, hstop, Bool.and_true, hunless]
      rfl
    · rw [hassemble hsync hstop, assemble_outside_train c (hnoslot hno) (trainAt_of_overrun (hoverrun.trans ho) hlate), hlost,
        hstop, Bool.and_true, hunless]
      rfl
    · -- a framing fault opens no attempt and begins no train
      have hflagged := Flagged.linkError u .framing
      have hvround : (u.linkError .framing).round = u.round := by rw [hflagged.rest]
      have hvnone : (u.linkError .framing).line.attempt = none := by rw [hflagged.rest]; exact hattempt.trans hnone
      have hvtrain : (u.linkError .framing).trainAt st = none := trainAt_of_fresh fun o ho => by
        rw [hflagged.rest] at ho; exact hfresh o (hoverrun.symm.trans ho)
      rw [hreceived, if_pos (by rw [huround]; exact hsync), hstop, Bool.not_false, linkErrorIf_true, hflagging,
        assemble_framing hvnone hvtrain hstop]
      rfl
    · intro opened trainOf
      have hreceived := hassemble hsync hstop
      have hslot := hslot k hk
      refine ⟨fun hopen hfresh hnone => hanswers _ ?_, fun f hopen hfresh hf hother => hanswers _ ?_,
        fun o ho hlate hnone => ⟨fun hother => hanswers _ ?_, fun hsame => hanswers _ ?_⟩,
        fun hclosed hfresh hnone => hanswers _ ?_⟩
      · rw [hreceived, assemble_opened hslot (htrain hfresh) (by rw [huround]; exact hopen) hstop
          (fun f hf => by rw [hattempt, hnone] at hf; cases hf), hattempt, hnone]
        rfl
      · rw [hreceived, assemble_opened hslot (htrain hfresh) (by rw [huround]; exact hopen) hstop
          (fun g hg => by rw [hattempt, hf] at hg; cases hg; exact hother), hattempt, hf, hlost, hunless]
        rfl
      · rw [hreceived, assemble_train c hslot (by rw [hattempt, hnone]; rfl) (trainAt_of_overrun (hoverrun.trans ho) hlate),
          hlost, hstop, hunless, bne_iff_ne.mpr hother, Bool.and_true, Bool.and_true]
        rfl
      · rw [hreceived, assemble_train c hslot (by rw [hattempt, hnone]; rfl) (trainAt_of_overrun (hoverrun.trans ho) hlate),
          hsame, bne_self_eq_false, Bool.and_false, linkErrorIf_false]
        rfl
      · rw [hreceived, assemble_closed c hslot (by rw [hattempt, hnone]; rfl) (htrain hfresh)
          (by rw [huround]; exact hclosed), if_pos hstop, hlost, hunless]
        rfl
    · intro joined
      have huf : u.line.attempt = some f := hattempt.trans hf
      have hslot := hslot f.slot hk
      refine ⟨fun hstop => hanswers _ ?_, fun hstop => hanswers _ ?_⟩
      · rw [hassemble hsync hstop, assemble_joins c hslot huf rfl, joinAttempt_of_lt _ _ _ hlt]
        rfl
      · have hrest := (Flagged.linkErrorIf u true .framing).rest
        have hvslot : (u.linkErrorIf true .framing).slotOf st = some f.slot := by rw [hrest]; exact hslot
        rw [hreceived, if_pos (by rw [huround]; exact hsync), hstop, Bool.not_false,
          assemble_joins c hvslot (by rw [hrest]; exact huf) rfl, joinAttempt_of_lt _ _ _ hlt, linkErrorIf_withAttempt, hflagging]
        rfl
    · intro bytes hbad
      exact exec_characterComplete_failed hcompletes hsync hf hs hk.1 hk.2 h14 hc hbad

end Sys2Proof.Machine
end

section
/-! PROOFS. The end of a trial in an own-slot conflict (R30, R67, R162): what a conflict writes of the record, and the CLOSE record
that the next boundary appends. -/

namespace Sys2Proof.Machine

section

variable {s t : State}

/-! ### The record at a conflict (R67) -/

/-- What a conflict does to the trial record is done alike for states with the same record, station and last outcome. -/
theorem conflict_lastOutcome (s : State) : s.conflict.lastOutcome = s.conflictTrial.lastOutcome := by simp [State.conflict]

theorem conflict_hasEvent_of {e : Event} (h : s.conflictTrial.hasEvent e = true) : s.conflict.hasEvent e = true :=
  Raised.hasEvent (s := s.conflictTrial) (by
    simp (maxDischargeDepth := 20) [State.conflict]) h

theorem conflictTrial_of_tracking (hi : s.trial.phase ≠ .idle) (hr : s.trial.phase ≠ .recovering) :
    s.conflictTrial = (State.enterRecovering { s with trial := { s.trial with linkCloseOwed := s.isMember && s.underWay } } 0
      Reason.link.code s.station).writeOutcome .aborted s.trial.id Reason.link.code s.station := by
  have ht : s.tracking = true := by simp [State.tracking, hi, hr]
  unfold State.conflictTrial
  split
  next hidle _ => exact absurd hidle hi
  next => exact if_pos ht

theorem conflictTrial_of_proposal {i : TrialId} {p : TrialParams} (hi : s.trial.phase = .idle)
    (hq : s.trial.request = .propose i p) :
    s.conflictTrial = (State.enterRecovering { s with trial := { TrialRecord.empty with id := i, params := p } } 0
      Reason.link.code s.station).writeOutcome .aborted i Reason.link.code s.station := by
  unfold State.conflictTrial
  rw [hi, hq]

theorem conflictTrial_of_recovering (hr : s.trial.phase = .recovering) :
    s.conflictTrial = { s with trial := { s.trial with abortsOwed := 0 } } := by
  unfold State.conflictTrial
  rw [hr]
  exact if_neg (by simp [State.tracking, hr])

theorem hasEvent_writeOutcome (s : State) (o : TrialOutcome) (i : TrialId) (c : Byte) (g : Station) :
    (s.writeOutcome o i c g).hasEvent .trialEnd = true := hasEvent_raise _ _

/-! ### The CLOSE record that is owed (R162) -/

/-- An appended CLOSE record, and the log as it was when there is no room. -/
theorem appendClose_log (s : State) (i : TrialId) (o : TrialOutcome) (c : Byte) (g : Station) :
    (s.appendClose i o c g).log = if s.log.records.length < 256 then
        { s.log with
          records := s.log.records
            ++ [{ seq := s.log.counter, type := .close, id := i, sample := s.log.last, outcome := o, cause := c, origin := g }]
          counter := s.log.counter + 1 }
      else s.log := by
  rw [State.appendClose, raiseIf_log, appendRecord_log, Config.logCapacity]

theorem appendClose_log_congr {s t : State} (h : t.log = s.log) (i : TrialId) (o : TrialOutcome) (c : Byte) (g : Station) :
    (t.appendClose i o c g).log = (s.appendClose i o c g).log := by rw [appendClose_log, appendClose_log, h]

theorem appendClose_hasEvent (h : s.log.records.length < 256) (i : TrialId) (o : TrialOutcome) (c : Byte) (g : Station) :
    (s.appendClose i o c g).hasEvent .logClosed = true := by
  rw [State.appendClose, hasEvent_raiseIf_iff]
  exact .inr (decide_eq_true h)

/-- The sample of a boundary joins the log before the controller decides; records and counter stand. -/
theorem sampled_log_records (s : State) (k : BoundaryKind) (n : BitVec 8) :
    (s.sampled k n).log.records = s.log.records ∧ (s.sampled k n).log.counter = s.log.counter := by
  simp [State.sampled, State.takeSample, State.linked]

/-- A record that the boundary finds with its CLOSE owed has it appended, if the log has room. -/
theorem atDecision_of_owed (h : s.trial.linkCloseOwed = true) :
    s.atDecision.log = (s.appendClose s.trial.id .aborted Reason.link.code s.station).log
      ∧ (s.log.records.length < 256 → s.atDecision.hasEvent .logClosed = true) := by
  obtain ⟨v, hv, hclose⟩ : ∃ v : State, v.log = s.log
      ∧ s.closeLink = v.appendClose s.trial.id .aborted Reason.link.code s.station := 
    ⟨{ s with trial := { s.trial with linkCloseOwed := false } }, rfl, if_pos h⟩
  have hcount : ∀ u : State, u.countBoundaries.log = u.log ∧ u.countBoundaries.port = u.port := fun u => by
    unfold State.countBoundaries; split <;> exact ⟨rfl, rfl⟩
  obtain ⟨hlog, hport⟩ := hcount s.closeLink
  rw [hclose] at hlog hport
  rw [State.atDecision, hclose]
  refine ⟨hlog.trans (appendClose_log_congr hv _ _ _ _), fun hroom => (hasEvent_congr hport _).trans ?_⟩
  exact appendClose_hasEvent (by rw [hv]; exact hroom) _ _ _ _

theorem adoptHeard_not_owed (h : s.trial.linkCloseOwed = false) : s.adoptHeard.trial.linkCloseOwed = false := by
  unfold State.adoptHeard
  split
  · split
    · simp [State.adopt, TrialRecord.empty]
    · exact h
  · exact h

/-- The recovery's end owes no CLOSE record that the boundary did not find. -/
theorem testIdle_not_owed (h : s.trial.linkCloseOwed = false) (was : Bool) : (s.testIdle was).trial.linkCloseOwed = false := by
  rcases testIdle_trial s was with e | e <;> rw [e]
  · exact h
  · exact adoptHeard_not_owed rfl

theorem decidePhase_of_recovering (h : s.trial.phase = .recovering) : s.decidePhase = s := by
  unfold State.decidePhase
  rw [h]

end

/-- Settles O28: the conflict by the phase of the record, the boundary by its decision. -/
theorem conflictEndsTheTrial : Obligations.ConflictEndsTheTrial := by
  refine ⟨?_, ?_⟩
  · intro after r j st f c cmd s a hrun hcmd
    have hconflict : ∃ v : State, exec cmd s = .next v.conflict ∧ v.trial = s.trial ∧ v.station = s.station
        ∧ v.lastOutcome = s.lastOutcome := by
      rcases hcmd with ⟨rfl, htx⟩ | ⟨rfl, hcompletes, hsync, hf, hs, hopen, hclose, h14, hframing, hinside, hmark, hstop, hsum,
        hslot, hown, -⟩
      · refine ⟨a, ?_, advance_trial s after, advance_station s after, advance_lastOutcome s after⟩
        refine congrArg Host.Outcome.next ((if_pos ((advance_running s after).trans hrun)).trans ?_)
        rw [show (s.advance after).line.tx = .frame r j from (advance_line_tx s after).trans htx]
      · refine ⟨_, (exec_characterComplete_valid hcompletes hsync hf hs hopen hclose h14 hframing hinside hmark hstop hsum
          hslot).trans (congrArg Host.Outcome.next (if_pos hown)), advance_trial s after, advance_station s after,
          advance_lastOutcome s after⟩
    obtain ⟨v, hexec, htrial, hstation, hlast⟩ := hconflict
    have hmember : v.isMember = s.isMember := by rw [State.isMember, State.isMember, htrial, hstation]
    refine ⟨fun hi hr => ⟨_, hexec, ?_⟩, fun i p hi hq => ⟨_, hexec, ?_⟩, fun hr => ⟨_, hexec, ?_⟩⟩
    · have hv := conflictTrial_of_tracking (s := v) (by rw [htrial]; exact hi) (by rw [htrial]; exact hr)
      rw [conflict_trial, conflict_lastOutcome, hv]
      refine ⟨rfl, rfl, rfl, ?_, conflict_hasEvent_of (by rw [hv]; exact hasEvent_writeOutcome _ _ _ _ _), ?_⟩
      · rw [← htrial, ← hstation]; rfl
      · show (v.isMember && v.underWay) = true ↔ _
        rw [hmember, State.underWay, htrial]
        simp
    · have hv := conflictTrial_of_proposal (s := v) (by rw [htrial]; exact hi) (by rw [htrial]; exact hq)
      rw [conflict_trial, conflict_lastOutcome, hv]
      refine ⟨rfl, rfl, rfl, ?_, conflict_hasEvent_of (by rw [hv]; exact hasEvent_writeOutcome _ _ _ _ _)⟩
      rw [← hstation]; rfl
    · have hv := conflictTrial_of_recovering (s := v) (by rw [htrial]; exact hr)
      rw [conflict_trial, conflict_lastOutcome, hv, ← htrial, ← hlast]
      exact ⟨rfl, rfl⟩
  · intro after b k n s hb hphase howed
    set a := s.advance after with ha
    set u := (a.boundaryBase b).sampled k n with hu
    have hexec := exec_boundaryCommand_of (after := after) hb
    have hutrial : u.trial = s.trial := by simp [hu, ha]
    have hustation : u.station = s.station := by simp [hu, ha]
    obtain ⟨hrecords, hcounter⟩ := sampled_log_records (a.boundaryBase b) k n
    rw [boundaryBase_log, ha, advance_log] at hrecords hcounter
    have hdecide : u.decide = u.atDecision := by
      refine decidePhase_of_recovering ?_
      rw [(atDecision_trial_phase_request u).1, hutrial, hphase]
    have hlog : ((a.boundaryBase b).takeBoundary k n).log = u.atDecision.log := by
      rw [takeBoundary_log, ← hu, hdecide]
    obtain ⟨hclose, hevent⟩ := atDecision_of_owed (s := u) (by rw [hutrial]; exact howed)
    rw [appendClose_log, hrecords, hcounter, hutrial, hustation] at hclose
    refine ⟨_, hexec, ?_, fun hroom => ?_, fun hfull => ?_⟩
    · rw [takeBoundary_trial, ← hu, hdecide]
      refine testIdle_not_owed ?_ _
      have hd := decisionAt_trial a b k n
      rw [if_neg (by simp [ha, hphase])] at hd
      exact congrArg TrialRecord.linkCloseOwed hd
    · rw [hlog, hclose, if_pos hroom]
      refine ⟨rfl, rfl, Raised.hasEvent (takeBoundary_raised_decide _ k n) ?_⟩
      rw [← hu, hdecide]
      exact hevent (by rw [hrecords]; exact hroom)
    · rw [hlog, hclose, if_neg (Nat.not_lt.mpr hfull)]
      exact ⟨hrecords, hcounter⟩

end Sys2Proof.Machine
end

section
/-! PROOFS. The own frame (R4, R28, R39, R65): each character that is read back, and the entry that the complete frame writes. -/

namespace Sys2Proof.Machine

section

variable {s : State}

/-- A character of the own frame that completes. -/
theorem exec_characterComplete_own {after : Wait} {st k : Nat} {r : Report} (c : CharBits) (hrun : s.running = true)
    (hon : s.link.state.onLink = true) (hrx : s.line.rx = some st) (htime : st + 22 ≤ (s.advance after).now)
    (htx : s.line.tx = .frame r k) :
    exec (.characterComplete after c) s
      = .next (State.ownCharacter { s.advance after with line := (s.advance after).line.shift } r k) := by
  have hdue : (s.advance after).characterDue = true := by
    have harx : (s.advance after).line.rx = some st := (advance_line_rx s after).trans hrx
    have hreceives : (s.advance after).link.state.receives = true := by rw [advance_link]; exact receives_of_onLink hon
    have harun : (s.advance after).running = true := (advance_running s after).trans hrun
    rw [State.characterDue, harun, hreceives, harx]
    simpa [Config.characterTime] using htime
  refine congrArg Host.Outcome.next ((if_pos hdue).trans ?_)
  rw [show (s.advance after).line.tx = .frame r k from (advance_line_tx s after).trans htx]

theorem ownCharacter_of_lt {r : Report} {k : Nat} (h : k < 14) :
    s.ownCharacter r k = { s with line := { s.line with tx := .frame r (k + 1), rx := some s.now, rxNext := none } } :=
  if_neg (by simp only [Config.frameLength]; omega)

theorem ownCharacter_last (s : State) (r : Report) :
    s.ownCharacter r 14 = State.ownFrameDone { s with line := { s.line with tx := .released } } r := if_pos rfl

/-- What the complete own frame writes. -/
theorem ownFrameDone_eq (s : State) (r : Report) :
    s.ownFrameDone r = { s.writeOwnEntry r with
      link := if r.leaving then { s.link with leave := .sent } else s.link
      trial := if r.phase = .abort then { s.trial with abortsOwed := s.trial.abortsOwed - 1 } else s.trial } := by
  unfold State.ownFrameDone
  dsimp only
  cases r.leaving <;> by_cases h : r.phase = .abort <;> simp [h, State.writeOwnEntry, State.setEntry]

end

/-- Settles O33: the character by its place in the frame. -/
theorem ownFrameCompletes : Obligations.OwnFrameCompletes := by
  intro after st r c s a hrun hon hrx htime
  refine ⟨fun k htx hk => ?_, fun htx hlen => ?_⟩
  · rw [exec_characterComplete_own c hrun hon hrx htime htx, ownCharacter_of_lt hk]
    rfl
  · refine ⟨_, exec_characterComplete_own c hrun hon hrx htime htx, ?_⟩
    rw [ownCharacter_last, ownFrameDone_eq]
    set v : State := { a with line := { a.line.shift with tx := .released } } with hv
    have hstation : v.station = s.station := advance_station s after
    have hround : v.round = s.round := advance_round s after
    have hentry : ∀ o, (v.writeOwnEntry r).entry o = if o = s.station then
        { presence := .present, miss := 0, heard := false, lastRound := s.round.number, report := r } else s.entry o := by
      intro o
      rw [State.writeOwnEntry, entry_setEntry (s := v) _ _ _ ((congrArg List.length (advance_roster s after)).trans hlen), hstation, hround,
        show v.entry o = s.entry o from entry_congr (advance_roster s after) o]
    refine ⟨rfl, (hentry _).trans (if_pos rfl), fun o ho => (hentry o).trans (if_neg ho), ?_, ?_, hround, ?_, ?_, rfl⟩
    · rw [show v.link = s.link from advance_link s after]
    · rw [show v.trial = s.trial from advance_trial s after]
    · exact advance_log s after
    · exact advance_trim s after

end Sys2Proof.Machine
end

section
/-! PROOFS. The log's sample and ring through the controller's decisions (R157, R158, R160): the sample of a boundary stands, and
the ring is emptied where a member's trial starts. -/

namespace Sys2Proof.Machine

section

variable {s t u : State}

/-- The last sample and the ring of the log. -/
def State.logTail (s : State) : Sample × List Sample := (s.log.last, s.log.ring)

theorem logTail_of_log (h : t.log = s.log) : t.logTail = s.logTail := by simp [State.logTail, h]

/-! ### Records do not touch the samples (R159) -/

theorem appendRecord_logTail (s : State) (ty : RecordType) (i : TrialId) (m : Sample) (o : TrialOutcome) (c : Byte) (g : Station) :
    (s.appendRecord ty i m o c g).logTail = s.logTail := by
  unfold State.appendRecord
  split <;> rfl

theorem appendClose_logTail (s : State) (i : TrialId) (o : TrialOutcome) (c : Byte) (g : Station) :
    (s.appendClose i o c g).logTail = s.logTail :=
  (logTail_of_log (raiseIf_log _ _ _)).trans (appendRecord_logTail _ _ _ _ _ _ _)

theorem abortTrial_logTail (s : State) (owed : Nat) (c : Byte) (g : Station) : (s.abortTrial owed c g).logTail = s.logTail := by
  rw [State.logTail, abortTrial_log]
  split <;> rfl

theorem completeTrial_logTail (s : State) : s.completeTrial.logTail = s.logTail := by
  unfold State.completeTrial
  dsimp only
  split
  · exact (logTail_of_log (by simp)).trans (appendClose_logTail s s.trial.id .completed 0 0)
  · exact logTail_of_log (by simp)

/-- The ring becomes PRE records; the last sample stands. -/
theorem moveRing_last (s : State) (i : TrialId) : (s.moveRing i).log.last = s.log.last := by
  have key : ∀ (l : List Sample) (t : State), t.log.last = s.log.last →
      (l.foldl (fun t m => t.appendRecord .pre i m .none 0 0) t).log.last = s.log.last := by
    intro l
    induction l with
    | nil => exact fun _ h => h
    | cons m l ih => exact fun t h => ih _ ((congrArg Prod.fst (appendRecord_logTail t .pre i m .none 0 0)).trans h)
  exact key s.log.ring s rfl

/-! ### A decision and the ring (R158, R160) -/

/-- What a decision does to the sample and the ring: they stand, but for the ring of a member whose trial starts. -/
structure RingAfter (s t : State) : Prop where
  last : t.log.last = s.log.last
  kept : s.trial.phase = .running ∨ t.trial.phase ≠ .running ∨ t.isMember = false → t.log.ring = s.log.ring
  moved : s.trial.phase ≠ .running → t.trial.phase = .running → t.isMember = true → t.log.ring = []

namespace RingAfter

/-- No trial starts. -/
theorem of_logTail (h : t.logTail = s.logTail) (hp : t.trial.phase = .running → s.trial.phase = .running) : RingAfter s t :=
  ⟨congrArg Prod.fst h, fun _ => congrArg Prod.snd h, fun hs ht => absurd (hp ht) hs⟩

/-- No trial starts, and nothing is logged. -/
theorem of_log (h : t.log = s.log) (hp : t.trial.phase ≠ .running) : RingAfter s t :=
  of_logTail (logTail_of_log h) fun ht => absurd ht hp

theorem congr (h : RingAfter s u) (hlog : s.log = t.log) (hphase : s.trial.phase = t.trial.phase) : RingAfter t u := by
  obtain ⟨hlast, hkept, hmoved⟩ := h
  rw [hlog] at hlast hkept
  rw [hphase] at hkept hmoved
  exact ⟨hlast, hkept, hmoved⟩

theorem abortTrial (s : State) (owed : Nat) (c : Byte) (g : Station) : RingAfter s (s.abortTrial owed c g) :=
  of_logTail (abortTrial_logTail s owed c g) fun h => by rw [abortTrial_trial, enterRecovering_trial] at h; cases h

theorem withdraw (s : State) (c : Byte) (g : Station) : RingAfter s (s.withdraw c g) :=
  of_log (by simp) (by simp [withdraw_trial, enterRecovering_trial])

theorem dropClaim (s : State) (r : Reason) : RingAfter s (s.dropClaim r) :=
  of_log (by simp) (by simp [State.dropClaim, State.writeOutcome, TrialRecord.empty])

theorem adopt (c : TrialId × TrialParams) (h : t.log = s.log) : RingAfter s (t.adopt c) :=
  of_log (by simpa using h) (by simp [State.adopt])

theorem completeTrial (h : t.logTail = s.logTail) : RingAfter s t.completeTrial :=
  of_logTail ((completeTrial_logTail t).trans h) fun hp => by rw [completeTrial_trial] at hp; cases hp

theorem startTrial (h : s.trial.phase ≠ .running) : RingAfter s s.startTrial := by
  have hlog := startTrial_log s
  have hmember : s.startTrial.isMember = s.isMember := by simp [State.isMember, startTrial_trial]
  cases hm : s.isMember with
  | true =>
    rw [if_pos hm] at hlog
    refine ⟨by rw [hlog, moveRing_last], fun hor => ?_, fun _ _ _ => by rw [hlog, moveRing_ring]⟩
    rcases hor with hr | hr | hr
    · exact absurd hr h
    · exact absurd (by rw [startTrial_trial]) hr
    · rw [hmember, hm] at hr; cases hr
  | false =>
    rw [if_neg (by simp [hm])] at hlog
    exact ⟨by rw [hlog], fun _ => by rw [hlog], fun _ _ hmt => by rw [hmember, hm] at hmt; cases hmt⟩

theorem guarded {go : State → State} (hgo : RingAfter s.refreshReady (go s.refreshReady)) : RingAfter s (s.guarded go) := by
  have hfresh : s.refreshReady.log = s.log ∧ s.refreshReady.trial.phase = s.trial.phase := ⟨rfl, rfl⟩
  unfold State.guarded
  split
  · exact abortTrial _ _ _ _
  · split
    · exact (abortTrial s.refreshReady _ _ _).congr hfresh.1 hfresh.2
    · exact hgo.congr hfresh.1 hfresh.2

theorem awaitStart (h : s.trial.phase ≠ .running) : RingAfter s s.awaitStart := by
  unfold State.awaitStart
  split
  · exact startTrial h
  · exact of_log rfl h

theorem countDown (h : s.trial.phase = .running) : RingAfter s s.countDown := by
  have hrun : (if s.isMember then s.appendRun s.trial.id else s).logTail = s.logTail := by
    split
    · exact appendRecord_logTail _ _ _ _ _ _ _
    · rfl
  unfold State.countDown
  dsimp only
  split
  · exact completeTrial hrun
  · exact of_logTail hrun fun _ => h

theorem takeGo (start : BitVec 8) (h : s.trial.phase ≠ .running) : RingAfter s (s.takeGo start) := by
  have hsched : ∀ {v}, RingAfter (s.scheduledFor start) v → RingAfter s v := fun {v} ⟨hlast, hkept, hmoved⟩ =>
    ⟨hlast, fun hor => hkept (hor.imp_left fun hr => absurd hr h), fun _ ht hm => hmoved (by simp [State.scheduledFor]) ht hm⟩
  rcases takeGo_cases s start with ⟨-, e⟩ | ⟨-, -, -, e⟩ | ⟨-, -, ⟨-, ⟨r, -, e⟩ | ⟨-, e⟩⟩ | ⟨-, e⟩⟩
  all_goals rw [e]
  · exact hsched (abortTrial _ _ _ _)
  · exact hsched (abortTrial _ _ _ _)
  · exact hsched (abortTrial _ _ _ _)
  · exact hsched (startTrial (by simp [State.scheduledFor]))
  · exact of_log rfl (by simp [State.scheduledFor])

theorem acceptingStep (h : s.trial.phase = .accepting) : RingAfter s s.acceptingStep := by
  have hp : s.trial.phase ≠ .running := by rw [h]; simp
  unfold State.acceptingStep State.acceptingGoes
  repeat' split
  · exact dropClaim _ _
  · exact abortTrial _ _ _ _
  · exact dropClaim _ _
  · exact takeGo _ hp
  · exact abortTrial _ _ _ _
  · exact dropClaim _ _
  · exact adopt _ rfl
  · exact dropClaim _ _
  · exact of_log rfl hp

theorem proposingStep (h : s.trial.phase = .proposing) : RingAfter s s.proposingStep := by
  have hp : s.trial.phase ≠ .running := by rw [h]; simp
  unfold State.proposingStep
  split
  · exact withdraw _ _ _
  split
  · exact abortTrial _ _ _ _
  split
  · exact adopt _ (by simp)
  split
  · exact withdraw _ _ _
  split
  · exact withdraw _ _ _
  split
  · exact withdraw _ _ _
  unfold State.gatherAcceptances
  dsimp only
  split
  · split
    · exact of_log rfl (by simp [State.setGo])
    · exact of_log rfl hp
  · split
    · exact (withdraw _ _ _).congr rfl rfl
    · exact of_log rfl hp

theorem adoptHeard (h : s.trial.phase = .idle) : RingAfter s s.adoptHeard := by
  unfold State.adoptHeard
  repeat' split
  · exact adopt _ rfl
  · exact of_log rfl (by rw [h]; simp)
  · exact of_log rfl (by rw [h]; simp)

theorem idleStep (h : s.trial.phase = .idle) : RingAfter s s.idleStep := by
  unfold State.idleStep
  split
  · unfold State.claimBoundary
    dsimp only
    repeat' split
    · exact adopt _ rfl
    · exact of_log rfl (by simp [State.writeOutcome, TrialRecord.empty])
    · exact of_log rfl (by simp [State.writeOutcome, TrialRecord.empty])
    · exact of_log rfl (by simp [State.beginProposal])
  · exact adoptHeard h
  · exact adoptHeard h

theorem decide (s : State) : RingAfter s s.decide := by
  have htail : s.atDecision.logTail = s.logTail := by
    refine (logTail_of_log (countBoundaries_log _)).trans ?_
    unfold State.closeLink
    split
    · exact appendClose_logTail _ _ _ _ _
    · rfl
  have hphase : s.atDecision.trial.phase = s.trial.phase := (atDecision_trial_phase_request s).1
  suffices h : RingAfter s.atDecision s.atDecision.decidePhase by
    obtain ⟨hlast, hkept, hmoved⟩ := h
    rw [hphase] at hkept hmoved
    exact ⟨hlast.trans (congrArg Prod.fst htail), fun hor => (hkept hor).trans (congrArg Prod.snd htail), hmoved⟩
  unfold State.decidePhase
  split
  next h => exact idleStep h
  next h => exact proposingStep h
  next h => exact acceptingStep h
  next h => exact guarded (awaitStart (by rw [show s.atDecision.refreshReady.trial.phase = _ from h]; simp))
  next h => exact guarded (countDown h)
  next h => exact of_log rfl (by rw [h]; simp)

end RingAfter

/-- Unless a recovery ends, the record that a boundary leaves is the one that the controller decided. -/
theorem takeBoundary_trial_of_not_recovered {k : BoundaryKind} {n : BitVec 8}
    (h : (s.sampled k n).decide.trial.phase ≠ .recovering) : (s.takeBoundary k n).trial = (s.sampled k n).decide.trial := by
  rw [takeBoundary_trial, State.testIdle, if_neg (by simp [State.recovered, h]), rampTrims_trial]

/-- A record is RUNNING after a boundary just when the controller decided so. -/
theorem takeBoundary_trial_of_running {k : BoundaryKind} {n : BitVec 8}
    (h : (s.takeBoundary k n).trial.phase = .running ∨ (s.sampled k n).decide.trial.phase = .running) :
    (s.takeBoundary k n).trial = (s.sampled k n).decide.trial := by
  rcases h with h | h
  · rw [takeBoundary_trial] at h ⊢
    rcases testIdle_trial (s.sampled k n).decide.rampTrims (decide ((s.sampled k n).trial.phase = .recovering)) with e | e
    · rw [e, rampTrims_trial]
    · rw [e] at h
      rcases adoptHeard_trial { (s.sampled k n).decide.rampTrims with trial := .empty } with e' | e' <;> rw [e'] at h <;> cases h
  · exact takeBoundary_trial_of_not_recovered (by rw [h]; simp)

/-- The sample and the ring as a boundary leaves them. -/
theorem takeBoundary_ringAfter (s : State) (k : BoundaryKind) (n : BitVec 8) :
    RingAfter (s.sampled k n) (s.takeBoundary k n) := by
  obtain ⟨hlast, hkept, hmoved⟩ := RingAfter.decide (s.sampled k n)
  have hlog := takeBoundary_log s k n
  have hmember : (s.takeBoundary k n).trial = (s.sampled k n).decide.trial →
      (s.takeBoundary k n).isMember = (s.sampled k n).decide.isMember := fun h => by
    rw [State.isMember, State.isMember, h]; simp
  refine ⟨by rw [hlog, hlast], fun hor => ?_, fun hs ht hm => ?_⟩
  · rw [hlog]
    refine hkept ?_
    by_cases hr : (s.sampled k n).decide.trial.phase = .running
    · have htrial := takeBoundary_trial_of_running (.inr hr)
      rwa [htrial, hmember htrial] at hor
    · exact .inr (.inl hr)
  · have htrial := takeBoundary_trial_of_running (.inl ht)
    rw [hlog]
    exact hmoved hs (by rw [← htrial]; exact ht) (by rw [← hmember htrial]; exact hm)

end

end Sys2Proof.Machine
end

section
/-! PROOFS. What a boundary opens (R5, R6, R16, R31, R47, R157): the new round, the sample of the closing one and the own report. -/

namespace Sys2Proof.Machine

section

variable {s : State}

/-! ### The sample of the closing round (R157) -/

theorem drawUndefined_eq (s : State) : s.drawUndefined = decide (s.draw.state ≠ .defined) := by
  unfold State.drawUndefined
  cases s.draw.state <;> rfl

/-- The sample is taken with the values as the boundary leaves them, and the trim that it found. -/
theorem takeBoundary_sample (s : State) (k : BoundaryKind) (n : BitVec 8) :
    (s.takeBoundary k n).log.last =
      { round := s.round.number, speed := (s.takeBoundary k n).meas.speed, load := (s.takeBoundary k n).meas.load
        loads := Quad.ofFn fun m => ((s.takeBoundary k n).meas.chan.get m).load
        ready := channelSet fun m => (s.takeBoundary k n).chans.get m = .ready
        draw := (s.takeBoundary k n).draw.value, drawUndefined := (s.takeBoundary k n).draw.state ≠ .defined
        trim := s.trim.applied, brk := s.brk.latch || s.brk.mark
        alarm := (s.takeBoundary k n).draw.alarm || (s.takeBoundary k n).meas.alarm, lost := s.round.lost } := by
  have hchans : (s.linked k n).measureDraw.chans = s.measured.chans := by simp [State.linked]
  have hmeas : (s.linked k n).measureDraw.meas = s.measured.meas := by simp [State.linked]
  have htrim : (s.linked k n).measureDraw.trim = s.trim := by simp
  have hbrk : (s.linked k n).measureDraw.brk = s.brk := by simp
  rw [(takeBoundary_ringAfter s k n).last, takeBoundary_chans, takeBoundary_meas, takeBoundary_draw]
  show (s.linked k n).measureDraw.sampleOf s.round.number s.round.lost = _
  rw [State.sampleOf, State.readySet, drawUndefined_eq, State.breakInForce, hmeas, htrim, hbrk]
  unfold State.ready
  rw [hchans]

/-- The sample joins the ring before the controller decides. -/
theorem sampled_ring (s : State) (k : BoundaryKind) (n : BitVec 8) :
    (s.sampled k n).log.ring
      = (if s.log.ring.length < 8 then s.log.ring else s.log.ring.drop 1) ++ [(s.sampled k n).log.last] := by
  have hlog : (s.linked k n).measureDraw.log = s.log := by simp
  show ringPush (s.linked k n).measureDraw.log.ring (s.sampled k n).log.last = _
  rw [hlog, ringPush, Config.ringCapacity]
  split <;> rfl

/-! ### The new round (R6, R16, R20) -/

/-- The own slot of a new round has not been sent, and is SILENT so far where frames are assembled. -/
theorem takeBoundary_round_slot (s : State) (k : BoundaryKind) (n : BitVec 8) :
    (s.takeBoundary k n).round.ownSlotDone = false
      ∧ (s.takeBoundary k n).round.ownSlot = if (s.takeBoundary k n).round.synced then .silent else .unobserved := by
  have hround : (s.sampled k n).round = (s.linked k n).round := by simp [State.sampled]
  simp only [State.takeBoundary, clearBreakMark_round, State.endLeave, enterOwnEntry_link, trialAndTrims_link]
  split
  · simp [State.completeLeave, enterStandby_round, hround, State.linked, State.openRound]
  · simp [hround, State.linked, State.openRound]

/-- The new round's frames are assembled on the link, and in LISTENING after an adopted mark. -/
theorem takeBoundary_synced_iff (s : State) (k : BoundaryKind) (n : BitVec 8) :
    (s.takeBoundary k n).round.synced = true ↔ (s.takeBoundary k n).link.state = .active
      ∨ (s.takeBoundary k n).link.state = .leaving ∨ ((s.takeBoundary k n).link.state = .listening ∧ k = .adopted) := by
  rw [takeBoundary_synced]
  by_cases h : s.leavesAt k
  · rw [if_pos h, takeBoundary_link_of_leaves n h]
    simp
  · rw [if_neg h, takeBoundary_link_of_stays n h, LinkState.syncs]
    cases (s.measured.linkStep k).link.state <;> simp [LinkState.onLink]

/-! ### The own report (R31, R47) -/

/-- The state that the own report is built on. -/
def State.reported (s : State) (k : BoundaryKind) (n : BitVec 8) : State :=
  (s.sampled k n).decide.rampTrims.testIdle (Decidable.decide ((s.sampled k n).trial.phase = .recovering))

theorem takeBoundary_ownReport_eq (s : State) (k : BoundaryKind) (n : BitVec 8) :
    (s.takeBoundary k n).ownReport =
      { station := s.station, leaving := false, brk := s.brk.latch || s.brk.mark, fault := (s.takeBoundary k n).anyFaulted
        alarm := (s.takeBoundary k n).draw.alarm || (s.takeBoundary k n).meas.alarm
        readyCount := (s.takeBoundary k n).readyCount, phase := (s.reported k n).trialFields.1
        speed := speedWord (s.takeBoundary k n).meas.speed, load := loadWord (s.takeBoundary k n).meas.load
        trim := BitVec.ofInt 16 (s.takeBoundary k n).trim.applied, id := (s.reported k n).trialFields.2.1
        params := (s.reported k n).trialFields.2.2 } := by
  have hstation : (s.reported k n).station = s.station := by simp [State.reported]
  have hbrk : (s.reported k n).brk = s.brk := by simp [State.reported]
  have hchans : (s.reported k n).chans = (s.takeBoundary k n).chans := by simp [State.reported, State.takeBoundary]
  have hdraw : (s.reported k n).draw = (s.takeBoundary k n).draw := by simp [State.reported, State.takeBoundary]
  have hmeas : (s.reported k n).meas = (s.takeBoundary k n).meas := by simp [State.reported, State.takeBoundary]
  have htrim : (s.reported k n).trim.applied = (s.takeBoundary k n).trim.applied := by
    rw [takeBoundary_trim]; simp [State.reported]
  have hfault : (s.reported k n).anyFaulted = (s.takeBoundary k n).anyFaulted := by
    unfold State.anyFaulted State.isFaulted; rw [hchans]
  have hready : (s.reported k n).readyCount = (s.takeBoundary k n).readyCount := by
    unfold State.readyCount State.ready; rw [hchans]
  rw [takeBoundary_ownReport]
  show (s.reported k n).buildReport.ownReport = _
  rw [State.buildReport, State.breakInForce, hstation, hbrk, hfault, hready, hdraw, hmeas, htrim]

theorem reported_trial (s : State) (k : BoundaryKind) (n : BitVec 8) : (s.reported k n).trial = (s.takeBoundary k n).trial :=
  (takeBoundary_trial s k n).symm

theorem anyFaulted_iff : s.anyFaulted = true ↔ ∃ (m : Channel) (c : FaultCause), s.chans.get m = .faulted c := by
  simp only [State.anyFaulted, List.any_eq_true]
  refine exists_congr fun m => ?_
  have hm : m ∈ channels := by fin_cases m <;> simp [channels]
  unfold State.isFaulted
  cases s.chans.get m <;> simp [hm]

/-! ### The trial's fields of the report, by phase (R47) -/

theorem trialFields_of_idle (h : s.trial.phase = .idle) : s.trialFields = noTrialFields := by simp [State.trialFields, h]

theorem trialFields_of_proposing (h : s.trial.phase = .proposing) :
    s.trialFields = (.claim, s.trial.id, s.trial.params.claimBytes) := by simp [State.trialFields, h]

theorem trialFields_of_go (h : s.trial.phase = .scheduled) (hr : s.trial.role = .proposer ∨ s.trial.role = .proposerMember) :
    s.trialFields = (.go, s.trial.id, ⟨s.trial.params.byteA, s.trial.params.byteB, s.trial.params.byteC, s.trial.startRound⟩) := by
  rcases hr with hr | hr <;> simp [State.trialFields, h, hr]

theorem trialFields_of_accepted (h : s.trial.phase = .scheduled) (hr : s.trial.role = .member) :
    s.trialFields = (.accept, s.trial.id, s.trial.params.claimBytes) := by simp [State.trialFields, h, hr]

theorem trialFields_of_running (h : s.trial.phase = .running) :
    s.trialFields = (.run, s.trial.id,
      ⟨s.trial.params.byteA, s.trial.params.byteB, s.trial.params.byteC, byteOf s.trial.remaining⟩) := by
  simp [State.trialFields, h]

theorem trialFields_of_owed (h : s.trial.phase = .recovering) (ho : s.trial.abortsOwed ≠ 0) :
    s.trialFields = (.abort, s.trial.id, ⟨s.trial.abortCause, BitVec.ofNat 8 s.trial.abortOrigin.val, 0, 0⟩) := by
  simp [State.trialFields, h, ho]

/-! ### A boundary that takes no part in the link (R5, R8, R25) -/

/-- Where no leave ends, the roster is the one that the link step leaves, but for the own entry of a node that goes ACTIVE. -/
theorem takeBoundary_roster_of_standby (k : BoundaryKind) (n : BitVec 8) (h : s.link.state = .standby) :
    (s.takeBoundary k n).link = s.link ∧ (s.takeBoundary k n).roster = s.roster := by
  have hlink : (s.measured.linkStep k).link = s.link := by
    rw [linkStep_link_of_not_listening k (by simp [h])]; simp
  have hroster : (s.measured.linkStep k).roster = s.roster := by
    rw [linkStep_roster, if_neg (by simp [h, LinkState.receives])]; simp
  have hstays : ¬s.leavesAt k := by rw [State.leavesAt, hlink, h]; simp
  refine ⟨(takeBoundary_link_of_stays n hstays).trans hlink, ?_⟩
  rw [State.takeBoundary, clearBreakMark_roster, State.endLeave, if_neg (by simp [hlink, h]), State.enterOwnEntry,
    if_neg (by simp [h]), trialAndTrims_roster, sampled_roster, hroster]

/-- A local boundary in LISTENING ends the join count. -/
theorem takeBoundary_joinCount_of_local (n : BitVec 8) (h : s.link.state = .listening) :
    (s.takeBoundary .localTimed n).link.joinCount = 0 := by
  have hlink : (s.measured.linkStep .localTimed).link = (s.measured.countBoundary .localTimed s.measured.round.ownSlot).link :=
    linkStep_link_of_listening .localTimed (by simp [h])
  rw [takeBoundary_link, hlink]
  split
  · rfl
  · unfold State.countBoundary
    dsimp only
    split
    · rfl
    · rfl

end

/-- Settles O34: the boundary by what it makes of the round, the sample, the ring and the report; the local boundaries by
their times. -/
theorem boundaryOpensTheRound : Obligations.BoundaryOpensTheRound := by
  intro after s a
  refine ⟨fun b k n hb => ?_, fun hrun hst htime => ?_, fun hrun hst htime hidle => ?_⟩
  · set base := a.boundaryBase b with hbase
    set t := base.takeBoundary k n with ht
    have hbrk : base.brk = s.brk := by simp [hbase, a]
    have htrial : base.trial = s.trial := by simp [hbase, a]
    have hround : base.round = s.round := by simp [hbase, a]
    have hstation : base.station = s.station := by simp [hbase, a]
    have hlog : base.log = s.log := by simp [hbase, a]
    have htrim : base.trim = s.trim := by simp [hbase, a]
    obtain ⟨hdone, hslot⟩ := takeBoundary_round_slot base k n
    have hsample := takeBoundary_sample base k n
    rw [hround, hbrk, htrim] at hsample
    obtain ⟨hlast, hkept, hmoved⟩ := takeBoundary_ringAfter base k n
    rw [sampled_trial, htrial] at hkept hmoved
    rw [sampled_ring, hlog, ← hlast] at hkept
    have hreport := takeBoundary_ownReport_eq base k n
    rw [hstation, hbrk, ← ht] at hreport
    have hfields : (base.reported k n).trial = t.trial := reported_trial base k n
    refine ⟨t, exec_boundaryCommand_of hb, by simp [ht], by simp [ht, hbase], by simp [ht], by simp [ht],
      (takeBoundary_round base k n).2.2.2.2.1, (takeBoundary_round base k n).2.2.2.2.2, hdone, takeBoundary_synced_iff base k n,
      hslot, hsample, hkept, hmoved, ?_, ?_, ?_, ?_, ?_, ?_, ?_, ?_, ?_, fun h => ?_, fun h => ?_, fun h hr => ?_, fun h hr => ?_,
      fun h => ?_, fun h ho => ?_⟩
    all_goals rw [hreport]
    · exact anyFaulted_iff
    · rfl
    · exact speedWord_eq _
    · exact loadWord_eq _
    · rw [trialFields_of_idle (by rw [hfields, h])]; exact ⟨rfl, rfl, rfl⟩
    · rw [trialFields_of_proposing (by rw [hfields, h]), hfields]; exact ⟨rfl, rfl, rfl⟩
    · rw [trialFields_of_go (by rw [hfields, h]) (by rw [hfields]; exact hr), hfields]; exact ⟨rfl, rfl, rfl⟩
    · rw [trialFields_of_accepted (by rw [hfields, h]) (by rw [hfields, hr]), hfields]; exact ⟨rfl, rfl, rfl⟩
    · rw [trialFields_of_running (by rw [hfields, h]), hfields]; exact ⟨rfl, rfl, rfl⟩
    · rw [trialFields_of_owed (by rw [hfields, h]) (by rw [hfields]; exact ho), hfields]; exact ⟨rfl, rfl, rfl⟩
  · have hast : a.link.state = .standby := by simpa [a] using hst
    have hdue : a.standbyDue = true := by
      have hround : a.round = s.round := advance_round s after
      have hperiod : a.period = s.period := advance_period s after
      simp only [State.standbyDue, Bool.and_eq_true, decide_eq_true_eq, State.roundTime, hround, hperiod]
      exact ⟨⟨(advance_running s after).trans hrun, hast⟩, htime⟩
    obtain ⟨hlink, hroster⟩ := takeBoundary_roster_of_standby (s := a) .localTimed (a.round.number + 1) hast
    refine ⟨_, congrArg Host.Outcome.next (if_pos hdue), by simp, by simp [a], hlink.trans (advance_link s after),
      hroster.trans (advance_roster s after), by simp [takeBoundary_round_lost_eq]⟩
  · have hast : a.link.state = .listening := by simpa [a] using hst
    have hdue : a.listeningDue = true := by
      have hround : a.round = s.round := advance_round s after
      have hperiod : a.period = s.period := advance_period s after
      have hnone : a.completingNow = false := by simp [State.completingNow, a, hidle]
      simp only [State.listeningDue, Bool.and_eq_true, decide_eq_true_eq, State.roundTime, hround, hperiod, hnone,
        Config.listeningMargin]
      exact ⟨⟨⟨(advance_running s after).trans hrun, hast⟩, htime⟩, rfl⟩
    exact ⟨_, congrArg Host.Outcome.next (if_pos hdue), by simp, by simp [a],
      takeBoundary_joinCount_of_local _ hast, by simp [takeBoundary_round_lost_eq]⟩

end Sys2Proof.Machine
end

section
/-! PROOFS. The trims through a boundary (R130, R131, R136 to R138, R141, R146), and what no boundary changes. -/

namespace Sys2Proof.Machine

section

variable {s t u : State}

/-! ### What the controller does to the trims (R130, R131, R133) -/

/-- The controller presents sources of the trim target, and never what is applied: the manual trim is left or goes to 0, and a
target that is chosen stays chosen. -/
structure TrimWork (s t : State) : Prop where
  manual : t.trim.manual = s.trim.manual ∨ t.trim.manual = 0
  applied : t.trim.applied = s.trim.applied
  shift : t.trim.shift = s.trim.shift
  brk : t.brk = s.brk
  chosen : s.targetIsChosen → t.targetIsChosen

namespace TrimWork

theorem of_trim (h : t.trim = s.trim) (hb : t.brk = s.brk) : TrimWork s t :=
  ⟨.inl (by rw [h]), by rw [h], by rw [h], hb, fun hc => by
    unfold State.targetIsChosen State.breakInForce at *; rwa [h, hb]⟩

theorem refl (s : State) : TrimWork s s := of_trim rfl rfl

theorem trans (h : TrimWork s t) (k : TrimWork t u) : TrimWork s u where
  manual := by
    rcases k.manual with hk | hk
    · rw [hk]; exact h.manual
    · exact .inr hk
  applied := k.applied.trans h.applied
  shift := k.shift.trans h.shift
  brk := k.brk.trans h.brk
  chosen hc := k.chosen (h.chosen hc)

theorem clearManual (s : State) : TrimWork s (s.setManual 0) := ⟨.inr rfl, rfl, rfl, rfl, fun _ => rfl⟩

theorem present (s : State) (v w : Int) (d : Option Channel) (c : RampClass) : TrimWork s (s.present v w d c) :=
  ⟨.inl rfl, rfl, rfl, rfl, fun _ => rfl⟩

theorem enterRecovering (s : State) (owed : Nat) (c : Byte) (g : Station) : TrimWork s (s.enterRecovering owed c g) :=
  (clearManual s).trans (of_trim (enterRecovering_trim s owed c g) (by simp))

theorem withdraw (s : State) (c : Byte) (g : Station) : TrimWork s (s.withdraw c g) :=
  (enterRecovering s 3 Reason.withdrawn.code s.station).trans (of_trim rfl rfl)

theorem abortTrial (s : State) (owed : Nat) (c : Byte) (g : Station) : TrimWork s (s.abortTrial owed c g) :=
  ((clearManual s).trans (present _ 0 0 none .recovery)).trans (of_trim (abortTrial_trim s owed c g) (by simp))

theorem completeTrial (s : State) : TrimWork s s.completeTrial :=
  ((present s 0 0 none .normal).trans (clearManual _)).trans (of_trim (completeTrial_trim s) (by simp))

theorem startTrial (s : State) : TrimWork s s.startTrial := by
  have htrim := startTrial_trim s
  split at htrim
  · split at htrim
    · exact (present s _ _ _ _).trans (of_trim htrim (by simp))
    · exact (present s _ _ _ _).trans (of_trim htrim (by simp))
    · exact of_trim htrim (by simp)
    · exact of_trim htrim (by simp)
  · exact of_trim htrim (by simp)

theorem guarded {go : State → State} (hgo : TrimWork s.refreshReady (go s.refreshReady)) : TrimWork s (s.guarded go) := by
  have hfresh : TrimWork s s.refreshReady := of_trim rfl rfl
  unfold State.guarded
  split
  · exact abortTrial _ _ _ _
  · split
    · exact hfresh.trans (abortTrial _ _ _ _)
    · exact hfresh.trans hgo

theorem awaitStart (s : State) : TrimWork s s.awaitStart := by
  unfold State.awaitStart
  split
  · exact startTrial s
  · exact refl s

theorem countDown (s : State) : TrimWork s s.countDown := by
  have hrun : TrimWork s (if s.isMember then s.appendRun s.trial.id else s) := by
    split
    · exact of_trim (by simp) (by simp)
    · exact refl s
  unfold State.countDown
  dsimp only
  split
  · refine trans ?_ (completeTrial _)
    exact hrun.trans (of_trim rfl rfl)
  · exact hrun.trans (of_trim rfl rfl)

theorem takeGo (s : State) (start : BitVec 8) : TrimWork s (s.takeGo start) := by
  have hsched : TrimWork s (s.scheduledFor start) := of_trim rfl rfl
  rcases takeGo_cases s start with ⟨-, e⟩ | ⟨-, -, -, e⟩ | ⟨-, -, ⟨-, ⟨r, -, e⟩ | ⟨-, e⟩⟩ | ⟨-, e⟩⟩
  all_goals rw [e]
  · exact hsched.trans (abortTrial _ _ _ _)
  · exact hsched.trans (abortTrial _ _ _ _)
  · exact hsched.trans (abortTrial _ _ _ _)
  · exact hsched.trans (startTrial _)
  · exact hsched

theorem acceptingStep (s : State) : TrimWork s s.acceptingStep := by
  unfold State.acceptingStep State.acceptingGoes
  repeat' split
  · exact of_trim (by simp) (by simp)
  · exact abortTrial _ _ _ _
  · exact of_trim (by simp) (by simp)
  · exact takeGo _ _
  · exact abortTrial _ _ _ _
  · exact of_trim (by simp) (by simp)
  · exact of_trim (by simp) (by simp)
  · exact of_trim (by simp) (by simp)
  · exact refl s

theorem proposingStep (s : State) : TrimWork s s.proposingStep := by
  unfold State.proposingStep
  split
  · exact withdraw _ _ _
  split
  · exact abortTrial _ _ _ _
  split
  · exact of_trim (by simp) (by simp)
  split
  · exact withdraw _ _ _
  split
  · exact withdraw _ _ _
  split
  · exact withdraw _ _ _
  have hgathered : TrimWork s { s with trial := { s.trial with accepted := s.nowAccepted } } := of_trim rfl rfl
  unfold State.gatherAcceptances
  dsimp only
  split
  · split
    · exact of_trim rfl rfl
    · exact hgathered
  · split
    · exact hgathered.trans (withdraw _ _ _)
    · exact hgathered

theorem decide (s : State) : TrimWork s s.decide := by
  refine (of_trim (t := s.atDecision) (by simp) (by simp)).trans ?_
  unfold State.decide State.decidePhase
  split
  · exact of_trim (by simp) (by simp)
  · exact proposingStep _
  · exact acceptingStep _
  · exact guarded (awaitStart _)
  · exact guarded (countDown _)
  · exact refl _

end TrimWork

/-- The controller finds the trims as the boundary found them. -/
theorem trimWork_sampled_decide (s : State) (k : BoundaryKind) (n : BitVec 8) : TrimWork s (s.sampled k n).decide :=
  (TrimWork.of_trim (t := s.sampled k n) (by simp) (by simp)).trans (.decide _)

end

/-- Settles O35: the blocks that no boundary touches, and the manual trim by what the controller does to the trims. -/
theorem boundariesLeaveTheRest : Obligations.BoundariesLeaveTheRest := by
  intro s k n t
  have hraised : Raised s.port t := takeBoundary_raised s k n (raised_self s)
  refine ⟨by simp [t], by simp [t], by simp [t], by simp [t], by simp [t], by simp [t], by simp [t], by simp [t], ?_, ?_, ?_,
    hraised.srdy, hraised.response, hraised.request, hraised.mask, ?_⟩
  · have hmanual : t.trim.manual = (s.sampled k n).decide.trim.manual := by
      simp only [t, takeBoundary_trim]; simp [State.rampTrims]
    rw [hmanual]
    exact (trimWork_sampled_decide s k n).manual
  · simp [t, State.takeBoundary, State.clearBreakMark, State.trialAndTrims]
  · simp [t, State.takeBoundary, State.trialAndTrims, State.rampTrims]
  · simp only [t, State.takeBoundary, clearBreakMark_round, State.endLeave]
    split <;> simp [State.completeLeave, enterStandby_round, State.sampled, State.linked, State.openRound, State.roundFrame]

/-! ### The ramps of a boundary (R135 to R138, R143, R145, R146) -/

theorem rampToward_eq (limit : Nat) (target applied : Int) :
    ((target - applied).natAbs ≤ limit → rampToward limit target applied = target)
      ∧ ((limit : Int) < target - applied → rampToward limit target applied = applied + limit)
      ∧ (target - applied < -(limit : Int) → rampToward limit target applied = applied - limit) := by
  refine ⟨fun h => if_pos h, fun h => ?_, fun h => ?_⟩
  · rw [rampToward, if_neg (by omega), if_pos (by omega)]
  · rw [rampToward, if_neg (by omega), if_neg (by omega)]

theorem rampLimit_eq (c : ConfigRecord) (k : RampClass) : c.rampLimit k =
    if c.separateRamps = false then c.rampNormal
    else match k with
      | .normal => c.rampNormal
      | .trial => c.rampTrial
      | .recovery => c.rampRecovery := by
  unfold ConfigRecord.rampLimit
  cases c.separateRamps <;> rfl

/-- Settles O54: the ramp of the trims that the controller leaves, toward the target that they choose. -/
theorem rampMovesTowardTheTarget : Obligations.RampMovesTowardTheTarget := by
  refine ⟨rampToward_eq, ?_⟩
  intro s k n hchosen t limit
  set d := (s.sampled k n).decide with hd
  obtain ⟨-, happlied, hshift, hbrk, hkept⟩ := trimWork_sampled_decide s k n
  rw [← hd] at happlied hshift hbrk hkept
  have htrim : t.trim = { d.rampTrims.trim with
      target := if s.brk.latch then 0 else d.trim.trialTarget.getD d.trim.manual } := takeBoundary_trim s k n
  have hcfg : d.cfg = s.cfg := cfg_of_config (by simp [hd])
  have hforce : d.breakInForce = s.breakInForce := by rw [State.breakInForce, State.breakInForce, hbrk]
  have htarget : d.trim.target = if s.breakInForce then 0 else t.trim.target := by
    rw [hkept hchosen, hforce, htrim]
    cases hb : s.breakInForce with
    | true => rfl
    | false =>
      have hlatch : s.brk.latch = false := (Bool.or_eq_false_iff.mp hb).1
      simp [hlatch]
  have hcls : t.trim.cls = d.trim.cls := by rw [htrim]; rfl
  have hlimit : d.cfg.rampLimit d.classInForce = limit := by
    rw [hcfg, rampLimit_eq, State.classInForce, hbrk, ← hcls] <;> rfl
  have hready : d.ready = t.ready := by
    have hchans : d.chans = t.chans := by
      simp [hd, t, takeBoundary_chans, State.sampled, State.linked]
    funext m
    rw [State.ready, State.ready, hchans]
  have hpwm : t.pwm = d.rampTrims.pwm := by simp [t, State.takeBoundary, State.trialAndTrims, hd]
  refine ⟨?_, ?_, fun m => ?_, ?_, fun m => ?_⟩
  · rw [htrim]
    show d.rampedTrim = _
    rw [State.rampedTrim, hlimit, happlied, htarget, htrim]
  · rw [htrim]
    show d.rampedShift = rampToward limit (if s.breakInForce then 0 else d.trim.shiftTarget) _
    rw [State.rampedShift, hlimit, hshift, hforce]
  · rw [htrim, ← hready]
    exact Quad.get_ofFn _ m
  · rw [hpwm, htrim]; rfl
  · rw [hpwm, htrim]
    exact Quad.get_ofFn _ m

end Sys2Proof.Machine
end

section
/-! PROOFS. The link state machine and the roster at a boundary (R25, R26, R28, R38): the entry to ACTIVE, the end of a leave, and
the ageing. -/

namespace Sys2Proof.Machine

section

variable {s : State}

/-! ### The commands of what comes about at a boundary -/

/-- A row's command takes the boundary in which the row comes about. -/
theorem exec_row_of {after : Wait} {b : BoundaryEvent} {k : BoundaryKind} {n : BitVec 8} {cmd : Instr}
    {row : State → State → Bool} (hb : (s.advance after).boundaryOf b = some (k, n))
    (hexec : exec cmd s = .next ((s.advance after).whenComesAbout b row))
    (hr : row (s.advance after) (((s.advance after).boundaryBase b).takeBoundary k n) = true) :
    exec cmd s = .next (((s.advance after).boundaryBase b).takeBoundary k n) := by
  rw [hexec, whenComesAbout_of hb hr]

/-! ### The counts (R25, R26) -/

/-- A count that reaches 3 takes the node to ACTIVE with JOINED. -/
theorem linkStep_of_qualified {k : BoundaryKind} (h : s.link.state = .listening)
    (hq : (s.link.counted k s.round.ownSlot).qualified = true) :
    (s.measured.linkStep k).link.state = .active ∧ (s.measured.linkStep k).link.listenCount = 0
      ∧ (s.measured.linkStep k).link.joinCount = 0 ∧ (s.measured.linkStep k).hasEvent .joined = true := by
  have hl : s.measured.link.state = .listening := by simpa using h
  have hq' : (s.measured.link.counted k s.measured.round.ownSlot).qualified = true := by simpa using hq
  have hcount : s.measured.countBoundary k s.measured.round.ownSlot = State.raise { s.measured with
      link := { s.measured.link.counted k s.measured.round.ownSlot with state := .active, listenCount := 0, joinCount := 0 } }
      .joined := if_pos hq'
  have hlink := linkStep_link_of_listening k hl
  rw [hcount, raise_link] at hlink
  refine ⟨by rw [hlink], by rw [hlink], by rw [hlink], ?_⟩
  have hstep : s.measured.linkStep k = (s.measured.countBoundary k s.measured.round.ownSlot).ageRoster := by
    rw [State.linkStep, if_pos hl, if_pos (by rw [hl]; rfl)]
  rw [hstep]
  refine Raised.hasEvent (ageRoster_raised _ (raised_self _)) ?_
  rw [hcount]
  exact hasEvent_raise _ _

/-- A count that does not reach 3 is stepped, and nothing else. -/
theorem linkStep_of_not_qualified {k : BoundaryKind} (h : s.link.state = .listening)
    (hq : (s.link.counted k s.round.ownSlot).qualified = false) :
    (s.measured.linkStep k).link = s.link.counted k s.round.ownSlot := by
  rw [linkStep_link_of_listening k (by simpa using h)]
  unfold State.countBoundary
  dsimp only
  rw [if_neg (by simpa using hq)]
  simp

theorem linkStep_elsewhere (k : BoundaryKind) (h : s.link.state ≠ .listening) : (s.measured.linkStep k).link = s.link := by
  rw [linkStep_link_of_not_listening k (by simpa using h)]
  simp

/-- A node that goes ACTIVE has JOINED, with its own entry PRESENT. -/
theorem takeBoundary_joins {k : BoundaryKind} (n : BitVec 8) (h : s.link.state = .listening) (hlen : s.roster.length = 16)
    (hq : (s.link.counted k s.round.ownSlot).qualified = true) :
    (s.takeBoundary k n).link.state = .active ∧ (s.takeBoundary k n).link.listenCount = 0
      ∧ (s.takeBoundary k n).link.joinCount = 0 ∧ (s.takeBoundary k n).hasEvent .joined = true
      ∧ (s.takeBoundary k n).entry s.station
        = { presence := .present, miss := 0, heard := false, lastRound := n, report := (s.takeBoundary k n).ownReport } := by
  obtain ⟨hstate, hlisten, hjoin, hevent⟩ := linkStep_of_qualified h hq
  have hstays : ¬s.leavesAt k := fun hl => by rw [State.leavesAt, hstate] at hl; cases hl.1
  rw [takeBoundary_link_of_stays n hstays]
  refine ⟨hstate, hlisten, hjoin, Raised.hasEvent (takeBoundary_raised_linkStep s k n) hevent, ?_⟩
  rw [takeBoundary_entry n s.station hlen hstays, if_pos ⟨⟨h, hstate⟩, rfl⟩]

/-- A count that does not reach 3 leaves the node in LISTENING. -/
theorem takeBoundary_counts {k : BoundaryKind} (n : BitVec 8) (h : s.link.state = .listening)
    (hq : (s.link.counted k s.round.ownSlot).qualified = false) :
    (s.takeBoundary k n).link = s.link.counted k s.round.ownSlot := by
  have hlink := linkStep_of_not_qualified h hq
  rw [takeBoundary_link_of_stays n fun hl => ?_, hlink]
  rw [State.leavesAt, hlink, counted_state, h] at hl
  cases hl.1

/-! ### The end of a leave (R28) -/

theorem leavesAt_iff {k : BoundaryKind} (h : s.link.state ≠ .listening) :
    s.leavesAt k ↔ s.link.state = .leaving ∧ s.link.leave = .sent := by
  rw [State.leavesAt, linkStep_elsewhere k h]

theorem takeBoundary_left {k : BoundaryKind} (n : BitVec 8) (h : s.leavesAt k) :
    (s.takeBoundary k n).hasEvent .left = true := by
  have hend : ((s.sampled k n).trialAndTrims.enterOwnEntry s.link.state).endLeave
      = ((s.sampled k n).trialAndTrims.enterOwnEntry s.link.state).completeLeave := if_pos (by simpa using h)
  rw [State.takeBoundary, hasEvent_congr (clearBreakMark_port _), hend]
  exact hasEvent_raise _ _

theorem takeBoundary_off {k : BoundaryKind} (n : BitVec 8) (h : s.leavesAt k) :
    (s.takeBoundary k n).line.tx = .released ∧ (s.takeBoundary k n).line.rx = none := by
  rw [takeBoundary_line, if_pos h]
  exact ⟨rfl, rfl⟩

end

/-- Settles O36: LISTENING by its counts, the other states by the leave. -/
theorem linkChangesAtBoundaries : Obligations.LinkChangesAtBoundaries := by
  intro after b k n s a hb
  have ha : a = s.advance after := rfl
  have halink : a.link = s.link := advance_link s after
  set base := a.boundaryBase b with hbase
  have hlink : base.link = s.link := by simp [hbase, a]
  have hround : base.round = s.round := by simp [hbase, a]
  have hstation : base.station = s.station := by simp [hbase, a]
  have hroster : base.roster = s.roster := by simp [hbase, a]
  refine ⟨fun hst hlen hk hcount => ?_, fun hst hlen hk hcount hslot => ?_, fun hst hsent => ?_, ?_⟩
  · obtain ⟨hstate, hlisten, hjoin, hevent, hentry⟩ := takeBoundary_joins (s := base) (k := k) n (by rw [hlink]; exact hst)
      (by rw [hroster]; exact hlen) (by simp [hlink, hk, Link.counted, Link.qualified, hcount])
    refine ⟨_, exec_row_of hb rfl ?_, hstate, hlisten, hjoin, hevent, hstation ▸ hentry⟩
    simp only [← hbase, ← ha, halink, Bool.and_eq_true, decide_eq_true_eq]
    exact ⟨⟨hst, hcount⟩, hstate⟩
  · obtain ⟨hstate, hlisten, hjoin, hevent, hentry⟩ := takeBoundary_joins (s := base) (k := k) n (by rw [hlink]; exact hst)
      (by rw [hroster]; exact hlen) (by simp [hlink, hround, hk, hslot, Link.counted, Link.qualified, hcount])
    refine ⟨_, exec_row_of hb rfl ?_, hstate, hlisten, hjoin, hevent, hstation ▸ hentry⟩
    simp only [← hbase, ← ha, halink, Bool.and_eq_true, decide_eq_true_eq]
    exact ⟨⟨hst, hcount⟩, hstate⟩
  · have hleaves : base.leavesAt k := (leavesAt_iff (by simp [hlink, hst])).mpr (by rw [hlink]; exact ⟨hst, hsent⟩)
    have hlinkt := takeBoundary_link_of_leaves n hleaves
    obtain ⟨htx, hrx⟩ := takeBoundary_off n hleaves
    refine ⟨_, exec_row_of hb rfl ?_, hlinkt, takeBoundary_left n hleaves, htx, hrx, by simp,
      fun st => takeBoundary_entry_of_left n st hleaves.1 hleaves.2⟩
    simp only [← hbase, ← ha, halink, hlinkt, Bool.and_eq_true, decide_eq_true_eq]
    exact ⟨⟨hst, hsent⟩, trivial⟩
  · refine ⟨_, exec_boundaryCommand_of hb, fun hst hk hcount => ?_, fun hst hk hslot hcount => ?_, fun hst hk hslot => ?_,
      fun hon hnot => ?_⟩
    · rw [← hbase, takeBoundary_counts n (by rw [hlink]; exact hst) ?_, hlink, hk]
      · rfl
      · simp only [hlink, hk, Link.counted, Link.qualified]
        simp; omega
    · rw [← hbase, takeBoundary_counts n (by rw [hlink]; exact hst) ?_, hlink, hround, hk, hslot]
      · rfl
      · simp only [hlink, hround, hk, hslot, Link.counted, Link.qualified]
        simp; omega
    · rw [← hbase, takeBoundary_counts n (by rw [hlink]; exact hst) ?_, hlink, hround, hk]
      · simp [Link.counted, hslot]
      · simp [hlink, hround, hk, hslot, Link.counted, Link.qualified]
    · have hne : s.link.state ≠ .listening := fun h => by rw [h] at hon; cases hon
      rw [← hbase, takeBoundary_link_of_stays n (mt (leavesAt_iff (by rw [hlink]; exact hne)).mp (by rw [hlink]; exact hnot)),
        linkStep_elsewhere k (by rw [hlink]; exact hne), hlink]

/-! ### The ageing of the roster (R34, R38, R41) -/

section

variable {s : State}

theorem aged_eq (e : Entry) : e.aged =
    if e.presence = .absent then e
    else if e.heard then { e with heard := false }
    else if e.presence = .present ∧ e.miss = 2 then { e with presence := .silent, miss := 3 }
    else if e.presence = .silent ∧ e.miss = 15 then { Entry.cleared with miss := 16 }
    else { e with miss := e.miss + 1 } := by
  simp only [Entry.aged, Bool.and_eq_true, decide_eq_true_eq, Nat.reduceEqDiff]

/-- Another station's entry after the ageing of a boundary. -/
theorem linkStep_entry (k : BoundaryKind) {u : Station} (hu : u ≠ s.station) :
    (s.measured.linkStep k).entry u = if s.link.state.receives then (s.entry u).aged else s.entry u := by
  have hentry : s.measured.entry u = s.entry u := entry_congr (by simp) u
  rw [State.entry, linkStep_roster]
  cases hr : s.link.state.receives with
  | true =>
    rw [if_pos (by simpa using hr), agedRoster_entry, if_neg (by simpa using hu), hentry]
    rfl
  | false =>
    rw [if_neg (by simp [hr])]
    exact hentry

/-- PEER_CHANGE when another station's entry changes its presence at the ageing. -/
theorem linkStep_peerChange (k : BoundaryKind) {u : Station} (hu : u ≠ s.station) (hr : s.link.state.receives = true)
    (hp : (s.entry u).aged.presence ≠ (s.entry u).presence) : (s.measured.linkStep k).hasEvent .peerChange = true := by
  have hages : ∀ v : State, v.station = s.station → v.roster = s.roster → v.ageRoster.hasEvent .peerChange = true := by
    intro v hstation hroster
    have hmem : u ∈ stations := by fin_cases u <;> simp [stations]
    rw [State.ageRoster, hasEvent_raiseIf_iff]
    refine .inr (List.any_eq_true.mpr ⟨u, hmem, ?_⟩)
    simp [State.agesOut, hstation, hu, entry_congr hroster u, hp]
  rw [State.linkStep, if_pos (by simpa using hr)]
  split
  · exact hages _ (by simp) (by simp)
  · exact hages _ (by simp) (by simp)

/-- An entry that changes its presence at the ageing of a boundary. -/
theorem takeBoundary_ages {k : BoundaryKind} (n : BitVec 8) {u : Station} (hlen : s.roster.length = 16) (hu : u ≠ s.station)
    (hr : s.link.state.receives = true) (hp : (s.entry u).aged.presence ≠ (s.entry u).presence) :
    (s.takeBoundary k n).hasEvent .peerChange = true
      ∧ (¬(s.link.state = .leaving ∧ s.link.leave = .sent) → (s.takeBoundary k n).entry u = (s.entry u).aged) := by
  refine ⟨Raised.hasEvent (takeBoundary_raised_linkStep s k n) (linkStep_peerChange k hu hr hp), fun hnot => ?_⟩
  have hstays : ¬s.leavesAt k := fun hl => by
    by_cases hst : s.link.state = .listening
    · rcases linkStep_link_cases s k with ⟨h, -⟩ | ⟨-, h, -⟩ | ⟨-, h, -⟩
      · exact h hst
      · rw [State.leavesAt, h] at hl; cases hl.1
      · rw [State.leavesAt, h, counted_state, hst] at hl; cases hl.1
    · exact hnot ((leavesAt_iff hst).mp hl)
  rw [takeBoundary_entry n u hlen hstays, if_neg fun h => hu h.2, linkStep_entry k hu, if_pos hr]

end

/-- Settles O37: the entries by their ageing. -/
theorem entriesAge : Obligations.EntriesAge := by
  intro after b k n st s a e hb hlen hst
  have ha : a = s.advance after := rfl
  set base := a.boundaryBase b with hbase
  have hlink : base.link = s.link := by simp [hbase, a]
  have hstation : base.station = s.station := by simp [hbase, a]
  have hroster : base.roster = s.roster := by simp [hbase, a]
  have hentry : base.entry st = e := entry_congr hroster st
  have haentry : a.entry st = e := entry_congr (advance_roster s after) st
  have hages := takeBoundary_ages (s := base) (k := k) (u := st) n (by rw [hroster]; exact hlen) (by rw [hstation]; exact hst)
  rw [hlink, hentry] at hages
  refine ⟨fun hr hheard hp hm => ?_, fun hr hheard hp hm => ?_, ?_, ?_⟩
  · have haged : e.aged = { e with presence := .silent, miss := 3 } := by rw [aged_eq]; simp [hheard, hp, hm]
    obtain ⟨hevent, hkept⟩ := hages hr (by rw [haged, hp]; simp)
    rw [haged] at hkept
    refine ⟨_, exec_row_of hb rfl ?_, hevent, by simp, hkept⟩
    simp [silentRow, ← ha, hr, haentry, hp, haged, a, hst]
  · have haged : e.aged = { Entry.cleared with miss := 16 } := by rw [aged_eq]; simp [hheard, hp, hm]
    obtain ⟨hevent, hkept⟩ := hages hr (by rw [haged, hp]; simp [Entry.cleared])
    rw [haged] at hkept
    refine ⟨_, exec_row_of hb rfl ?_, hevent, by simp, hkept⟩
    simp [agedOutRow, ← ha, hr, haentry, hp, haged, a, hst, Entry.cleared]
  · have hlinked : (base.linked k n).entry st = (base.measured.linkStep k).entry st := entry_congr (by simp [State.linked]) st
    rw [hlinked, linkStep_entry k (by rw [hstation]; exact hst), hlink, hentry, aged_eq]
    cases hr : s.link.state.receives <;> by_cases hp : e.presence = .absent <;> simp [hp]
  · exact entry_congr (by simp [State.decisionAt, ← hbase, State.sampled]) st

end Sys2Proof.Machine
end

section
/-! PROOFS. The measurement of the channels at a boundary (R81, R89 to R96, R112): the values of each channel, what the reference
finds against it, and what becomes of the check. -/

namespace Sys2Proof.Machine

section

variable {s t : State}

/-! ### The first pass, channel by channel (R93 to R96, R112) -/

/-- What the first pass does to one channel; `judgeChannels_eq` ties it to the model. -/
def State.judgeOne (s : State) (ref : Option Int) (t : State) (n : Channel) : State :=
  match s.finding ref n with
  | some cause => (t.setSlip n 0).latchFault n cause
  | none => t.setSlip n (s.slipStep ref n)

theorem judgeChannels_eq (s : State) : s.judgeChannels = channels.foldl (s.judgeOne s.meanSpeed) s := rfl

/-- A check that a latching ends. -/
def State.channelEnded (s : State) : RevCheck :=
  { s.check with state := .done, verdict := .incomplete .channel, timer := .stopped s.indexReading }

theorem judgeOne_of_finding {ref : Option Int} {n : Channel} {c : FaultCause} (h : s.finding ref n = some c) :
    s.judgeOne ref t n = (t.setSlip n 0).latchFault n c := by rw [State.judgeOne, h]

theorem judgeOne_of_none {ref : Option Int} {n : Channel} (h : s.finding ref n = none) :
    s.judgeOne ref t n = t.setSlip n (s.slipStep ref n) := by rw [State.judgeOne, h]

theorem latchFault_chans (s : State) (n : Channel) (c : FaultCause) : (s.latchFault n c).chans = s.chans.set n (.faulted c) := by
  simp [State.latchFault, State.setChannel]

theorem judgeOne_chans (ref : Option Int) (n m : Channel) :
    (s.judgeOne ref t n).chans.get m
      = if m = n then ((s.finding ref n).map ChannelState.faulted).getD (t.chans.get m) else t.chans.get m := by
  cases h : s.finding ref n with
  | none => rw [judgeOne_of_none h]; simp
  | some c => rw [judgeOne_of_finding h, latchFault_chans, Quad.get_set, setSlip_chans]; rfl

theorem judgeOne_values (ref : Option Int) (n m : Channel) :
    (s.judgeOne ref t n).meas.chan.get m
      = if m = n then { t.meas.chan.get m with slip := if (s.finding ref n).isSome then 0 else s.slipStep ref n }
        else t.meas.chan.get m := by
  have hset : ∀ k : Nat, (t.setSlip n k).meas.chan.get m
      = if m = n then { t.meas.chan.get m with slip := k } else t.meas.chan.get m := fun k => by
    show (t.meas.chan.set n { t.meas.chan.get n with slip := k }).get m = _
    rw [Quad.get_set]
    split
    next hm => rw [hm]
    · rfl
  cases h : s.finding ref n with
  | none => rw [judgeOne_of_none h, hset]; rfl
  | some c => rw [judgeOne_of_finding h, latchFault_meas, hset]; rfl

theorem judgeOne_raised (ref : Option Int) (n : Channel) : Raised t.port (s.judgeOne ref t n) := by
  cases h : s.finding ref n with
  | none => rw [judgeOne_of_none h]; simp
  | some c => rw [judgeOne_of_finding h]; simp

theorem judgeOne_check_of_other {ref : Option Int} {n : Channel}
    (h : t.checkUnderWay = false ∨ t.check.channel ≠ n ∨ s.finding ref n = none) : (s.judgeOne ref t n).check = t.check := by
  cases hf : s.finding ref n with
  | none => rw [judgeOne_of_none hf]; simp
  | some c =>
    rw [judgeOne_of_finding hf, latchFault_check_of_other (s := t.setSlip n 0) ?_ c]
    · simp
    · rcases h with h | h | h
      · exact .inl h
      · exact .inr h
      · rw [hf] at h; cases h

/-- The first pass over some of the channels leaves the check of a channel that it finds nothing against. -/
theorem foldl_judgeOne_check_of_other (ref : Option Int) : ∀ (l : List Channel) (t : State),
    (t.checkUnderWay = false ∨ t.check.channel ∉ l ∨ s.finding ref t.check.channel = none) →
      (l.foldl (s.judgeOne ref) t).check = t.check
  | [], _, _ => rfl
  | n :: l, t, h => by
    have hone : (s.judgeOne ref t n).check = t.check := judgeOne_check_of_other (by
      rcases h with h | h | h
      · exact .inl h
      · exact .inr (.inl fun he => h (he ▸ List.mem_cons_self))
      · by_cases he : t.check.channel = n
        · exact .inr (.inr (he ▸ h))
        · exact .inr (.inl he))
    have hway : (s.judgeOne ref t n).checkUnderWay = t.checkUnderWay := by
      rw [State.checkUnderWay, State.checkUnderWay, hone]
    rw [List.foldl_cons, foldl_judgeOne_check_of_other ref l _ (by
      rw [hway, hone]
      exact h.imp_right (Or.imp_left fun hm hl => hm (List.mem_cons_of_mem n hl))), hone]

/-- What one step has raised stands at the end. -/
theorem foldl_judgeOne_raised (ref : Option Int) : ∀ (l : List Channel) (t : State),
    Raised t.port (l.foldl (s.judgeOne ref) t)
  | [], t => raised_self t
  | n :: l, t => (judgeOne_raised ref n).trans (foldl_judgeOne_raised ref l (s.judgeOne ref t n))

/-- The check of a channel that the first pass finds something against ends. -/
theorem foldl_judgeOne_check_of_found (ref : Option Int) : ∀ (l : List Channel) (t : State), t.checkUnderWay = true →
    t.check.channel ∈ l → (s.finding ref t.check.channel).isSome = true →
      (l.foldl (s.judgeOne ref) t).check = t.channelEnded ∧ (l.foldl (s.judgeOne ref) t).hasEvent .revCheckDone = true
  | [], _, _, hm, _ => absurd hm List.not_mem_nil
  | n :: l, t, hw, hm, hf => by
    rw [List.foldl_cons]
    by_cases he : t.check.channel = n
    · obtain ⟨c, hc⟩ := Option.isSome_iff_exists.mp hf
      rw [he] at hc
      obtain ⟨hcheck, hevent⟩ := latchFault_check_of_checked (s := t.setSlip n 0) hw he c
      rw [← judgeOne_of_finding hc] at hcheck hevent
      refine ⟨(foldl_judgeOne_check_of_other ref l _ (.inl ?_)).trans hcheck, (foldl_judgeOne_raised ref l _).hasEvent hevent⟩
      rw [State.checkUnderWay, hcheck]
      rfl
    · have hone : (s.judgeOne ref t n).check = t.check := judgeOne_check_of_other (.inr (.inl he))
      have hnow : (s.judgeOne ref t n).now = t.now := by
        cases h : s.finding ref n with
        | none => rw [judgeOne_of_none h]; simp
        | some c => rw [judgeOne_of_finding h]; simp
      have hended : (s.judgeOne ref t n).channelEnded = t.channelEnded := by
        rw [State.channelEnded, State.channelEnded, State.indexReading, State.indexReading, hone, hnow]
      rw [← hended]
      refine foldl_judgeOne_check_of_found ref l _ ?_ ?_ ?_
      · rw [State.checkUnderWay, hone]; exact hw
      · rw [hone]; exact (List.mem_cons.mp hm).resolve_left he
      · rw [hone]; exact hf

/-- A channel that the first pass latches raises CHANNEL_FAULT. -/
theorem foldl_judgeOne_hasEvent (ref : Option Int) {n : Channel} (hf : (s.finding ref n).isSome = true) :
    ∀ (l : List Channel) (t : State), n ∈ l → (l.foldl (s.judgeOne ref) t).hasEvent .channelFault = true
  | [], _, hm => absurd hm List.not_mem_nil
  | m :: l, t, hm => by
    rw [List.foldl_cons]
    rcases List.mem_cons.mp hm with rfl | hl
    · obtain ⟨c, hc⟩ := Option.isSome_iff_exists.mp hf
      refine (foldl_judgeOne_raised ref l _).hasEvent ?_
      rw [judgeOne_of_finding hc]
      exact latchFault_hasEvent _ _ _
    · exact foldl_judgeOne_hasEvent ref hf l _ hl

theorem mem_channels (n : Channel) : n ∈ channels := by fin_cases n <;> simp [channels]

/-- The channels after the first pass. -/
theorem judgeChannels_chans (s : State) (m : Channel) :
    s.judgeChannels.chans.get m = ((s.finding s.meanSpeed m).map ChannelState.faulted).getD (s.chans.get m) := by
  rw [judgeChannels_eq]
  simp only [channels, List.foldl_cons, List.foldl_nil, judgeOne_chans]
  fin_cases m <;> simp

/-- The values of the channels after the first pass: the slip counts alone have changed. -/
theorem judgeChannels_values (s : State) (m : Channel) :
    s.judgeChannels.meas.chan.get m = { s.meas.chan.get m with
      slip := if (s.finding s.meanSpeed m).isSome then 0 else s.slipStep s.meanSpeed m } := by
  rw [judgeChannels_eq]
  simp only [channels, List.foldl_cons, List.foldl_nil, judgeOne_values]
  fin_cases m <;> simp

end

end Sys2Proof.Machine
end

section
/-! PROOFS. Speeds, loads and slips at a boundary (R81, R90 to R96): the values of the hand-over and the findings of the first
pass, and what the boundary leaves of them. -/

namespace Sys2Proof.Machine

section

variable {s : State}

/-! ### Speed and load of a channel (R90, R92) -/

theorem speedOf_of_ne_zero (p : Int) {d : Int} (h : d ≠ 0) : speedOf p d = max (-300000) (min 300000 (p.tdiv d)) := by
  rw [speedOf, clamp_eq_max_min (by decide), truncDiv_of_ne_zero p h]

theorem loadOf_of_ne_zero {c : ChannelConfig} {loads T : Nat} (hT : T ≠ 0) (hf : c.f100 ≠ c.f0) :
    loadOf c (loadFrequency loads T)
      = max (-1000) (min 4000 (((((loads * 1000000 / T : Nat) : Int) - c.f0) * 1000).tdiv ((c.f100 : Int) - c.f0))) := by
  have hfrequency : loadFrequency loads T = ((loads * 1000000 / T : Nat) : Int) := by
    rw [loadFrequency, truncDiv_of_ne_zero _ (by exact_mod_cast hT)]
    exact_mod_cast (Int.ofNat_tdiv (loads * 1000000) T).symm
  have hspan : ((c.f100 : Int) - c.f0) ≠ 0 := by omega
  rw [loadOf, clamp_eq_max_min (by decide), truncDiv_of_ne_zero _ hspan, hfrequency]

theorem channelValues_of_disabled (T : Nat) {n : Channel} (h : s.chans.get n = .disabled) :
    s.channelValues T n = { ChannelValues.reset with slip := (s.meas.chan.get n).slip } := by
  simp [State.channelValues, State.sensed, h]

theorem channelValues_of_sensed (T : Nat) {n : Channel} (h : s.chans.get n ≠ .disabled) :
    s.channelValues T n =
      { method := ((s.counters.get n).speed (s.cfg.chan.get n).pulse T).1
        speed := some ((s.counters.get n).speed (s.cfg.chan.get n).pulse T).2
        load := some (loadOf (s.cfg.chan.get n) (loadFrequency (s.counters.get n).loads T)), share := none, deviation := none
        slip := (s.meas.chan.get n).slip } := by
  simp [State.channelValues, State.sensed, h]

theorem channelValues_slip (T : Nat) (n : Channel) : (s.channelValues T n).slip = (s.meas.chan.get n).slip := by
  by_cases h : s.chans.get n = .disabled
  · rw [channelValues_of_disabled T h]
  · rw [channelValues_of_sensed T h]

theorem speed_of_count {c : Counters} (pulse T : Nat) (h : 16 ≤ c.net.natAbs) :
    c.speed pulse T = (.count, speedOf (60 * c.net * pulse) T) := if_pos h

theorem speed_of_history {c : Counters} (pulse T : Nat) (h : c.net.natAbs < 16) :
    c.speed pulse T = match c.history with
      | .two older newer forward =>
        (.period, speedOf (if forward then 60 * pulse else -(60 * pulse)) (newer - older : Nat))
      | .one _ _ => (.start, 0)
      | .empty => (.stalled, 0) := if_neg (Nat.not_le.mpr h)

/-! ### What the reference finds (R93 to R96) -/

theorem isReversed_iff (ref : Int) (n : Channel) : s.isReversed ref n = true ↔
    s.chans.get n = .ready ∧ s.cfg.minSpeed < (s.channelSpeed n).natAbs ∧ s.cfg.minSpeed < ref.natAbs
      ∧ ¬(s.channelSpeed n < 0 ↔ ref < 0) := by
  simp only [State.isReversed, State.ready, Bool.and_eq_true, decide_eq_true_eq, bne_iff_ne, ne_eq, decide_eq_decide, and_assoc]

theorem isSlipping_iff {ref : Int} (h : ref ≠ 0) (n : Channel) : s.isSlipping ref n = true ↔
    (s.cfg.slipTolerance : Int) < (((s.channelSpeed n - ref).natAbs : Int) * 1000).tdiv ref.natAbs := by
  have hne : ((ref.natAbs : Nat) : Int) ≠ 0 := by omega
  rw [State.isSlipping, truncDiv_of_ne_zero _ hne, decide_eq_true_eq]

/-- A READY channel departs from a usable reference, and is not reversed against it. -/
def State.slipsFrom (s : State) (ref : Int) (n : Channel) : Prop :=
  s.chans.get n = .ready ∧ s.cfg.minSpeed ≤ ref.natAbs ∧ s.isReversed ref n = false ∧ s.isSlipping ref n = true

theorem slipStep_of_slips {ref : Int} {n : Channel} (hmean : s.meanSpeed = some ref) (h : s.slipsFrom ref n) :
    s.slipStep s.meanSpeed n = (s.meas.chan.get n).slip + 1 := by
  obtain ⟨hready, hspeed, hrev, hslip⟩ := h
  rw [hmean]
  simp [State.slipStep, State.ready, hready, hspeed, hrev, hslip]

theorem slipStep_of_not_slips {ref : Int} {n : Channel} (hmean : s.chans.get n = .ready → s.meanSpeed = some ref)
    (h : ¬s.slipsFrom ref n) : s.slipStep s.meanSpeed n = 0 := by
  by_cases hready : s.chans.get n = .ready
  · rw [hmean hready]
    refine if_neg fun hs => h ?_
    simp only [Bool.and_eq_true, Bool.not_eq_true', decide_eq_true_eq] at hs
    obtain ⟨⟨⟨-, hspeed⟩, hrev⟩, hslip⟩ := hs
    exact ⟨hready, hspeed, hrev, hslip⟩
  · unfold State.slipStep
    split
    · rfl
    · exact if_neg (by simp [State.ready, hready])

/-- Only a READY channel is found reversed or slipping. -/
theorem ready_of_finding {ref : Option Int} {n : Channel} {c : FaultCause} (h : s.finding ref n = some c) :
    s.chans.get n = .ready := by
  by_contra hn
  have hnotReady : s.ready n = false := by simp [State.ready, hn]
  have hrev : (ref.any fun r => s.isReversed r n) = false := by
    cases ref <;> simp [State.isReversed, hnotReady]
  have hstep : s.slipStep ref n = 0 := by
    cases ref <;> simp [State.slipStep, hnotReady]
  rw [State.finding, hrev, hstep] at h
  cases h

theorem finding_of_reversed {ref : Int} {n : Channel} (hmean : s.meanSpeed = some ref) (h : s.isReversed ref n = true) :
    s.finding s.meanSpeed n = some .reversed := by
  rw [hmean]
  exact if_pos h

/-- A channel that is not reversed is found slipping when its count reaches 3, and nothing is found against it before. -/
theorem finding_of_not_reversed {ref : Int} {n : Channel} (hmean : s.chans.get n = .ready → s.meanSpeed = some ref)
    (h : s.isReversed ref n = false) :
    s.finding s.meanSpeed n = if s.slipStep s.meanSpeed n = 3 then some .slip else none := by
  have hrev : (s.meanSpeed.any fun r => s.isReversed r n) = false := by
    by_cases hready : s.chans.get n = .ready
    · rw [hmean hready]; exact h
    · cases s.meanSpeed with
      | none => rfl
      | some r => simp [State.isReversed, State.ready, hready]
  exact if_neg (by simp [hrev])

/-! ### The boundary's channels (R81, R89) -/

/-- The state with the closing round's values handed over. -/
def State.handedOver (s : State) : State := s.dropAttempt.handOver (s.now - s.round.start)

theorem handedOver_values (s : State) (n : Channel) :
    s.handedOver.meas.chan.get n = s.channelValues (s.now - s.round.start) n := by
  show (Quad.ofFn (s.dropAttempt.channelValues (s.now - s.round.start))).get n = _
  rw [Quad.get_ofFn]
  have hcfg : s.dropAttempt.cfg = s.cfg := cfg_of_config (by simp)
  unfold State.channelValues State.sensed
  rw [dropAttempt_meas, dropAttempt_chans, dropAttempt_counters, hcfg]

theorem valued_eq (s : State) : s.valued = s.handedOver.judgeChannels.sectionValues := rfl

theorem takeBoundary_chans_get (s : State) (k : BoundaryKind) (n : BitVec 8) (m : Channel) :
    (s.takeBoundary k n).chans.get m
      = ((s.handedOver.finding s.handedOver.meanSpeed m).map ChannelState.faulted).getD (s.chans.get m) := by
  rw [takeBoundary_chans, measured_eq_judgeShares, judgeShares_chans, valued_eq, sectionValues_chans, judgeChannels_chans]
  simp [State.handedOver]

/-- The method, the speed, the load and the slip count of a channel as a boundary leaves them. -/
theorem takeBoundary_values (s : State) (k : BoundaryKind) (n : BitVec 8) (m : Channel) :
    ((s.takeBoundary k n).meas.chan.get m).method = (s.channelValues (s.now - s.round.start) m).method
      ∧ ((s.takeBoundary k n).meas.chan.get m).speed = (s.channelValues (s.now - s.round.start) m).speed
      ∧ ((s.takeBoundary k n).meas.chan.get m).load = (s.channelValues (s.now - s.round.start) m).load
      ∧ ((s.takeBoundary k n).meas.chan.get m).slip
        = if (s.handedOver.finding s.handedOver.meanSpeed m).isSome then 0
          else s.handedOver.slipStep s.handedOver.meanSpeed m := by
  have hsection : ∀ u : State, (u.sectionValues.meas.chan.get m).method = (u.meas.chan.get m).method
      ∧ (u.sectionValues.meas.chan.get m).speed = (u.meas.chan.get m).speed
      ∧ (u.sectionValues.meas.chan.get m).load = (u.meas.chan.get m).load
      ∧ (u.sectionValues.meas.chan.get m).slip = (u.meas.chan.get m).slip := fun u => by
    simp only [State.sectionValues, Quad.get_ofFn]
    split <;> exact ⟨rfl, rfl, rfl, rfl⟩
  obtain ⟨hmethod, hspeed, hload, hslip⟩ := hsection s.handedOver.judgeChannels
  rw [judgeChannels_values, ← valued_eq, handedOver_values] at hmethod hspeed hload hslip
  rw [takeBoundary_meas_eq]
  exact ⟨hmethod, hspeed, hload, hslip⟩

theorem takeBoundary_counters_get (s : State) (k : BoundaryKind) (n : BitVec 8) (m : Channel) :
    (s.takeBoundary k n).counters.get m = { s.counters.get m with net := 0, loads := 0 } := by
  have hcounters : (s.takeBoundary k n).counters = s.handedOver.counters := by
    simp [State.takeBoundary, State.sampled, State.linked, State.measured, State.measure, State.handedOver]
  rw [hcounters]
  show (Quad.ofFn fun n => { s.dropAttempt.counters.get n with net := 0, loads := 0 }).get m = _
  rw [Quad.get_ofFn, dropAttempt_counters]

/-- The check as a boundary leaves it is the one that the first pass left. -/
theorem takeBoundary_check (s : State) (k : BoundaryKind) (n : BitVec 8) :
    (s.takeBoundary k n).check = s.handedOver.judgeChannels.check := by
  simp [State.takeBoundary, State.sampled, State.linked, measured_eq_judgeShares, valued_eq]

/-- What the first pass has raised stands at the boundary's end. -/
theorem takeBoundary_raised_judged (s : State) (k : BoundaryKind) (n : BitVec 8) :
    Raised s.handedOver.judgeChannels.port (s.takeBoundary k n) := by
  refine Raised.trans ?_ (takeBoundary_raised_measured s k n)
  rw [measured_eq_judgeShares, valued_eq]
  simp

end

end Sys2Proof.Machine
end

section
/-! PROOFS. The channels at a boundary (R81, R89 to R96, R112): what the boundary's commands leave of each. -/

namespace Sys2Proof.Machine

section

variable {s : State}

theorem handedOver_frame (s : State) : s.handedOver.chans = s.chans ∧ s.handedOver.check = s.check ∧ s.handedOver.cfg = s.cfg
    ∧ s.handedOver.now = s.now := by
  refine ⟨?_, ?_, cfg_of_config ?_, ?_⟩ <;> simp [State.handedOver]

/-- The values of a channel that a boundary leaves, by its counters (R90, R92). -/
theorem values_of_boundary (s : State) (k : BoundaryKind) (m : BitVec 8) (n : Channel) :
    let T : Nat := s.now - s.round.start
    let c := s.counters.get n
    let h := s.cfg.chan.get n
    let v := (s.takeBoundary k m).meas.chan.get n
    let held := fun x : Int => max (-300000) (min 300000 x)
    (s.chans.get n = .disabled → v.method = .none ∧ v.speed = none ∧ v.load = none)
    ∧ (s.chans.get n ≠ .disabled →
        (16 ≤ c.net.natAbs → v.method = .count ∧ (T ≠ 0 → v.speed = some (held ((60 * c.net * h.pulse).tdiv T))))
        ∧ (∀ (o w : Nat) (f : Bool), c.net.natAbs < 16 → c.history = .two o w f →
            v.method = .period
              ∧ (w - o ≠ 0 →
                  v.speed = some (held (((if f then 60 else -60) * (h.pulse : Int)).tdiv ((w - o : Nat) : Int)))))
        ∧ (∀ (w : Nat) (f : Bool), c.net.natAbs < 16 → c.history = .one w f →
            v.method = .start ∧ v.speed = some 0)
        ∧ (c.net.natAbs < 16 → c.history = .empty → v.method = .stalled ∧ v.speed = some 0)
        ∧ (T ≠ 0 → h.f100 ≠ h.f0 →
            v.load = some (max (-1000) (min 4000
              (((((c.loads * 1000000 / T : Nat) : Int) - h.f0) * 1000).tdiv ((h.f100 : Int) - h.f0)))))) := by
  intro T c h v held
  obtain ⟨hmethod, hspeed, hload, -⟩ := takeBoundary_values s k m n
  refine ⟨fun hoff => ?_, fun hon => ?_⟩
  · rw [channelValues_of_disabled _ hoff] at hmethod hspeed hload
    exact ⟨hmethod, hspeed, hload⟩
  · rw [channelValues_of_sensed _ hon] at hmethod hspeed hload
    refine ⟨fun hcount => ?_, fun o w f hfew hhist => ?_, fun w f hfew hhist => ?_, fun hfew hhist => ?_, fun hT hf => ?_⟩
    · rw [speed_of_count _ _ hcount] at hmethod hspeed
      refine ⟨hmethod, fun hT => hspeed.trans (congrArg some (speedOf_of_ne_zero _ (by exact_mod_cast hT)))⟩
    · rw [speed_of_history _ _ hfew, show (s.counters.get n).history = .two o w f from hhist] at hmethod hspeed
      refine ⟨hmethod, fun hwo => hspeed.trans (congrArg some ?_)⟩
      dsimp only
      rw [speedOf_of_ne_zero _ (by exact_mod_cast hwo)]
      cases f
      · simp only [Bool.false_eq_true, if_false, Int.neg_mul]; rfl
      · rfl
    · rw [speed_of_history _ _ hfew, show (s.counters.get n).history = .one w f from hhist] at hmethod hspeed
      exact ⟨hmethod, hspeed⟩
    · rw [speed_of_history _ _ hfew, show (s.counters.get n).history = .empty from hhist] at hmethod hspeed
      exact ⟨hmethod, hspeed⟩
    · exact hload.trans (congrArg some (loadOf_of_ne_zero hT hf))

/-- What the reference of the channels that a boundary finds READY makes of each channel (R93 to R96). -/
theorem findings_of_boundary (s : State) (k : BoundaryKind) (m : BitVec 8) :
    let t := s.takeBoundary k m
    let found := channels.filter fun n => s.chans.get n = .ready
    let speed := fun n : Channel => (t.meas.chan.get n).speed.getD 0
    let ref : Int := ((found.map speed).sum).tdiv found.length
    let w := s.cfg.minSpeed
    ∀ n : Channel,
      let reversed := s.chans.get n = .ready ∧ w < (speed n).natAbs ∧ w < ref.natAbs ∧ ¬(speed n < 0 ↔ ref < 0)
      let slips := s.chans.get n = .ready ∧ w ≤ ref.natAbs ∧ ¬reversed
        ∧ (s.cfg.slipTolerance : Int) < (((speed n - ref).natAbs : Int) * 1000).tdiv ref.natAbs
      let slip := (t.meas.chan.get n).slip
      (reversed → t.chans.get n = .faulted .reversed ∧ slip = 0 ∧ t.hasEvent .channelFault = true)
      ∧ (ref ≠ 0 → slips → (s.meas.chan.get n).slip + 1 = 3 →
          t.chans.get n = .faulted .slip ∧ slip = 0 ∧ t.hasEvent .channelFault = true)
      ∧ (ref ≠ 0 → slips → (s.meas.chan.get n).slip + 1 ≠ 3 →
          t.chans.get n = s.chans.get n ∧ slip = (s.meas.chan.get n).slip + 1)
      ∧ (ref ≠ 0 ∨ 0 < w → ¬reversed → ¬slips → t.chans.get n = s.chans.get n ∧ slip = 0) := by
  intro t found speed ref w n reversed slips slip
  obtain ⟨hchans, -, hcfg, -⟩ := handedOver_frame s
  have hspeed : ∀ c, speed c = s.handedOver.channelSpeed c := fun c => by
    obtain ⟨-, h, -⟩ := takeBoundary_values s k m c
    simp only [speed, t, State.channelSpeed, h, handedOver_values]
  have hmean : s.chans.get n = .ready → s.handedOver.meanSpeed = some ref := fun hready => by
    have hfound : channels.filter s.handedOver.ready = found := by
      refine List.filter_congr fun c _ => ?_
      rw [State.ready, hchans]
    have hne : channels.filter s.handedOver.ready ≠ [] := by
      rw [hfound]
      exact List.ne_nil_of_mem (List.mem_filter.mpr ⟨mem_channels n, decide_eq_true hready⟩)
    rw [meanSpeed_of_ready hne, hfound, ← funext hspeed]
  have hmean' : s.handedOver.chans.get n = .ready → s.handedOver.meanSpeed = some ref := by rw [hchans]; exact hmean
  have hrev : s.handedOver.isReversed ref n = true ↔ reversed := by
    rw [isReversed_iff, hchans, hcfg, ← hspeed]
  have hslips : ref ≠ 0 → (s.handedOver.slipsFrom ref n ↔ slips) := fun href => by
    rw [State.slipsFrom, isSlipping_iff href, hchans, hcfg, ← hspeed, ← Bool.not_eq_true, hrev]
  have hcount : (s.handedOver.meas.chan.get n).slip = (s.meas.chan.get n).slip := by
    rw [handedOver_values, channelValues_slip]
  have hslip : slip = if (s.handedOver.finding s.handedOver.meanSpeed n).isSome then 0
      else s.handedOver.slipStep s.handedOver.meanSpeed n := (takeBoundary_values s k m n).2.2.2
  have hstate : t.chans.get n = ((s.handedOver.finding s.handedOver.meanSpeed n).map ChannelState.faulted).getD (s.chans.get n) :=
    takeBoundary_chans_get s k m n
  -- what is found against a channel latches it, with its count at 0 and CHANNEL_FAULT
  have hlatched : ∀ c, s.handedOver.finding s.handedOver.meanSpeed n = some c →
      t.chans.get n = .faulted c ∧ slip = 0 ∧ t.hasEvent .channelFault = true := fun c hc => by
    rw [hc] at hslip hstate
    refine ⟨hstate, hslip, (takeBoundary_raised_judged s k m).hasEvent ?_⟩
    rw [judgeChannels_eq]
    exact foldl_judgeOne_hasEvent _ (by rw [hc]; rfl) channels _ (mem_channels n)
  have hpassed : s.handedOver.finding s.handedOver.meanSpeed n = none →
      t.chans.get n = s.chans.get n ∧ slip = s.handedOver.slipStep s.handedOver.meanSpeed n := fun hnone => by
    rw [hnone] at hslip hstate
    exact ⟨hstate, hslip⟩
  refine ⟨fun hr => ?_, fun href hs hthree => ?_, fun href hs hnot => ?_, fun href hnr hns => ?_⟩
  · exact hlatched _ (finding_of_reversed (hmean hr.1) (hrev.mpr hr))
  · have hfrom := (hslips href).mpr hs
    have hstep := slipStep_of_slips (hmean hs.1) hfrom
    have hfinding := finding_of_not_reversed hmean' (Bool.eq_false_iff.mpr (mt hrev.mp hs.2.2.1))
    rw [if_pos (hstep.trans (by rw [hcount, hthree]))] at hfinding
    exact hlatched _ hfinding
  · have hfrom := (hslips href).mpr hs
    have hstep := slipStep_of_slips (hmean hs.1) hfrom
    have hfinding := finding_of_not_reversed hmean' (Bool.eq_false_iff.mpr (mt hrev.mp hs.2.2.1))
    rw [if_neg (by rw [hstep, hcount]; exact hnot)] at hfinding
    obtain ⟨hkept, hcounted⟩ := hpassed hfinding
    exact ⟨hkept, hcounted.trans (hstep.trans (by rw [hcount]))⟩
  · have hnot : ¬s.handedOver.slipsFrom ref n := fun hfrom => by
      by_cases h0 : ref = 0
      · obtain ⟨-, hspeed0, -⟩ := hfrom
        rw [hcfg, h0] at hspeed0
        have hpos : 0 < w := href.resolve_left (by simp [h0])
        simp only [Int.natAbs_zero] at hspeed0
        omega
      · exact hns ((hslips h0).mp hfrom)
    have hstep := slipStep_of_not_slips hmean' hnot
    have hfinding := finding_of_not_reversed hmean' (Bool.eq_false_iff.mpr (mt hrev.mp hnr))
    rw [if_neg (by rw [hstep]; decide)] at hfinding
    obtain ⟨hkept, hcounted⟩ := hpassed hfinding
    exact ⟨hkept, hcounted.trans hstep⟩

/-- The check at a boundary: it ends with the latching of its channel, and goes on otherwise (R112). -/
theorem check_of_boundary (s : State) (k : BoundaryKind) (m : BitVec 8) :
    (∀ n : Channel, s.check.channel = n → s.checkUnderWay = true → s.chans.get n = .ready →
        (s.takeBoundary k m).chans.get n ≠ .ready →
        (s.takeBoundary k m).check = s.channelEnded ∧ (s.takeBoundary k m).hasEvent .revCheckDone = true)
      ∧ (s.checkUnderWay = false ∨ (s.takeBoundary k m).chans.get s.check.channel = s.chans.get s.check.channel →
          (s.takeBoundary k m).check = s.check) := by
  obtain ⟨hchans, hcheck, -, hnow⟩ := handedOver_frame s
  have hway : s.handedOver.checkUnderWay = s.checkUnderWay := by rw [State.checkUnderWay, State.checkUnderWay, hcheck]
  have hended : s.handedOver.channelEnded = s.channelEnded := by
    rw [State.channelEnded, State.channelEnded, State.indexReading, State.indexReading, hcheck, hnow]
  have hfound : ∀ n c, s.handedOver.finding s.handedOver.meanSpeed n = some c →
      (s.takeBoundary k m).chans.get n = .faulted c := fun n c hc => by rw [takeBoundary_chans_get, hc]; rfl
  refine ⟨fun n hn hw hready hleft => ?_, fun h => ?_⟩
  · have hsome : (s.handedOver.finding s.handedOver.meanSpeed n).isSome = true := by
      by_contra hnone
      rw [Bool.not_eq_true, Option.isSome_eq_false_iff, Option.isNone_iff_eq_none] at hnone
      exact hleft (by rw [takeBoundary_chans_get, hnone]; exact hready)
    obtain ⟨hended', hevent⟩ := foldl_judgeOne_check_of_found (s := s.handedOver) s.handedOver.meanSpeed channels s.handedOver
      (by rw [hway]; exact hw) (mem_channels _) (by rw [hcheck, hn]; exact hsome)
    rw [takeBoundary_check, judgeChannels_eq, ← hended]
    exact ⟨hended', (takeBoundary_raised_judged s k m).hasEvent hevent⟩
  · rw [takeBoundary_check, judgeChannels_eq, foldl_judgeOne_check_of_other, hcheck]
    rw [hway, hcheck]
    refine h.imp_right fun hsame => .inr ?_
    cases hf : s.handedOver.finding s.handedOver.meanSpeed s.check.channel with
    | none => rfl
    | some c =>
      have hready := ready_of_finding hf
      rw [hchans] at hready
      rw [hfound _ c hf, hready] at hsame
      cases hsame

end

/-- Settles O38: the values, the findings and the check by the passes of the measurement; the row SLIP by its finding. -/
theorem slipLatchesTheChannel : Obligations.SlipLatchesTheChannel := by
  intro after b k m s a T hb
  set base := a.boundaryBase b with hbase
  have hT : base.now - base.round.start = T := by simp [hbase, a, T]
  have hcounters : base.counters = s.counters := by simp [hbase, a]
  have hchans : base.chans = s.chans := by simp [hbase, a]
  have hcfg : base.cfg = s.cfg := cfg_of_config (by simp [hbase, a])
  have hmeas : base.meas = s.meas := by simp [hbase, a]
  have hcheck : base.check = s.check := by simp [hbase, a]
  have hway : base.checkUnderWay = s.checkUnderWay := by rw [State.checkUnderWay, State.checkUnderWay, hcheck]
  have hended : base.channelEnded = { s.check with
      state := .done, verdict := .incomplete .channel, timer := .stopped a.indexReading } := by
    have hnow : base.now = a.now := by simp [hbase]
    have hacheck : a.check = s.check := advance_check s after
    rw [State.channelEnded, State.indexReading, State.indexReading, hcheck, hnow, hacheck]
  obtain ⟨hends, hgoes⟩ := check_of_boundary base k m
  rw [hway, hcheck, hchans, hended] at hends
  rw [hway, hcheck, hchans] at hgoes
  have hfindings := findings_of_boundary base k m
  simp only [hchans, hcfg, hmeas] at hfindings
  refine ⟨⟨_, exec_boundaryCommand_of hb, fun n => ?_, hends, hgoes, hfindings⟩, ?_⟩
  · have hvalues := values_of_boundary base k m n
    simp only [hT, hcounters, hchans, hcfg] at hvalues
    obtain ⟨hoff, hon⟩ := hvalues
    exact ⟨hoff, hon, by rw [← hbase, takeBoundary_counters_get, hcounters]⟩
  · intro n found hready hslip
    have hfound : base.handedOver = found := by rw [State.handedOver, hT]
    have hstate : (base.takeBoundary k m).chans.get n = .faulted .slip := by
      rw [takeBoundary_chans_get, hfound, hslip]; rfl
    have hcount : ((base.takeBoundary k m).meas.chan.get n).slip = 0 := by
      rw [(takeBoundary_values base k m n).2.2.2, hfound, hslip]; rfl
    refine ⟨_, exec_row_of hb rfl ?_, hstate, hcount, (takeBoundary_raised_judged base k m).hasEvent ?_, by simp⟩
    · have hnot : a.isFaulted n = false := by
        have : a.chans.get n = .ready := (congrArg (fun q : Quad ChannelState => q.get n) (advance_chans s after)).trans hready
        simp [State.isFaulted, this]
      have ha : s.advance after = a := rfl
      simp only [slipRow, ha, hnot, ← hbase, hstate]
      decide
    · rw [judgeChannels_eq, hfound]
      exact foldl_judgeOne_hasEvent _ (by rw [hslip]; rfl) channels _ (mem_channels n)

end Sys2Proof.Machine
end

section
/-! PROOFS. The draw (R118 to R125): the table of the reasons for which it is UNDEFINED, its value and its place, and the draw
alarm's step. -/

namespace Sys2Proof.Machine

section

variable {s : State}

/-! ### The reasons, in the order of the table (R119) -/

theorem speedUnusable_iff (w : BitVec 24) : speedUnusable w = true ↔ w = 0x800000#24 ∨ 300000 < w.toInt.natAbs := by
  have hrange : (!withinInt (-300000) 300000 w.toInt) = true ↔ 300000 < w.toInt.natAbs := by
    simp only [withinInt, Bool.not_eq_true', Bool.and_eq_false_iff, decide_eq_false_iff_not]
    omega
  rw [speedUnusable, Bool.or_eq_true, hrange]
  exact or_congr_left decide_eq_true_iff

/-- The reasons for which the draw is UNDEFINED, with their conditions. -/
def State.drawTable (s : State) : List (UndefinedReason × Prop) :=
  let upstream := fun P : Entry → Prop => ∃ u : Station, s.cfg.upstream = some u ∧ P (s.entry u)
  [ (.noUpstream, s.cfg.upstream = none), (.upstreamNotPresent, upstream fun e => e.presence ≠ .present),
    (.ownInvalid, s.meas.speed = none),
    (.upstreamInvalid, upstream fun e => e.report.speed = 0x800000#24 ∨ 300000 < e.report.speed.toInt.natAbs),
    (.upstreamSlow, upstream fun e => e.report.speed.toInt.natAbs < s.cfg.minSpeed) ]

/-- The draw's inputs with an upstream station, by the conditions of the table. -/
theorem drawInputs_of_upstream {u : Station} (hu : s.cfg.upstream = some u) : s.drawInputs =
    if (s.entry u).presence ≠ .present then .inl .upstreamNotPresent
    else
      match s.meas.speed with
      | none => .inl .ownInvalid
      | some own =>
        if (s.entry u).report.speed = 0x800000#24 ∨ 300000 < (s.entry u).report.speed.toInt.natAbs then .inl .upstreamInvalid
        else if (s.entry u).report.speed.toInt.natAbs < s.cfg.minSpeed then .inl .upstreamSlow
        else .inr (own, (s.entry u).report.speed.toInt) := by
  unfold State.drawInputs
  rw [hu]
  simp only [bne_iff_ne, speedUnusable_iff] <;> rfl

theorem drawTable_of_upstream {u : Station} (hu : s.cfg.upstream = some u) : s.drawTable =
    [ (.noUpstream, False), (.upstreamNotPresent, (s.entry u).presence ≠ .present), (.ownInvalid, s.meas.speed = none),
      (.upstreamInvalid, (s.entry u).report.speed = 0x800000#24 ∨ 300000 < (s.entry u).report.speed.toInt.natAbs),
      (.upstreamSlow, (s.entry u).report.speed.toInt.natAbs < s.cfg.minSpeed) ] := by
  simp [State.drawTable, hu]

open Classical in
/-- The first row of the table that holds is the reason for which the draw is UNDEFINED. -/
theorem find_drawTable (s : State) :
    (s.drawTable.find? fun y => y.2).map (fun y => (Sum.inl y.1 : UndefinedReason ⊕ (Int × Int)))
      = if s.drawInputs.isLeft then some s.drawInputs else none := by
  cases hu : s.cfg.upstream with
  | none =>
    have hinputs : s.drawInputs = .inl .noUpstream := by simp [State.drawInputs, hu]
    rw [hinputs, State.drawTable, List.find?_cons_of_pos (by simpa using hu)]
    rfl
  | some u =>
    rw [drawInputs_of_upstream hu, drawTable_of_upstream hu]
    by_cases hp : (s.entry u).presence = .present
    · cases hs : s.meas.speed with
      | none => simp [hp]
      | some own =>
        by_cases hv : (s.entry u).report.speed = 0x800000#24 ∨ 300000 < (s.entry u).report.speed.toInt.natAbs
        · simp [hp, hv]
        · by_cases hw : (s.entry u).report.speed.toInt.natAbs < s.cfg.minSpeed
          · simp [hp, hv, hw]
          · simp [hp, hv, hw]
    · simp [hp]

open Classical in
theorem drawInputs_of_first {earlier later : List (UndefinedReason × Prop)} {x : UndefinedReason × Prop}
    (ht : s.drawTable = earlier ++ x :: later) (hx : x.2) (hnone : ∀ y ∈ earlier, ¬y.2) : s.drawInputs = .inl x.1 := by
  have hfind : (s.drawTable.find? fun y => y.2) = some x := by
    rw [ht, List.find?_append, List.find?_eq_none.mpr (by simpa using hnone)]
    simp [hx]
  have h := find_drawTable s
  rw [hfind] at h
  split at h
  · exact (Option.some.inj h).symm
  · cases h

/-- Without a reason of the table the draw is DEFINED. -/
theorem drawInputs_of_none {u : Station} {own : Int} (hu : s.cfg.upstream = some u) (hown : s.meas.speed = some own)
    (hnone : ∀ y ∈ s.drawTable, ¬y.2) : s.drawInputs = .inr (own, (s.entry u).report.speed.toInt) := by
  rw [drawTable_of_upstream hu] at hnone
  simp only [List.forall_mem_cons] at hnone
  obtain ⟨-, hpresent, -, hvalid, hfast, -⟩ := hnone
  rw [drawInputs_of_upstream hu, if_neg hpresent, hown]
  dsimp only
  rw [if_neg hvalid, if_neg hfast]

/-! ### What the draw of a boundary leaves -/

theorem measureDraw_of_undefined {r : UndefinedReason} (h : s.drawInputs = .inl r) : s.measureDraw.draw =
    { s.draw with
      value := 0, state := .undefined r, hard := false, upSpeed := s.upstreamSeen.1, upMiss := s.upstreamSeen.2 } := by
  rw [State.measureDraw, h]

/-- The alarm's step of a boundary whose draw is `x`. -/
def State.drawAlarmAfter (s : State) (x : Int) : Bool × Nat × Nat :=
  alarmStep 2 s.draw.alarm s.draw.outRun s.draw.inRun (s.cfg.softPosition x != .inside)

theorem measureDraw_of_defined {own up : Int} (h : s.drawInputs = .inr (own, up)) : s.measureDraw.draw =
    { value := drawOf own up, state := .defined, position := s.cfg.softPosition (drawOf own up),
      hard := s.cfg.outsideHard (drawOf own up), alarm := (s.drawAlarmAfter (drawOf own up)).1,
      outRun := (s.drawAlarmAfter (drawOf own up)).2.1, inRun := (s.drawAlarmAfter (drawOf own up)).2.2,
      upSpeed := s.upstreamSeen.1, upMiss := s.upstreamSeen.2 } := by
  rw [State.measureDraw, h]
  exact raiseIf_draw ..

/-- DRAW_ALARM when the alarm's step sets it. -/
theorem measureDraw_hasEvent {own up : Int} (h : s.drawInputs = .inr (own, up)) (hclear : s.draw.alarm = false)
    (hset : (s.drawAlarmAfter (drawOf own up)).1 = true) : s.measureDraw.hasEvent .drawAlarm = true := by
  rw [State.measureDraw, h]
  refine hasEvent_raiseIf_iff.mpr (.inr ?_)
  rw [State.drawAlarmAfter] at hset
  rw [hset, hclear]
  rfl

/-- The upstream speed and miss count are taken whether the draw is DEFINED or not. -/
theorem measureDraw_seen (s : State) :
    s.measureDraw.draw.upSpeed = s.upstreamSeen.1 ∧ s.measureDraw.draw.upMiss = s.upstreamSeen.2 := by
  cases h : s.drawInputs with
  | inl r => rw [measureDraw_of_undefined h]; exact ⟨rfl, rfl⟩
  | inr p => rw [measureDraw_of_defined h]; exact ⟨rfl, rfl⟩

end

/-! ### The value and its place (R120, R122, R125) -/

theorem drawOf_of_ne_zero {own up : Int} (h : up ≠ 0) :
    drawOf own up = max (-3000) (min 3000 (((own - up) * 10000).tdiv up)) := by
  rw [drawOf, clamp_eq_max_min (by decide), truncDiv_of_ne_zero _ h]

theorem softPosition_low {c : ConfigRecord} {x : Int} (h : x < c.softLow) : c.softPosition x = .low := by
  rw [ConfigRecord.softPosition, if_pos h]

theorem softPosition_high {c : ConfigRecord} {x : Int} (hlow : c.softLow ≤ x) (hhigh : c.softHigh < x) :
    c.softPosition x = .high := by
  rw [ConfigRecord.softPosition, if_neg (by omega), if_pos hhigh]

theorem softPosition_inside {c : ConfigRecord} {x : Int} (h : c.softLow ≤ x ∧ x ≤ c.softHigh) : c.softPosition x = .inside := by
  rw [ConfigRecord.softPosition, if_neg (by omega), if_neg (by omega)]

theorem softPosition_outside {c : ConfigRecord} {x : Int} (h : ¬(c.softLow ≤ x ∧ x ≤ c.softHigh)) :
    (c.softPosition x != .inside) = true := by
  by_cases hlow : x < c.softLow
  · rw [softPosition_low hlow]; rfl
  · rw [softPosition_high (by omega) (by omega)]; rfl

theorem outsideHard_iff {c : ConfigRecord} {x : Int} : c.outsideHard x = true ↔ x < c.hardLow ∨ c.hardHigh < x := by
  simp [ConfigRecord.outsideHard]

/-- Settles O40: the reasons by the table, the values and the alarm by what the draw leaves of them, and the two rows by the
alarm's step. -/
theorem drawAlarmSteps : Obligations.DrawAlarmSteps := by
  intro after b k n s a linked upstream table hb
  set t := (a.boundaryBase b).takeBoundary k n with ht
  have hcfg : linked.cfg = s.cfg := cfg_of_config (by simp [linked, a])
  have hfound : linked.draw = s.draw := by simp [linked, a]
  have hdraw : t.draw = linked.measureDraw.draw := takeBoundary_draw ..
  have htable : linked.drawTable = table := by rw [State.drawTable, hcfg]; rfl
  have hrun : exec (boundaryCommand after b) s = .next t := exec_boundaryCommand_of hb
  have hseen := measureDraw_seen linked
  rw [← hdraw, State.upstreamSeen, hcfg] at hseen
  refine ⟨fun earlier later x hx => drawInputs_of_first (htable.trans hx), fun u own hu hown hnone => ?_,
    ⟨t, hrun, ?_, fun hu => ?_, fun u hu => ?_⟩, fun r hr => ?_, fun own up hin => ?_⟩
  · exact drawInputs_of_none (by rw [hcfg]; exact hu) hown (by rw [htable]; exact hnone)
  · rw [ht, takeBoundary_meas]
    simp [linked, State.linked]
  · rw [hu] at hseen
    exact hseen
  · rw [hu] at hseen
    exact hseen
  · have hafter := hdraw.trans (measureDraw_of_undefined hr)
    rw [hfound] at hafter
    exact ⟨t, hrun, by rw [hafter], by rw [hafter], by rw [hafter], by rw [hafter], by rw [hafter], by rw [hafter], by rw [hafter]⟩
  · intro v inside
    have hafter := hdraw.trans (measureDraw_of_defined hin)
    rw [hcfg] at hafter
    have hvalue : t.draw.value = v := by rw [hafter]
    have hstep : linked.drawAlarmAfter v =
        alarmStep 2 s.draw.alarm s.draw.outRun s.draw.inRun (s.cfg.softPosition v != .inside) := by
      rw [State.drawAlarmAfter, hfound, hcfg]
    have halarm : ∀ y, linked.drawAlarmAfter v = y → t.draw.alarm = y.1 ∧ t.draw.outRun = y.2.1 ∧ t.draw.inRun = y.2.2 := by
      rintro y rfl
      rw [hafter]
      exact ⟨rfl, rfl, rfl⟩
    have houtside : ¬inside → (s.cfg.softPosition v != .inside) = true := softPosition_outside
    have hinside : inside → (s.cfg.softPosition v != .inside) = false := fun h => by rw [softPosition_inside h]; rfl
    refine ⟨drawOf_of_ne_zero, ⟨t, hrun, hvalue, by rw [hafter], fun hlow => ?_, fun hi => ?_, fun hlow hhigh => ?_, ?_,
      fun hc ho hl => ?_, fun hc hi => ?_, fun hs hi hl => ?_, fun hs ho => ?_⟩, fun hc ho hl => ?_, fun hs hi hl => ?_⟩
    · rw [hafter]; exact softPosition_low hlow
    · rw [hafter]; exact softPosition_inside hi
    · rw [hafter]; exact softPosition_high hlow hhigh
    · rw [hafter]; exact outsideHard_iff
    · exact halarm _ (by rw [hstep, hc, houtside ho, alarmStep_clear_outside _ hl])
    · exact halarm _ (by rw [hstep, hc, hinside hi, alarmStep_clear_inside])
    · exact halarm _ (by rw [hstep, hs, hinside hi, alarmStep_set_inside _ hl])
    · exact halarm _ (by rw [hstep, hs, houtside ho, alarmStep_set_outside])
    · rw [hc, houtside ho, alarmStep_clear_outside_last _ hl] at hstep
      obtain ⟨hset, hruns⟩ := halarm _ hstep
      have hraised := measureDraw_hasEvent hin (hfound ▸ hc) (congrArg Prod.fst hstep)
      exact ⟨t, exec_row_of hb rfl (by simp [a, hc, ← ht, hset]), hset, hruns.1, hruns.2, hvalue,
        (takeBoundary_raised_draw (a.boundaryBase b) k n).hasEvent hraised⟩
    · rw [hs, hinside hi, alarmStep_set_inside_last _ hl] at hstep
      obtain ⟨hcleared, hruns⟩ := halarm _ hstep
      exact ⟨t, exec_row_of hb rfl (by simp [a, hs, ← ht, hcleared]), hcleared, hruns.1, hruns.2, hvalue⟩

end Sys2Proof.Machine
end

section
/-! PROOFS. What the Trial Controller reads at a boundary (R48 to R56, R66): the reports heard, and the first station, claim or
reason that decides. -/

namespace Sys2Proof.Machine

/-! ### The first of a list -/

section

variable {α : Type} {l : List α}

/-- In a list in rising order of a key, the first element with a property has the least key. -/
theorem find?_eq_some_iff_least {f : α → Station} {q : α → Bool} (hl : l.Pairwise fun x y => f x < f y) (a : α) :
    l.find? q = some a ↔ a ∈ l ∧ q a = true ∧ ∀ b ∈ l, q b = true → f a ≤ f b := by
  induction l with
  | nil => simp
  | cons x l ih =>
    obtain ⟨hx, hl⟩ := List.pairwise_cons.mp hl
    cases hq : q x with
    | true =>
      rw [List.find?_cons_of_pos hq, Option.some.injEq]
      constructor
      · rintro rfl
        exact ⟨List.mem_cons_self, hq, List.forall_mem_cons.mpr ⟨fun _ => le_rfl, fun b hb _ => (hx b hb).le⟩⟩
      · rintro ⟨ha, -, hleast⟩
        rcases List.mem_cons.mp ha with rfl | ha
        · rfl
        · exact absurd (hleast x List.mem_cons_self hq) (not_le.mpr (hx a ha))
    | false =>
      have hne : ∀ {b}, q b = true → b ≠ x := fun hb h => by rw [h, hq] at hb; cases hb
      rw [List.find?_cons_of_neg (by simp [hq]), ih hl]
      constructor
      · rintro ⟨ha, hqa, hleast⟩
        exact ⟨List.mem_cons_of_mem _ ha, hqa, List.forall_mem_cons.mpr ⟨fun h => absurd rfl (hne h), hleast⟩⟩
      · rintro ⟨ha, hqa, hleast⟩
        exact ⟨(List.mem_cons.mp ha).resolve_left (hne hqa), hqa, fun b hb => hleast b (List.mem_cons_of_mem _ hb)⟩

/-- A table of answers with their conditions answers with its first row that holds. -/
inductive FirstHolds : List (α × Prop) → Option α → Prop
  | none : FirstHolds [] none
  | here {r : α} {P : Prop} {table : List (α × Prop)} : P → FirstHolds ((r, P) :: table) (some r)
  | later {r : α} {P : Prop} {table : List (α × Prop)} {answer : Option α} :
      ¬P → FirstHolds table answer → FirstHolds ((r, P) :: table) answer

namespace FirstHolds

variable {table : List (α × Prop)} {answer : Option α}

/-- A row of the table by a test of the model. -/
theorem ite {c P : Prop} [Decidable c] (r : α) (hc : c ↔ P) (h : FirstHolds table answer) :
    FirstHolds ((r, P) :: table) (if c then some r else answer) := by
  by_cases hp : c
  · rw [if_pos hp]; exact here (hc.mp hp)
  · rw [if_neg hp]; exact later (mt hc.mpr hp) h

theorem eq_none (h : FirstHolds table answer) (hnone : ∀ x ∈ table, ¬x.2) : answer = .none := by
  induction h with
  | none => rfl
  | here hp => exact absurd hp (hnone _ List.mem_cons_self)
  | later _ _ ih => exact ih fun x hx => hnone x (List.mem_cons_of_mem _ hx)

theorem eq_some (h : FirstHolds table answer) {earlier later : List (α × Prop)} {x : α × Prop}
    (ht : table = earlier ++ x :: later) (hx : x.2) (hnone : ∀ y ∈ earlier, ¬y.2) : answer = some x.1 := by
  induction h generalizing earlier with
  | none => simp at ht
  | here hp =>
    cases earlier with
    | nil => cases (List.cons.inj ht).1; rfl
    | cons y earlier =>
      cases (List.cons.inj ht).1
      exact absurd hp (hnone _ List.mem_cons_self)
  | later hp _ ih =>
    cases earlier with
    | nil =>
      cases (List.cons.inj ht).1
      exact absurd hx hp
    | cons y earlier => exact ih (List.cons.inj ht).2 fun z hz => hnone z (List.mem_cons_of_mem _ hz)

/-- Conversely, the answer tells which rows hold. -/
theorem of_eq_none (h : FirstHolds table answer) (hn : answer = .none) : ∀ x ∈ table, ¬x.2 := by
  induction h with
  | none => simp
  | here _ => cases hn
  | later hp _ ih => exact List.forall_mem_cons.mpr ⟨hp, ih hn⟩

end FirstHolds

end

theorem stations_rising : stations.Pairwise (· < ·) := by decide

theorem mem_stations (u : Station) : u ∈ stations := by fin_cases u <;> simp [stations]

/-- The first station with a property is the lowest one. -/
theorem find?_stations {q : Station → Bool} {P : Station → Prop} (hq : ∀ u, q u = true ↔ P u) (u : Station) :
    stations.find? q = some u ↔ P u ∧ ∀ v : Station, v < u → ¬P v := by
  rw [find?_eq_some_iff_least (f := id) stations_rising]
  simp only [mem_stations, true_and, true_implies, hq, id]
  exact and_congr_right fun _ => forall_congr' fun v => ⟨fun h hv hp => absurd (h hp) (not_le.mpr hv),
    fun h hp => not_lt.mp fun hv => h hv hp⟩

theorem any_stations {q : Station → Bool} : stations.any q = true ↔ ∃ u : Station, q u = true := by
  simp only [List.any_eq_true, mem_stations, true_and]

theorem testBit_foldr_bit (l : List Bool) (i : Nat) : (l.foldr Nat.bit 0).testBit i = l.getD i false := by
  induction l generalizing i with
  | nil => simp
  | cons b l ih =>
    cases i with
    | zero => simp
    | succ i => simp [Nat.testBit_bit_succ, ih]

/-- The set of the stations that a rule chooses. -/
theorem stationSet_getLsbD (p : Station → Bool) (u : Station) : (stationSet p).getLsbD u.val = p u := by
  have hweight : ∀ (b : Bool) (w : Nat), (if b then w else 0) = w * b.toNat := fun b w => by cases b <;> simp
  have hsum : (stations.map fun t => if p t then 2 ^ t.val else 0).foldr (· + ·) 0 = (stations.map p).foldr Nat.bit 0 := by
    simp [stations, Nat.bit_val, hweight]
    omega
  rw [stationSet, hsum, BitVec.getLsbD_ofNat, testBit_foldr_bit, decide_eq_true u.isLt, Bool.true_and]
  fin_cases u <;> rfl

section

variable {d : State}

/-! ### The reports heard (R48) -/

/-- A report is heard when its sender's entry is PRESENT with miss count 0. -/
def State.hears (d : State) (u : Station) (r : Report) : Prop :=
  u ≠ d.station ∧ (d.entry u).presence = .present ∧ (d.entry u).miss = 0 ∧ (d.entry u).report = r

/-- A report heard is about the tracked trial, and of a phase. -/
def State.hearsFor (d : State) (u : Station) (ph : TrialPhase) (r : Report) : Prop :=
  d.hears u r ∧ r.phase = ph ∧ r.id = d.trial.id

theorem heard_eq_some_iff {u : Station} {r : Report} : d.heard u = some r ↔ d.hears u r := by
  simp [State.heard, State.hears, and_assoc]

theorem heardFor_eq_some_iff {ph : TrialPhase} {u : Station} {r : Report} : d.heardFor ph u = some r ↔ d.hearsFor u ph r := by
  simp [State.heardFor, State.hearsFor, Option.filter_eq_some_iff, heard_eq_some_iff]

theorem valid_iff {p : TrialParams} : p.valid = true ↔ p.kind ≠ .none ∧ p.spanFirst ≤ p.target ∧ p.target ≤ p.spanLast
    ∧ -127 ≤ p.step ∧ p.step ≤ 127 ∧ 1 ≤ p.duration ∧ p.duration ≤ 200
    ∧ (p.kind = .watch → p.step = 0 ∧ p.target = p.spanFirst) := by
  simp only [TrialParams.valid, Bool.and_eq_true, Bool.or_eq_true, decide_eq_true_eq, bne_iff_ne]
  constructor
  · rintro ⟨⟨⟨⟨⟨⟨⟨⟨hk, -⟩, hf⟩, hl⟩, hlo⟩, hhi⟩, hd⟩, hd'⟩, hw⟩
    exact ⟨hk, hf, hl, hlo, hhi, hd, hd', fun h => hw.resolve_left (not_not.mpr h)⟩
  · rintro ⟨hk, hf, hl, hlo, hhi, hd, hd', hw⟩
    exact ⟨⟨⟨⟨⟨⟨⟨⟨hk, hf.trans hl⟩, hf⟩, hl⟩, hlo⟩, hhi⟩, hd⟩, hd'⟩, (em (p.kind = .watch)).symm.imp_right hw⟩

theorem heardClaim_eq_some_iff {u : Station} {c : TrialId × TrialParams} :
    d.heardClaim u = some c ↔ ∃ r : Report, d.hears u r ∧ r.phase = .claim ∧ r.id.proposer = u
      ∧ c = (r.id, TrialParams.ofBytes r.params) ∧ c.2.valid = true := by
  unfold State.heardClaim
  cases hr : d.heard u with
  | none =>
    simp only [reduceCtorEq, false_iff, not_exists]
    rintro r ⟨h, -⟩
    rw [heard_eq_some_iff.mpr h] at hr
    cases hr
  | some r =>
    have hears : ∀ r', d.hears u r' ↔ r = r' := fun r' => by rw [← heard_eq_some_iff, hr, Option.some.injEq]
    simp only [hears, exists_eq_left', Option.ite_none_right_eq_some, Bool.and_eq_true, decide_eq_true_eq, Option.some.injEq]
    constructor
    · rintro ⟨⟨⟨hp, hv⟩, hu⟩, rfl⟩
      exact ⟨hp, hu, rfl, hv⟩
    · rintro ⟨hp, hu, rfl, hv⟩
      exact ⟨⟨⟨hp, hv⟩, hu⟩, rfl⟩

theorem mem_heardClaims_iff {c : TrialId × TrialParams} :
    c ∈ d.heardClaims ↔ ∃ (u : Station) (r : Report), d.hears u r ∧ r.phase = .claim ∧ r.id.proposer = u
      ∧ c = (r.id, TrialParams.ofBytes r.params) ∧ c.2.valid = true := by
  simp only [State.heardClaims, List.mem_filterMap, mem_stations, true_and, heardClaim_eq_some_iff]

theorem heardClaims_rising (d : State) : d.heardClaims.Pairwise fun x y => x.1.proposer < y.1.proposer := by
  rw [State.heardClaims, List.pairwise_filterMap]
  refine stations_rising.imp fun {u v} huv x hx y hy => ?_
  rw [(valid_of_heardClaim hx).2, (valid_of_heardClaim hy).2]
  exact huv

theorem replacement_eq_some_iff {c : TrialId × TrialParams} : d.replacement = some c ↔ c ∈ d.heardClaims
    ∧ (c.1.proposer < d.trial.id.proposer ∨ (c.1.proposer = d.trial.id.proposer ∧ c.1 ≠ d.trial.id))
    ∧ ∀ c' ∈ d.heardClaims,
        c'.1.proposer < d.trial.id.proposer ∨ (c'.1.proposer = d.trial.id.proposer ∧ c'.1 ≠ d.trial.id) →
        c.1.proposer ≤ c'.1.proposer := by
  rw [State.replacement, find?_eq_some_iff_least (f := fun c => c.1.proposer) (heardClaims_rising d)]
  simp only [Bool.or_eq_true, Bool.and_eq_true, decide_eq_true_eq, bne_iff_ne]

theorem heardGo_eq_some_iff {g : Report} : d.heardGo = some g ↔ d.hearsFor d.trial.id.proposer .go g
    ∧ g.params.a = d.trial.params.claimBytes.a ∧ g.params.b = d.trial.params.claimBytes.b
    ∧ g.params.c = d.trial.params.claimBytes.c := by
  simp only [State.heardGo, Option.filter_eq_some_iff, heardFor_eq_some_iff, Bool.and_eq_true, decide_eq_true_eq, and_assoc]
  rfl

theorem heardRun_iff : d.heardRun = true ↔ ∃ (u : Station) (r : Report), d.hearsFor u .run r := by
  simp only [State.heardRun, any_stations, Option.isSome_iff_exists, heardFor_eq_some_iff]

theorem heardAccept_iff {u : Station} : d.heardAccept u = true ↔
    ∃ r : Report, d.hearsFor u .accept r ∧ r.params = d.trial.params.claimBytes := by
  simp only [State.heardAccept, Option.any_eq_true, heardFor_eq_some_iff, decide_eq_true_eq]

/-! ### The ABORT reports heard (R57, R66) -/

theorem mem_heardAborts_iff {x : ParamBytes} : x ∈ d.heardAborts ↔ ∃ (u : Station) (r : Report), d.hearsFor u .abort r
    ∧ r.params = x ∧ (x.a = 1 ∨ x.a = 8 ∨ (13 ≤ x.a.toNat ∧ x.a.toNat ≤ 19)) := by
  have hdefined : ∀ b : Byte, definedCause b = true ↔ b = 1 ∨ b = 8 ∨ (13 ≤ b.toNat ∧ b.toNat ≤ 19) := fun b => by
    simp only [definedCause, Bool.or_eq_true, Bool.and_eq_true, decide_eq_true_eq, or_assoc]
  simp only [State.heardAborts, List.mem_filterMap, mem_stations, true_and, Option.map_eq_some_iff,
    Option.filter_eq_some_iff, heardFor_eq_some_iff, hdefined]
  refine exists_congr fun u => exists_congr fun r => ?_
  constructor
  · rintro ⟨⟨hr, hc⟩, rfl⟩
    exact ⟨hr, rfl, hc⟩
  · rintro ⟨hr, rfl, hc⟩
    exact ⟨⟨hr, hc⟩, rfl⟩

theorem heardWithdrawal_iff : d.heardWithdrawal = true ↔ ∃ x ∈ d.heardAborts, x.a = Reason.withdrawn.code := by
  simp only [State.heardWithdrawal, List.any_eq_true, decide_eq_true_eq]

/-- Of two ABORT reports the one of the lower origin, and the later one only when its origin is lower. -/
def lowerOrigin (p : ParamBytes) (best : Option ParamBytes) : Option ParamBytes :=
  match best with
  | none => some p
  | some q => if lowerNibble q.b < lowerNibble p.b then some q else some p

theorem heardAbort_eq (d : State) : d.heardAbort =
    (d.heardAborts.filter fun p => p.a != Reason.withdrawn.code).foldr lowerOrigin none := rfl

theorem foldr_lowerOrigin_eq_none_iff {l : List ParamBytes} : l.foldr lowerOrigin none = none ↔ l = [] := by
  cases l with
  | nil => simp
  | cons p l =>
    simp only [List.foldr_cons, reduceCtorEq, iff_false]
    unfold lowerOrigin
    (repeat' split) <;> simp

theorem foldr_lowerOrigin_least {l : List ParamBytes} {x : ParamBytes} (h : l.foldr lowerOrigin none = some x) :
    x ∈ l ∧ ∀ y ∈ l, lowerNibble x.b ≤ lowerNibble y.b := by
  induction l generalizing x with
  | nil => cases h
  | cons p l ih =>
    rw [List.foldr_cons] at h
    cases hl : l.foldr lowerOrigin none with
    | none =>
      rw [hl] at h
      cases h
      rw [foldr_lowerOrigin_eq_none_iff.mp hl]
      simp
    | some q =>
      obtain ⟨hq, hleast⟩ := ih hl
      rw [hl, lowerOrigin] at h
      split at h
      · next hlt =>
        cases h
        exact ⟨List.mem_cons_of_mem _ hq, List.forall_mem_cons.mpr ⟨hlt.le, hleast⟩⟩
      · next hge =>
        cases h
        exact ⟨List.mem_cons_self, List.forall_mem_cons.mpr ⟨le_rfl, fun y hy => (not_lt.mp hge).trans (hleast y hy)⟩⟩

theorem heardAbort_eq_none_iff : d.heardAbort = none ↔ ∀ x ∈ d.heardAborts, x.a = Reason.withdrawn.code := by
  rw [heardAbort_eq, foldr_lowerOrigin_eq_none_iff, List.filter_eq_nil_iff]
  simp only [bne_iff_ne, not_not]

theorem heardAbort_least {x : ParamBytes} (h : d.heardAbort = some x) : x ∈ d.heardAborts ∧ x.a ≠ Reason.withdrawn.code
    ∧ ∀ y ∈ d.heardAborts, y.a ≠ Reason.withdrawn.code → lowerNibble x.b ≤ lowerNibble y.b := by
  obtain ⟨hx, hleast⟩ := foldr_lowerOrigin_least (heardAbort_eq d ▸ h)
  simp only [List.mem_filter, bne_iff_ne] at hx hleast
  exact ⟨hx.1, hx.2, fun y hy hne => hleast y ⟨hy, hne⟩⟩

/-! ### The stations of the required set (R56) -/

theorem requiredLost_eq_some_iff (u : Station) : d.requiredLost = some u ↔
    (d.trial.required.getLsbD u.val = true ∧ (d.entry u).presence ≠ .present)
      ∧ ∀ v : Station, v < u → ¬(d.trial.required.getLsbD v.val = true ∧ (d.entry v).presence ≠ .present) :=
  find?_stations (q := fun v => member d.trial.required v && (d.entry v).presence != .present)
    (P := fun v => d.trial.required.getLsbD v.val = true ∧ (d.entry v).presence ≠ .present)
    (fun v => by simp only [member, Bool.and_eq_true, bne_iff_ne]) u

theorem unaccepted_eq_some_iff (u : Station) : d.unaccepted = some u ↔
    (d.trial.required.getLsbD u.val = true ∧ d.trial.accepted.getLsbD u.val = false)
      ∧ ∀ v : Station, v < u → ¬(d.trial.required.getLsbD v.val = true ∧ d.trial.accepted.getLsbD v.val = false) :=
  find?_stations (q := fun v => member d.trial.required v && !member d.trial.accepted v)
    (P := fun v => d.trial.required.getLsbD v.val = true ∧ d.trial.accepted.getLsbD v.val = false)
    (fun v => by simp only [member, Bool.and_eq_true, Bool.not_eq_true']) u

/-- A required station's REFUSE for the tracked trial. -/
def State.refusalOf (d : State) (t : Station) : Option (Station × Byte) :=
  if member d.trial.required t then (d.heardFor .refuse t).map fun r => (t, r.params.a) else none

theorem refusalOf_eq_some_iff {t u : Station} {code : Byte} : d.refusalOf t = some (u, code) ↔
    (d.trial.required.getLsbD t.val = true ∧ ∃ r : Report, d.hearsFor t .refuse r) ∧ t = u
      ∧ code = (d.entry t).report.params.a := by
  have hreport : ∀ {r}, d.hearsFor t .refuse r → (d.entry t).report = r := fun h => h.1.2.2.2
  rw [State.refusalOf, Option.ite_none_right_eq_some, Option.map_eq_some_iff, member]
  simp only [heardFor_eq_some_iff, Prod.mk.injEq]
  constructor
  · rintro ⟨hm, r, hr, rfl, rfl⟩
    exact ⟨⟨hm, r, hr⟩, rfl, by rw [hreport hr]⟩
  · rintro ⟨⟨hm, r, hr⟩, rfl, rfl⟩
    exact ⟨hm, r, hr, rfl, by rw [hreport hr]⟩

theorem findSome?_eq_find?_bind {α β : Type} (f : α → Option β) (l : List α) :
    l.findSome? f = (l.find? fun x => (f x).isSome).bind f := by
  induction l with
  | nil => rfl
  | cons x l ih =>
    rw [List.findSome?_cons]
    cases hx : f x with
    | none => rw [List.find?_cons_of_neg (by simp [hx]), ih]
    | some y => rw [List.find?_cons_of_pos (by simp [hx])]; exact hx.symm

theorem heardRefusal_eq_some_iff (u : Station) (code : Byte) : d.heardRefusal = some (u, code) ↔
    ((d.trial.required.getLsbD u.val = true ∧ ∃ r : Report, d.hearsFor u .refuse r)
      ∧ ∀ v : Station, v < u → ¬(d.trial.required.getLsbD v.val = true ∧ ∃ r : Report, d.hearsFor v .refuse r))
      ∧ code = (d.entry u).report.params.a := by
  have hrefuses : ∀ v, (d.refusalOf v).isSome = true ↔
      d.trial.required.getLsbD v.val = true ∧ ∃ r : Report, d.hearsFor v .refuse r := fun v => by
    rw [Option.isSome_iff_exists]
    constructor
    · rintro ⟨⟨w, c⟩, h⟩
      exact (refusalOf_eq_some_iff.mp h).1
    · exact fun h => ⟨(v, _), refusalOf_eq_some_iff.mpr ⟨h, rfl, rfl⟩⟩
  have heq : d.heardRefusal = (stations.find? fun v => (d.refusalOf v).isSome).bind d.refusalOf :=
    findSome?_eq_find?_bind d.refusalOf stations
  rw [heq, Option.bind_eq_some_iff, ← find?_stations hrefuses u]
  constructor
  · rintro ⟨v, hv, h⟩
    obtain ⟨-, rfl, hc⟩ := refusalOf_eq_some_iff.mp h
    exact ⟨hv, hc⟩
  · rintro ⟨hv, hc⟩
    exact ⟨u, hv, refusalOf_eq_some_iff.mpr ⟨((find?_stations hrefuses u).mp hv).1, rfl, hc⟩⟩

theorem isMember_iff : d.isMember = true ↔ d.trial.params.spanFirst ≤ d.station ∧ d.station ≤ d.trial.params.spanLast := by
  simp only [State.isMember, TrialParams.inSpan, Bool.and_eq_true, decide_eq_true_eq]

theorem nowAccepted_getLsbD_iff (u : Station) : d.nowAccepted.getLsbD u.val = true ↔ d.trial.accepted.getLsbD u.val = true
    ∨ (d.trial.required.getLsbD u.val = true
        ∧ ((∃ r : Report, d.hearsFor u .accept r ∧ r.params = d.trial.params.claimBytes)
            ∨ (u = d.station ∧ d.isMember = true))) := by
  simp only [State.nowAccepted, BitVec.getLsbD_or, stationSet_getLsbD, member, Bool.or_eq_true, Bool.and_eq_true,
    heardAccept_iff, decide_eq_true_eq]

/-! ### The first reason against a trial (R49, R50, R52, R56) -/

/-- Another station's PRESENT entry reports GO or RUN, for a trial with a property. -/
def State.busyFor (d : State) (P : TrialId → Prop) (u : Station) : Prop :=
  u ≠ d.station ∧ (d.entry u).presence = .present ∧ ((d.entry u).report.phase = .go ∨ (d.entry u).report.phase = .run)
    ∧ P (d.entry u).report.id

theorem busyAt_iff {q : TrialId → Bool} {P : TrialId → Prop} (hq : ∀ i, q i = true ↔ P i) (u : Station) :
    d.busyAt q u = true ↔ d.busyFor P u := by
  simp only [State.busyAt, State.busyFor, Bool.and_eq_true, Bool.or_eq_true, decide_eq_true_eq, bne_iff_ne, hq, and_assoc]

theorem busyStation_eq_some_iff (u : Station) : d.busyStation = some u ↔
    d.busyFor (fun _ => True) u ∧ ∀ v : Station, v < u → ¬d.busyFor (fun _ => True) v :=
  find?_stations (busyAt_iff (by simp)) u

theorem otherTrial_iff : d.otherTrial = true ↔ ∃ u : Station, d.busyFor (fun i => i ≠ d.trial.id) u := by
  rw [State.otherTrial, any_stations]
  exact exists_congr fun u => busyAt_iff (by simp) u

theorem breakInForce_iff : d.breakInForce = true ↔ d.brk.latch = true ∨ d.brk.mark = true := by
  rw [State.breakInForce, Bool.or_eq_true]

theorem ready_eq_decide (d : State) (m : Channel) : d.ready m = decide (d.chans.get m = .ready) := rfl

/-- The rows of the eligibility table that a proposer outside its span is judged on. -/
def State.brkOrBusy (d : State) : List (Reason × Prop) :=
  [ (.brk, d.brk.latch = true ∨ d.brk.mark = true), (.busy, ∃ u : Station, d.busyFor (fun i => i ≠ d.trial.id) u) ]

/-- The eligibility table, for the applied section trim that is judged. -/
def State.eligibility (d : State) (applied : Int) : List (Reason × Prop) :=
  let p := d.trial.params
  let readyCount := (channels.filter fun m => Decidable.decide (d.chans.get m = .ready)).length
  d.brkOrBusy ++
    [ (.drives, (∃ (m : Channel) (f : FaultCause), d.chans.get m = .faulted f) ∨ readyCount = 0
        ∨ (p.kind = .shareStep ∧ p.target = d.station ∧ (d.chans.get p.drive ≠ .ready ∨ readyCount < 2))),
      (.notNeutral, d.trim.manual ≠ 0 ∨ applied ≠ 0),
      (.logSpace, 256 - d.log.records.length < 8 + p.duration + 1), (.draw, d.draw.alarm = true),
      (.invalid, p.target = d.station ∧ ((p.kind = .drawStep ∧ d.cfg.trimLimit < p.step.natAbs)
        ∨ (p.kind = .shareStep ∧ d.cfg.shareTrimLimit < p.step.natAbs))) ]

theorem ineligible_first (d : State) (applied : Int) : FirstHolds (d.eligibility applied) (d.ineligible applied) := by
  refine .ite _ breakInForce_iff (.ite _ otherTrial_iff (.ite _ ?_ (.ite _ ?_ (.ite _ Iff.rfl (.ite _ Iff.rfl
    (.ite _ ?_ .none))))))
  · simp only [State.drivesUnfit, Bool.or_eq_true, Bool.and_eq_true, decide_eq_true_eq, anyFaulted_iff, Bool.not_eq_true',
      or_assoc, and_assoc, ready_eq_decide, decide_eq_false_iff_not]
    rfl
  · simp only [Bool.or_eq_true, bne_iff_ne]
  · simp only [State.stepUnfit, Bool.and_eq_true, Bool.or_eq_true, decide_eq_true_eq]

theorem proposerUnfit_first (d : State) :
    FirstHolds (if d.isMember then d.eligibility d.rampedTrim else d.brkOrBusy) d.proposerUnfit := by
  unfold State.proposerUnfit
  cases d.isMember with
  | true => exact ineligible_first d d.rampedTrim
  | false => exact .ite _ breakInForce_iff (.ite _ otherTrial_iff .none)

end

end Sys2Proof.Machine
end

section
/-! PROOFS. What a boundary makes of the controller's decision, and the claim boundary of a pending proposal (R50). -/

namespace Sys2Proof.Machine

/-! ### The decision and the state that the boundary leaves -/

/-- What a boundary leaves of the state `e` that the controller decided on, for a record that it did not find RECOVERING: the
decision stands, and the report is built on it after the ramp (R31, R47, R141). -/
structure Decided (e t : State) : Prop where
  trial : t.trial = e.trial
  lastOutcome : t.lastOutcome = e.lastOutcome
  log : t.log = e.log
  chans : t.chans = e.chans
  draw : t.draw = e.draw
  raised : Raised e.port t
  logClosed : t.hasEvent .logClosed = e.hasEvent .logClosed
  manual : t.trim.manual = e.trim.manual
  trialTarget : t.trim.trialTarget = e.trim.trialTarget
  shiftTarget : t.trim.shiftTarget = e.trim.shiftTarget
  drive : t.trim.drive = e.trim.drive
  cls : t.trim.cls = e.trim.cls
  applied : t.trim.applied = e.rampTrims.trim.applied
  station : t.station = e.station
  entry : ∀ u : Station, u ≠ e.station → t.entry u = e.entry u ∨ (t.entry u).presence = .absent
  reported : (t.ownReport.phase, t.ownReport.id, t.ownReport.params) = e.rampTrims.trialFields

theorem setEntry_entry_of_ne {s : State} {u v : Station} (h : u ≠ v) (x : Entry) : (s.setEntry v x).entry u = s.entry u := by
  have hne : v.val ≠ u.val := fun he => h (Fin.ext he).symm
  simp [State.entry, State.setEntry, List.getD_eq_getElem?_getD, List.getElem?_set_ne hne]

/-- Another station's entry as a boundary leaves it: as the controller saw it, or cleared with the roster. -/
theorem takeBoundary_entry_of_other {s : State} (k : BoundaryKind) (n : BitVec 8) {u : Station} (hu : u ≠ s.station) :
    (s.takeBoundary k n).entry u = (s.sampled k n).entry u ∨ ((s.takeBoundary k n).entry u).presence = .absent := by
  by_cases h : s.leavesAt k
  · right
    rw [takeBoundary_entry_of_left n u h.1 h.2]
    rfl
  · left
    have hlink : ¬((s.measured.linkStep k).link.state = .leaving ∧ (s.measured.linkStep k).link.leave = .sent) := h
    have hroster : (s.sampled k n).trialAndTrims.roster = (s.sampled k n).roster := by simp
    rw [State.takeBoundary, entry_congr (clearBreakMark_roster _), State.endLeave, if_neg (by simpa using hlink),
      State.enterOwnEntry]
    split
    · rw [State.writeOwnEntry, setEntry_entry_of_ne (by simpa using hu)]
      exact entry_congr hroster u
    · exact entry_congr hroster u

theorem decided_of_boundary {a : State} (b : BoundaryEvent) (k : BoundaryKind) (n : BitVec 8)
    (h : a.trial.phase ≠ .recovering) :
    Decided (a.decisionAt b k n).decidePhase ((a.boundaryBase b).takeBoundary k n) := by
  have hbase : (a.boundaryBase b).trial.phase ≠ .recovering := by rwa [boundaryBase_trial]
  have hsampled : ((a.boundaryBase b).sampled k n).trial.phase ≠ .recovering := by rwa [sampled_trial]
  have htrim := takeBoundary_trim (a.boundaryBase b) k n
  have hreported : (a.boundaryBase b).reported k n = ((a.boundaryBase b).sampled k n).decide.rampTrims := by
    rw [State.reported, decide_eq_false hsampled]; rfl
  have hreport := takeBoundary_ownReport_eq (a.boundaryBase b) k n
  rw [hreported] at hreport
  rw [← decide_eq_decisionAt]
  exact {
    trial := takeBoundary_trial_of_not_recovering k n hbase
    lastOutcome := takeBoundary_lastOutcome _ k n
    log := takeBoundary_log _ k n
    chans := by rw [takeBoundary_chans]; simp [State.sampled, State.linked]
    draw := by rw [takeBoundary_draw]; simp [State.sampled]
    raised := takeBoundary_raised_decide _ k n
    logClosed := takeBoundary_logClosed k n hbase
    manual := by rw [htrim]; rfl
    trialTarget := by rw [htrim]; rfl
    shiftTarget := by rw [htrim]; rfl
    drive := by rw [htrim]; rfl
    cls := by rw [htrim]; rfl
    applied := by rw [htrim]
    station := by simp [State.decide]
    entry := fun u hu => by
      have hentry : ((a.boundaryBase b).sampled k n).decide.entry u = ((a.boundaryBase b).sampled k n).entry u :=
        entry_congr (by simp [State.decide]) u
      rw [hentry]
      exact takeBoundary_entry_of_other k n (by simpa [State.decide] using hu)
    reported := by rw [hreport] }

namespace Decided

variable {e t : State}

theorem hasEvent (h : Decided e t) {v : Event} (hv : e.hasEvent v = true) : t.hasEvent v = true := h.raised.hasEvent hv

/-- The report's trial fields, where the record alone gives them. -/
theorem fields (h : Decided e t) {f : TrialPhase × TrialId × ParamBytes} (hf : e.rampTrims.trialFields = f) :
    t.ownReport.phase = f.1 ∧ t.ownReport.id = f.2.1 ∧ t.ownReport.params = f.2.2 := by
  have hreported := h.reported.trans hf
  exact ⟨congrArg Prod.fst hreported, congrArg (fun x => x.2.1) hreported, congrArg (fun x => x.2.2) hreported⟩

end Decided

/-- The record on which a boundary decides, in one line. -/
theorem decisionAt_trial_eq (s : State) (b : BoundaryEvent) (k : BoundaryKind) (n : BitVec 8) :
    (s.decisionAt b k n).trial = { s.trial with
      linkCloseOwed := false, count := if s.trial.phase = .idle then s.trial.count else s.trial.count + 1 } := by
  rw [decisionAt_trial]
  split <;> rfl

/-! ### The claim boundary (R50) -/

section

variable {d : State} {id : TrialId} {p : TrialParams}

theorem claimBoundary_lost {c : TrialId × TrialParams}
    (hc : (d.heardClaims.find? fun c => c.1.proposer < d.station) = some c) :
    d.claimBoundary id p = (State.writeOutcome { d with trial := .empty } .lost id 0 c.1.proposer).adopt c := by
  rw [State.claimBoundary, hc]

theorem claimBoundary_busy (hc : (d.heardClaims.find? fun c => c.1.proposer < d.station) = none) {u : Station}
    (hu : d.busyStation = some u) :
    d.claimBoundary id p = State.writeOutcome { d with trial := .empty } .withdrawn id Reason.busy.code u := by
  rw [State.claimBoundary, hc, hu]

theorem claimBoundary_absent (hc : (d.heardClaims.find? fun c => c.1.proposer < d.station) = none)
    (hb : d.busyStation = none) (hp : (d.entry p.target).presence = .absent) :
    d.claimBoundary id p =
      State.writeOutcome { d with trial := .empty } .withdrawn id Reason.targetAbsent.code p.target := by
  rw [State.claimBoundary, hc, hb]
  exact if_pos hp

theorem claimBoundary_proposes (hc : (d.heardClaims.find? fun c => c.1.proposer < d.station) = none)
    (hb : d.busyStation = none) (hp : (d.entry p.target).presence ≠ .absent) :
    d.claimBoundary id p = d.beginProposal id p := by
  rw [State.claimBoundary, hc, hb]
  exact if_neg hp

theorem hasEvent_adopt (s : State) (c : TrialId × TrialParams) : (s.adopt c).hasEvent .claimSeen = true := hasEvent_raise _ _

theorem hasEvent_adopt_of_ne {s : State} {e : Event} (he : e ≠ .claimSeen) (c : TrialId × TrialParams)
    (h : s.hasEvent e = true) : (s.adopt c).hasEvent e = true := by
  rw [State.adopt, hasEvent_raise_of_ne _ he.symm]
  exact h

end

/-- Settles O41: what the controller reads by the lemma of each reading; the claim boundary by its four branches. -/
theorem claimBoundaryWeighsTheProposal : Obligations.ClaimBoundaryWeighsTheProposal := by
  refine ⟨fun d => ?_, fun b k n s => ?_, ?_⟩
  · refine ⟨fun c => ?_, heardClaims_rising d, fun c => replacement_eq_some_iff, fun g => heardGo_eq_some_iff, heardRun_iff,
      fun x => mem_heardAborts_iff, heardWithdrawal_iff, heardAbort_eq_none_iff, fun x => heardAbort_least,
      heardRefusal_eq_some_iff, requiredLost_eq_some_iff, unaccepted_eq_some_iff, nowAccepted_getLsbD_iff,
      busyStation_eq_some_iff, isMember_iff, fun applied => ?_, ?_⟩
    · rw [mem_heardClaims_iff]
      simp only [valid_iff]
      rfl
    · exact ⟨(ineligible_first d applied).eq_none, fun _ _ _ ht hx => (ineligible_first d applied).eq_some ht hx⟩
    · exact ⟨(proposerUnfit_first d).eq_none, fun _ _ _ ht hx => (proposerUnfit_first d).eq_some ht hx⟩
  · exact ⟨by simp, by simp, by simp, by simp, decisionAt_trial_eq s b k n⟩
  · intro after b k n id p s a d hb hphase hrequest _
    set t := (a.boundaryBase b).takeBoundary k n with ht
    have htrial : a.trial = s.trial := advance_trial s after
    have hstation : d.station = s.station := by simp [d, a]
    have hdphase : d.trial.phase = .idle := by rw [decisionAt_trial_eq, htrial]; exact hphase
    have hdrequest : d.trial.request = .propose id p := by rw [decisionAt_trial_eq, htrial]; exact hrequest
    have hstep : d.decidePhase = d.claimBoundary id p := by
      rw [State.decidePhase, hdphase]
      dsimp only
      rw [State.idleStep, hdrequest]
    have hdecided : Decided (d.claimBoundary id p) t := hstep ▸ decided_of_boundary b k n (by rw [htrial, hphase]; simp)
    have hrun : exec (.claimBoundary after b) s = .next t :=
      exec_row_of hb rfl (by simp [hphase, hrequest, PendingRequest.isPropose])
    rw [← hstation]
    refine ⟨fun c hc => ?_, fun hc u hu => ?_, fun hc hu hp => ?_, fun hc hu hp => ?_⟩
    · rw [claimBoundary_lost hc] at hdecided
      exact ⟨t, hrun, by rw [hdecided.trial]; rfl, by rw [hdecided.trial]; rfl, by rw [hdecided.trial]; rfl,
        by rw [hdecided.trial]; rfl, hdecided.lastOutcome,
        hdecided.hasEvent (hasEvent_adopt_of_ne (by decide) c (hasEvent_writeOutcome _ _ _ _ _)),
        hdecided.hasEvent (hasEvent_adopt _ _)⟩
    · rw [claimBoundary_busy hc hu] at hdecided
      exact ⟨t, hrun, hdecided.trial, hdecided.lastOutcome, hdecided.hasEvent (hasEvent_writeOutcome _ _ _ _ _)⟩
    · rw [claimBoundary_absent hc hu hp] at hdecided
      exact ⟨t, hrun, hdecided.trial, hdecided.lastOutcome, hdecided.hasEvent (hasEvent_writeOutcome _ _ _ _ _)⟩
    · rw [claimBoundary_proposes hc hu hp] at hdecided
      obtain ⟨hreport, hid, hparams⟩ := hdecided.fields (trialFields_of_proposing rfl)
      exact ⟨t, hrun, by rw [hdecided.trial]; rfl, by rw [hdecided.trial]; rfl, by rw [hdecided.trial]; rfl,
        by rw [hdecided.trial]; rfl, by rw [hdecided.trial]; rfl, by rw [hdecided.trial]; rfl, by rw [hdecided.trial]; rfl,
        by rw [hdecided.trial]; rfl, hreport, hid, hparams⟩

end Sys2Proof.Machine
end

section
/-! PROOFS. The start of a trial (R60): the ring moved into the log, and the step presented at the target. -/

namespace Sys2Proof.Machine

section

variable {s : State}

/-! ### The ring in the log (R160) -/

/-- The record that a sample of the ring becomes. -/
def preRecord (id : TrialId) (seq : BitVec 16) (m : Sample) : LogRecord :=
  { seq := seq, type := .pre, id := id, sample := m, outcome := .none, cause := 0, origin := 0 }

/-- Samples appended with room for them all stand in their order under consecutive numbers. -/
theorem foldl_appendRecord_pre (id : TrialId) (c : BitVec 16) (l : List Sample) :
    ∀ (t : State) (j : Nat), t.log.records.length + l.length ≤ 256 → t.log.counter = c + BitVec.ofNat 16 j →
      (l.foldl (fun t m => t.appendRecord .pre id m .none 0 0) t).log.records
          = t.log.records ++ (l.zipIdx j).map (fun m => preRecord id (c + BitVec.ofNat 16 m.2) m.1)
        ∧ (l.foldl (fun t m => t.appendRecord .pre id m .none 0 0) t).log.counter = c + BitVec.ofNat 16 (j + l.length) := by
  induction l with
  | nil => exact fun t j _ hc => ⟨by simp, by simpa using hc⟩
  | cons m l ih =>
    intro t j hlen hc
    rw [List.length_cons] at hlen
    have hlog : (t.appendRecord .pre id m .none 0 0).log = { t.log with
        records := t.log.records ++ [preRecord id (c + BitVec.ofNat 16 j) m], counter := t.log.counter + 1 } := by
      rw [appendRecord_log, Config.logCapacity, if_pos (by omega), hc]
      rfl
    obtain ⟨hrecords, hcounter⟩ := ih (t.appendRecord .pre id m .none 0 0) (j + 1)
      (by rw [hlog, List.length_append, List.length_singleton]; omega)
      (by rw [hlog, BitVec.ofNat_add, ← BitVec.add_assoc, ← hc]; rfl)
    refine ⟨?_, ?_⟩
    · rw [List.foldl_cons, hrecords, hlog, List.zipIdx_cons, List.map_cons, List.append_assoc]
      rfl
    · rw [List.foldl_cons, hcounter, List.length_cons, Nat.add_assoc, Nat.add_comm 1]

theorem moveRing_records (id : TrialId) (h : s.log.records.length + s.log.ring.length ≤ 256) :
    (s.moveRing id).log.records
        = s.log.records ++ s.log.ring.zipIdx.map (fun m => preRecord id (s.log.counter + BitVec.ofNat 16 m.2) m.1)
      ∧ (s.moveRing id).log.counter = s.log.counter + BitVec.ofNat 16 s.log.ring.length := by
  obtain ⟨hrecords, hcounter⟩ := foldl_appendRecord_pre id s.log.counter s.log.ring s 0 h (by simp)
  exact ⟨hrecords, hcounter.trans (by rw [Nat.zero_add])⟩

/-! ### The trial's start (R60) -/

theorem startTrial_hasEvent (s : State) : s.startTrial.hasEvent .trialStart = true :=
  (startTrial_raised_start s).hasEvent (hasEvent_raise _ _)

theorem startTrial_trim_of_drawStep (ht : s.trial.params.target = s.station) (hk : s.trial.params.kind = .drawStep) :
    s.startTrial.trim = (s.present s.trial.params.step 0 none .trial).trim := by
  rw [startTrial_trim, if_pos ht, hk]

theorem startTrial_trim_of_shareStep (ht : s.trial.params.target = s.station) (hk : s.trial.params.kind = .shareStep) :
    s.startTrial.trim = (s.present 0 s.trial.params.step (some s.trial.params.drive) .trial).trim := by
  rw [startTrial_trim, if_pos ht, hk]

/-! ### The boundary's decision on a record, from the state that it finds -/

theorem refreshReady_trial (s : State) : s.refreshReady.trial =
    { s.trial with readySet := if s.isMember then s.readySet else s.trial.readySet } := rfl

theorem isMember_of_trial {t : State} (htrial : t.trial.params = s.trial.params) (hstation : t.station = s.station) :
    t.isMember = s.isMember := by rw [State.isMember, State.isMember, htrial, hstation]

@[simp] theorem refreshReady_isMember (s : State) : s.refreshReady.isMember = s.isMember := isMember_of_trial rfl rfl

theorem decisionAt_isMember (s : State) (b : BoundaryEvent) (k : BoundaryKind) (n : BitVec 8) :
    (s.decisionAt b k n).isMember = s.isMember :=
  isMember_of_trial (by rw [decisionAt_trial_eq]) (by simp)

/-- The record on which a boundary decides that is not IDLE. -/
theorem decisionAt_trial_of_tracking (b : BoundaryEvent) (k : BoundaryKind) (n : BitVec 8) (h : s.trial.phase ≠ .idle) :
    (s.decisionAt b k n).trial = { s.trial with linkCloseOwed := false, count := s.trial.count + 1 } := by
  rw [decisionAt_trial, if_neg h]

theorem decidePhase_of_scheduled (h : s.trial.phase = .scheduled) : s.decidePhase = s.guarded State.awaitStart := by
  rw [State.decidePhase, h]

theorem decidePhase_of_running (h : s.trial.phase = .running) : s.decidePhase = s.guarded State.countDown := by
  rw [State.decidePhase, h]

end

/-- Settles O43: the SCHEDULED record that neither aborts nor hears an ABORT starts its trial. -/
theorem trialStarts : Obligations.TrialStarts := by
  intro after b k n s a d hb hphase _ hstart habort hheard
  set t := (a.boundaryBase b).takeBoundary k n with ht
  have htrial : a.trial = s.trial := advance_trial s after
  have hdtrial : d.trial = { s.trial with linkCloseOwed := false, count := s.trial.count + 1 } := by
    rw [decisionAt_trial_of_tracking b k n (by rw [htrial, hphase]; simp), htrial]
  have hstation : d.station = s.station := by simp [d, a]
  have hbrk : d.brk = s.brk := by simp [d, a]
  have hmember : d.refreshReady.isMember = s.isMember := by
    rw [refreshReady_isMember, decisionAt_isMember, isMember_of_trial (congrArg _ htrial) (advance_station s after)]
  have hstep : d.decidePhase = d.refreshReady.startTrial := by
    rw [decidePhase_of_scheduled (by rw [hdtrial]; exact hphase), guarded_goes d _ habort hheard, State.awaitStart,
      if_pos (by rw [refreshReady_round, decisionAt_round_number, refreshReady_trial, hdtrial]; exact hstart.symm)]
  have hdecided : Decided d.refreshReady.startTrial t := hstep ▸ decided_of_boundary b k n (by rw [htrial, hphase]; simp)
  have hparams : d.refreshReady.trial.params = s.trial.params := by rw [refreshReady_trial, hdtrial]
  have hid : d.refreshReady.trial.id = s.trial.id := by rw [refreshReady_trial, hdtrial]
  have hrecord := hdecided.trial.trans (startTrial_trial _)
  have hrunning : t.trial.phase = .running := by rw [hrecord]
  have hlog := hdecided.log.trans (startTrial_log _)
  rw [hmember, hid] at hlog
  have hpresented : s.brk = { latch := false, mark := false } → d.refreshReady.brk.latch = false := fun h => by
    rw [refreshReady_brk, hbrk, h]
  refine ⟨t, exec_row_of hb rfl (by simp [a, hphase, ← ht, hrunning]), hrunning, by rw [hrecord, hparams],
    hdecided.hasEvent (startTrial_hasEvent _), (hdecided.fields (trialFields_of_running ?_)).1, fun hm => ?_,
    fun hm hlen => ?_, fun hm => ?_, fun htarget hkind hnone => ?_, fun htarget hkind hnone => ?_⟩
  · rw [rampTrims_trial, startTrial_trial]
  · rw [hlog, if_pos hm, moveRing_ring]
  · rw [hlog, if_pos hm]
    exact moveRing_records (s := d.refreshReady) s.trial.id hlen
  · rw [hlog, if_neg (by simp [hm])]
    exact ⟨rfl, rfl⟩
  · have htrim := startTrial_trim_of_drawStep (s := d.refreshReady) (by rw [hparams, htarget, refreshReady_station, hstation])
      (by rw [hparams, hkind])
    rw [present_trim, hparams] at htrim
    rw [hdecided.trialTarget, hdecided.shiftTarget, hdecided.cls, htrim, hpresented hnone]
    exact ⟨rfl, rfl, rfl⟩
  · have htrim := startTrial_trim_of_shareStep (s := d.refreshReady) (by rw [hparams, htarget, refreshReady_station, hstation])
      (by rw [hparams, hkind])
    rw [present_trim, hparams] at htrim
    rw [hdecided.trialTarget, hdecided.shiftTarget, hdecided.drive, hdecided.cls, htrim, hpresented hnone]
    exact ⟨rfl, rfl, rfl, rfl⟩

end Sys2Proof.Machine
end

section
/-! PROOFS. The end of a recovery (R51, R53, R68): the record that returns to IDLE and adopts a claim, and the one that stays. -/

namespace Sys2Proof.Machine

section

variable {s : State}

/-! ### The claim that an IDLE record adopts (R51) -/

theorem adoptHeard_of_claim {c : TrialId × TrialParams} {rest : List (TrialId × TrialParams)} (hc : s.heardClaims = c :: rest)
    (hlink : s.link.state = .active) (hidle : s.trialIdle = true) : s.adoptHeard = s.adopt c := by
  rw [State.adoptHeard, hc]
  exact if_pos (by simp [hlink, hidle])

theorem adoptHeard_of_none (h : s.heardClaims = [] ∨ s.link.state ≠ .active) : s.adoptHeard = s := by
  unfold State.adoptHeard
  cases hc : s.heardClaims with
  | nil => rfl
  | cons c rest =>
    have hlink : s.link.state ≠ .active := h.resolve_left (by simp [hc])
    exact if_neg (by simp [hlink])

/-! ### The end of the recovery (R68) -/

theorem recovered_iff : s.recovered = true ↔
    s.trial.phase = .recovering ∧ s.trial.abortsOwed = 0 ∧ s.trim.applied = 0 ∧ s.trim.shift = 0 := by
  simp only [State.recovered, Bool.and_eq_true, decide_eq_true_eq, and_assoc]

theorem testIdle_of_recovered (h : s.recovered = true) :
    s.testIdle true = State.adoptHeard { s with trial := .empty } := by rw [State.testIdle, h]; rfl

theorem testIdle_of_not_recovered (was : Bool) (h : s.recovered = false) : s.testIdle was = s := by
  rw [State.testIdle, h, Bool.and_false]; rfl

theorem takeBoundary_raised_reported (s : State) (k : BoundaryKind) (n : BitVec 8) :
    Raised (s.reported k n).port (s.takeBoundary k n) := by
  simp (maxDischargeDepth := 20) [State.takeBoundary, State.trialAndTrims, State.reported]

/-- The state on which a boundary that finds the record RECOVERING builds the report. -/
theorem reported_of_recovering {a : State} (b : BoundaryEvent) (k : BoundaryKind) (n : BitVec 8)
    (h : a.trial.phase = .recovering) :
    (a.boundaryBase b).reported k n = (a.decisionAt b k n).rampTrims.testIdle true := by
  have hsampled : ((a.boundaryBase b).sampled k n).trial.phase = .recovering := by rwa [sampled_trial, boundaryBase_trial]
  have hdphase : (a.decisionAt b k n).trial.phase = .recovering := by rw [decisionAt_trial_eq]; exact h
  rw [State.reported, decide_eq_decisionAt, decidePhase_of_recovering hdphase, decide_eq_true hsampled]

theorem heardClaims_rampTrims (s : State) : s.rampTrims.heardClaims = s.heardClaims := heardClaims_congr rfl rfl

/-- The ramps of a record that returns to IDLE. -/
theorem rampTrims_testIdle_of_recovered (h : s.rampTrims.recovered = true) :
    ((s.heardClaims = [] ∨ s.link.state ≠ .active) → (s.rampTrims.testIdle true).trial = .empty)
      ∧ ∀ c rest, s.heardClaims = c :: rest → s.link.state = .active →
          (s.rampTrims.testIdle true).trial.phase = .accepting ∧ (s.rampTrims.testIdle true).trial.id = c.1
            ∧ (s.rampTrims.testIdle true).trial.params = c.2
            ∧ (s.rampTrims.testIdle true).hasEvent .claimSeen = true := by
  have hclaims : State.heardClaims { s.rampTrims with trial := .empty } = s.heardClaims := heardClaims_congr rfl rfl
  rw [testIdle_of_recovered h]
  refine ⟨fun hnone => ?_, fun c rest hc hlink => ?_⟩
  · rw [adoptHeard_of_none (hnone.imp_left hclaims.trans)]
  · rw [adoptHeard_of_claim (hclaims.trans hc) hlink rfl]
    exact ⟨rfl, rfl, rfl, hasEvent_adopt _ _⟩

/-! ### What a RECOVERING record reports (R47, R53) -/

theorem trialFields_of_refusal {i : TrialId} (h : s.trial.phase = .recovering) (ho : s.trial.abortsOwed = 0)
    (hr : s.busyRefusal = some i) : s.trialFields = (.refuse, i, ⟨Reason.busy.code, 0, 0, 0⟩) := by
  rw [State.trialFields, h]
  dsimp only
  rw [if_pos ho, hr]

theorem trialFields_of_silence (h : s.trial.phase = .recovering) (ho : s.trial.abortsOwed = 0) (hr : s.busyRefusal = none) :
    s.trialFields = noTrialFields := by
  rw [State.trialFields, h]
  dsimp only
  rw [if_pos ho, hr]

/-- The lowest claim whose span holds the node is refused. -/
theorem busyRefusal_of_first {earlier later : List (TrialId × TrialParams)} {c : TrialId × TrialParams}
    (hlink : s.link.state = .active) (hc : s.heardClaims = earlier ++ c :: later) (hin : c.2.inSpan s.station = true)
    (hout : ∀ x ∈ earlier, x.2.inSpan s.station = false) : s.busyRefusal = some c.1 := by
  have hfirst : (s.heardClaims.find? fun x => x.2.inSpan s.station) = some c := by
    rw [hc, List.find?_append, List.find?_eq_none.mpr fun x hx => by simp [hout x hx], List.find?_cons_of_pos (by simpa using hin)]
    rfl
  rw [State.busyRefusal, if_pos hlink, hfirst]
  rfl

theorem busyRefusal_of_none (h : s.link.state ≠ .active ∨ ∀ x ∈ s.heardClaims, x.2.inSpan s.station = false) :
    s.busyRefusal = none := by
  rw [State.busyRefusal]
  by_cases hlink : s.link.state = .active
  · rw [if_pos hlink, List.find?_eq_none.mpr fun x hx => by simp [h.resolve_left (not_not.mpr hlink) x hx]]
    rfl
  · rw [if_neg hlink]

end

section

variable {a : State} {b : BoundaryEvent} {k : BoundaryKind} {n : BitVec 8}

/-- What a boundary that finds the record RECOVERING leaves: the ramps, and the record as the test for IDLE leaves it. -/
theorem takeBoundary_of_recovering (h : a.trial.phase = .recovering) :
    ((a.boundaryBase b).takeBoundary k n).trial = ((a.decisionAt b k n).rampTrims.testIdle true).trial
      ∧ ((a.boundaryBase b).takeBoundary k n).trim.applied = (a.decisionAt b k n).rampedTrim
      ∧ ((a.boundaryBase b).takeBoundary k n).trim.shift = (a.decisionAt b k n).rampedShift
      ∧ ((a.boundaryBase b).takeBoundary k n).lastOutcome = a.lastOutcome := by
  have hdecide : ((a.boundaryBase b).sampled k n).decide = a.decisionAt b k n := by
    rw [decide_eq_decisionAt, decidePhase_of_recovering]
    rw [decisionAt_trial_eq]
    exact h
  refine ⟨by rw [← reported_of_recovering b k n h, reported_trial], ?_, ?_, ?_⟩
  · rw [takeBoundary_trim, hdecide]; rfl
  · rw [takeBoundary_trim, hdecide]; rfl
  · rw [takeBoundary_lastOutcome, hdecide]
    simp [State.decisionAt]

/-- What it reports. -/
theorem takeBoundary_fields_of_recovering (h : a.trial.phase = .recovering) {f : TrialPhase × TrialId × ParamBytes}
    (hf : ((a.decisionAt b k n).rampTrims.testIdle true).trialFields = f) :
    ((a.boundaryBase b).takeBoundary k n).ownReport.phase = f.1 ∧ ((a.boundaryBase b).takeBoundary k n).ownReport.id = f.2.1
      ∧ ((a.boundaryBase b).takeBoundary k n).ownReport.params = f.2.2 := by
  rw [takeBoundary_ownReport_eq, reported_of_recovering b k n h, hf]
  exact ⟨rfl, rfl, rfl⟩

theorem takeBoundary_hasEvent_of_recovering (h : a.trial.phase = .recovering) {e : Event}
    (he : ((a.decisionAt b k n).rampTrims.testIdle true).hasEvent e = true) :
    ((a.boundaryBase b).takeBoundary k n).hasEvent e = true :=
  (takeBoundary_raised_reported _ k n).hasEvent (by rw [reported_of_recovering b k n h]; exact he)

end

/-- Settles O45: the ramps at 0 return the record to IDLE; else it stays, and reports by what it owes and hears. -/
theorem recoveryEnds : Obligations.RecoveryEnds := by
  intro after b k n s a d hb hphase
  have htrial : a.trial = s.trial := advance_trial s after
  have hrecovering : a.trial.phase = .recovering := by rw [htrial, hphase]
  have hdtrial : d.trial = { s.trial with linkCloseOwed := false, count := s.trial.count + 1 } := by
    rw [decisionAt_trial_of_tracking b k n (by rw [hrecovering]; decide), htrial]
  have hdphase : d.trial.phase = .recovering := by rw [hdtrial]; exact hphase
  have hdowed : d.trial.abortsOwed = s.trial.abortsOwed := by rw [hdtrial]
  have hdid : d.trial.id = s.trial.id := by rw [hdtrial]
  have hstation : d.station = s.station := by simp [d, a]
  obtain ⟨hafter, happlied, hshifted, hlast⟩ := takeBoundary_of_recovering (b := b) (k := k) (n := n) hrecovering
  have hfields := fun f => takeBoundary_fields_of_recovering (b := b) (k := k) (n := n) (f := f) hrecovering
  have hraised := fun e => takeBoundary_hasEvent_of_recovering (b := b) (k := k) (n := n) (e := e) hrecovering
  change _ = d.rampedTrim at happlied
  change _ = d.rampedShift at hshifted
  change (_ : TrialRecord) = (d.rampTrims.testIdle true).trial at hafter
  change ∀ f, (d.rampTrims.testIdle true).trialFields = f → _ at hfields
  change ∀ e, (d.rampTrims.testIdle true).hasEvent e = true → _ at hraised
  have hrun := exec_boundaryCommand_of hb
  have hrow : ∀ row cmd, exec cmd s = .next (a.whenComesAbout b row) → row a ((a.boundaryBase b).takeBoundary k n) = true →
      exec cmd s = .next ((a.boundaryBase b).takeBoundary k n) := fun row cmd => exec_row_of hb
  change exec (boundaryCommand after b) s = .next ((a.boundaryBase b).takeBoundary k n) at hrun
  clear_value d
  generalize (a.boundaryBase b).takeBoundary k n = t at *
  have hclaims := heardClaims_rampTrims d
  refine ⟨fun howed htrim hshift => ?_, fun hstays => ?_⟩
  · have hrecovered : d.rampTrims.recovered = true := recovered_iff.mpr ⟨hdphase, hdowed.trans howed, htrim, hshift⟩
    obtain ⟨hnone, hadopts⟩ := rampTrims_testIdle_of_recovered hrecovered
    have hnot : t.trial.phase ≠ .recovering := by
      rw [hafter]
      by_cases h : d.heardClaims = [] ∨ d.link.state ≠ .active
      · rw [hnone h]; decide
      · obtain ⟨hsome, hlink⟩ := not_or.mp h
        obtain ⟨c, rest, hc⟩ := List.exists_cons_of_ne_nil hsome
        rw [(hadopts c rest hc (not_not.mp hlink)).1]
        decide
    rw [← hafter] at hnone hadopts
    refine ⟨t, hrow _ _ rfl (by simp [hrecovering, hnot]), happlied.trans htrim, hshifted.trans hshift, hnone,
      fun c rest hc hlink => ?_⟩
    obtain ⟨hp, hid, hparams, hseen⟩ := hadopts c rest hc hlink
    exact ⟨hp, hid, hparams, hraised _ hseen⟩
  · have hrecovered : d.rampTrims.recovered = false := by
      refine Bool.eq_false_iff.mpr fun h => ?_
      obtain ⟨-, howed, htrim, hshift⟩ := recovered_iff.mp h
      exact hstays.elim (· (hdowed.symm.trans howed)) fun h => h.elim (· htrim) (· hshift)
    rw [testIdle_of_not_recovered true hrecovered] at hafter hfields
    refine ⟨t, hrun, hafter, hlast.trans (by simp [a]), fun howed => ?_,
      fun earlier later c howed hlink hc hin hout => ?_, fun howed h => ?_⟩
    · obtain ⟨hreport, hid, -⟩ := hfields _ (trialFields_of_owed hdphase (hdowed ▸ howed))
      exact ⟨hreport, hid.trans hdid⟩
    · exact hfields _ (trialFields_of_refusal hdphase (hdowed.trans howed) (busyRefusal_of_first hlink
        (hclaims.trans hc) (by rw [rampTrims_station, hstation]; exact hin)
        fun x hx => by rw [rampTrims_station, hstation]; exact hout x hx))
    · exact hfields _ (trialFields_of_silence hdphase (hdowed.trans howed) (busyRefusal_of_none (h.imp_right fun h x hx => by
        rw [rampTrims_station, hstation]; exact h x (hclaims ▸ hx))))

end Sys2Proof.Machine
end

section
/-! PROOFS. A SCHEDULED or RUNNING record at a boundary (R61 to R63, R65, R66): the abort conditions, what an abort leaves, and the
counting down. -/

namespace Sys2Proof.Machine

section

variable {s d t : State}

/-! ### What the decision finds of the state before the boundary -/

/-- What the state `d`, on which a boundary of number `n` decides, keeps of the state `s` that the boundary finds with a record
that is not IDLE. -/
structure Found (s d : State) (n : BitVec 8) : Prop where
  trial : d.trial = { s.trial with linkCloseOwed := false, count := s.trial.count + 1 }
  station : d.station = s.station
  config : d.config = s.config
  brk : d.brk = s.brk
  trim : d.trim = s.trim
  ownReport : d.ownReport = s.ownReport
  lastOutcome : d.lastOutcome = s.lastOutcome
  isMember : d.isMember = s.isMember
  number : d.round.number = n
  closing : d.closingRound = s.round.number
  log : s.trial.linkCloseOwed = false → d.log.records = s.log.records ∧ d.log.counter = s.log.counter

theorem closeLink_last (s : State) : s.closeLink.log.last = s.log.last := by
  unfold State.closeLink
  split
  · rw [appendClose_log]
    split <;> rfl
  · rfl

theorem decisionAt_closingRound (s : State) (b : BoundaryEvent) (k : BoundaryKind) (n : BitVec 8) :
    (s.decisionAt b k n).closingRound = s.round.number := by
  have hcount : ∀ u : State, u.countBoundaries.log = u.log := fun u => by unfold State.countBoundaries; split <;> rfl
  have hround : (s.boundaryBase b).round.number = s.round.number := by simp
  rw [State.closingRound, State.decisionAt, State.atDecision, hcount, closeLink_last]
  exact hround

theorem found_decisionAt (after : Wait) (b : BoundaryEvent) (k : BoundaryKind) (n : BitVec 8) (h : s.trial.phase ≠ .idle) :
    Found s ((s.advance after).decisionAt b k n) n where
  trial := by rw [decisionAt_trial_of_tracking b k n (by rw [advance_trial]; exact h), advance_trial]
  station := by simp
  config := by simp
  brk := by simp
  trim := by simp
  ownReport := by simp [State.decisionAt]
  lastOutcome := by simp [State.decisionAt]
  isMember := by rw [decisionAt_isMember, advance_isMember]
  number := decisionAt_round_number ..
  closing := by rw [decisionAt_closingRound, advance_round]
  log howed := by
    obtain ⟨hrecords, hcounter, -⟩ := decisionAt_log_of_not_owed (s.advance after) b k n (by rw [advance_trial]; exact howed)
    exact ⟨hrecords.trans (by rw [advance_log]), hcounter.trans (by rw [advance_log])⟩

namespace Found

variable {n : BitVec 8}

theorem cfg (h : Found s d n) : d.cfg = s.cfg := cfg_of_config h.config
theorem phase (h : Found s d n) : d.trial.phase = s.trial.phase := by rw [h.trial]
theorem request (h : Found s d n) : d.trial.request = s.trial.request := by rw [h.trial]
theorem id (h : Found s d n) : d.trial.id = s.trial.id := by rw [h.trial]
theorem params (h : Found s d n) : d.trial.params = s.trial.params := by rw [h.trial]
theorem role (h : Found s d n) : d.trial.role = s.trial.role := by rw [h.trial]
theorem count (h : Found s d n) : d.trial.count = s.trial.count + 1 := by rw [h.trial]
theorem required (h : Found s d n) : d.trial.required = s.trial.required := by rw [h.trial]
theorem watched (h : Found s d n) : d.trial.watched = s.trial.watched := by rw [h.trial]
theorem readySet (h : Found s d n) : d.trial.readySet = s.trial.readySet := by rw [h.trial]
theorem startRound (h : Found s d n) : d.trial.startRound = s.trial.startRound := by rw [h.trial]
theorem remaining (h : Found s d n) : d.trial.remaining = s.trial.remaining := by rw [h.trial]
theorem refusing (h : Found s d n) : d.trial.refusing = s.trial.refusing := by rw [h.trial]

end Found

/-- A boundary that does not find the record RECOVERING, taken by its own event or by a row that comes about in it. -/
theorem exec_decided {after : Wait} {b : BoundaryEvent} {k : BoundaryKind} {n : BitVec 8}
    (hb : (s.advance after).boundaryOf b = some (k, n)) (h : s.trial.phase ≠ .recovering) :
    ∃ t, exec (boundaryCommand after b) s = .next t ∧ Decided ((s.advance after).decisionAt b k n).decidePhase t
      ∧ ∀ (cmd : Instr) (row : State → State → Bool), exec cmd s = .next ((s.advance after).whenComesAbout b row) →
          row (s.advance after) t = true → exec cmd s = .next t :=
  ⟨_, exec_boundaryCommand_of hb, decided_of_boundary b k n (by rw [advance_trial]; exact h), fun _ _ => exec_row_of hb⟩

/-! ### The abort conditions (R63) -/

theorem readyShrunk_iff : d.readyShrunk = true ↔
    ∃ m : Channel, d.trial.readySet.getLsbD m.val = true ∧ d.chans.get m ≠ .ready := by
  simp only [State.readyShrunk, List.any_eq_true, mem_channels, true_and, Bool.and_eq_true, Bool.not_eq_true', ready_eq_decide,
    decide_eq_false_iff_not]

theorem watchedLost_iff : d.watchedLost = true ↔
    ∃ u : Station, d.trial.watched.getLsbD u.val = true ∧ (d.entry u).presence ≠ .present := by
  simp only [State.watchedLost, any_stations, member, Bool.and_eq_true, bne_iff_ne]

/-- The abort conditions in their order. -/
def State.abortTable (d : State) : List (Reason × Prop) :=
  [ (.requested, d.trial.request = .abort),
    (.brk, d.brk.latch = true ∨ d.brk.mark = true),
    (.driveFault, d.isMember = true ∧ ((∃ (m : Channel) (c : FaultCause), d.chans.get m = .faulted c)
      ∨ ∃ m : Channel, d.trial.readySet.getLsbD m.val = true ∧ d.chans.get m ≠ .ready)),
    (.drawLimit, d.isMember = true ∧ d.draw.hard = true),
    (.peerLost, ∃ u : Station, d.trial.watched.getLsbD u.val = true ∧ (d.entry u).presence ≠ .present),
    (.missedGo, d.trial.phase = .scheduled ∧ 0 < (d.trial.startRound - d.closingRound).toNat
      ∧ (d.trial.startRound - d.closingRound).toNat < (d.round.number - d.closingRound).toNat) ]

theorem abortCondition_first (d : State) : FirstHolds d.abortTable d.abortCondition := by
  refine .ite _ Iff.rfl (.ite _ breakInForce_iff (.ite _ ?_ (.ite _ ?_ (.ite _ watchedLost_iff (.ite _ ?_ .none)))))
  · rw [Bool.and_eq_true, Bool.or_eq_true, anyFaulted_iff, readyShrunk_iff]
  · rw [Bool.and_eq_true]
  · rw [Bool.and_eq_true, decide_eq_true_iff]
    refine and_congr_right fun _ => ?_
    simp only [State.startPassed, Bool.and_eq_true, decide_eq_true_eq]

/-! ### What an abort leaves (R65, R66) -/

theorem readySet_eq (d : State) : d.readySet = channelSet fun m => Decidable.decide (d.chans.get m = .ready) := rfl

theorem abortTrial_trim_fields (s : State) (owed : Nat) (cause : Byte) (origin : Station) :
    (s.abortTrial owed cause origin).trim.manual = 0 ∧ (s.abortTrial owed cause origin).trim.trialTarget = none
      ∧ (s.abortTrial owed cause origin).trim.shiftTarget = 0 ∧ (s.abortTrial owed cause origin).trim.cls = .recovery := by
  rw [abortTrial_trim, present_trim, setManual_trim]
  refine ⟨rfl, rfl, rfl, ?_⟩
  dsimp only
  split <;> rfl

theorem abortTrial_hasEvent (s : State) (owed : Nat) (cause : Byte) (origin : Station) :
    (s.abortTrial owed cause origin).hasEvent .trialEnd = true := by
  unfold State.abortTrial
  dsimp only
  split
  · exact Raised.hasEvent (appendClose_raised _ _ _ _ _ (raised_self _)) (hasEvent_writeOutcome _ _ _ _ _)
  · exact hasEvent_writeOutcome _ _ _ _ _

/-- What a boundary leaves of an abort that owes reports. -/
theorem Decided.aborted {u : State} {owed : Nat} {cause : Byte} {origin : Station} (h : Decided (u.abortTrial owed cause origin) t)
    (howed : owed ≠ 0) :
    t.trial.phase = .recovering ∧ t.trial.abortsOwed = owed ∧ t.trial.abortCause = cause
      ∧ t.trial.abortOrigin = origin ∧ t.trial.request = .none
      ∧ t.lastOutcome = { outcome := .aborted, id := u.trial.id, code := cause, station := origin }
      ∧ t.trim.manual = 0 ∧ t.trim.trialTarget = none ∧ t.trim.shiftTarget = 0 ∧ t.trim.cls = .recovery
      ∧ t.hasEvent .trialEnd = true ∧ t.ownReport.phase = .abort := by
  have htrial := h.trial.trans (abortTrial_trial _ _ _ _)
  obtain ⟨hmanual, htarget, hshift, hcls⟩ := abortTrial_trim_fields u owed cause origin
  have hfields := h.fields (trialFields_of_owed (by rw [rampTrims_trial, abortTrial_trial]; rfl)
    (by rw [rampTrims_trial, abortTrial_trial]; exact howed))
  rw [enterRecovering_trial] at htrial
  rw [htrial]
  exact ⟨rfl, rfl, rfl, rfl, rfl, h.lastOutcome.trans (abortTrial_lastOutcome _ _ _ _), h.manual.trans hmanual,
    h.trialTarget.trans htarget, h.shiftTarget.trans hshift, h.cls.trans hcls, h.hasEvent (abortTrial_hasEvent _ _ _ _),
    hfields.1⟩

/-- A member under way appends its CLOSE record when the log has room. -/
theorem Decided.aborted_log {u : State} {owed : Nat} {cause : Byte} {origin : Station}
    (h : Decided (u.abortTrial owed cause origin) t) (hm : u.isMember = true) (huw : u.underWay = true)
    (hroom : u.log.records.length < 256) : t.log = { u.log with
      records := u.log.records ++ [{ seq := u.log.counter, type := .close, id := u.trial.id, sample := u.log.last,
                                     outcome := .aborted, cause := cause, origin := origin }]
      counter := u.log.counter + 1 } ∧ t.hasEvent .logClosed = true := by
  rw [h.log, h.logClosed, abortTrial_log, abortTrial_logClosed, Config.logCapacity, if_pos ⟨hm, huw, hroom⟩,
    if_pos ⟨hm, huw, hroom⟩]
  exact ⟨rfl, rfl⟩

/-- A record that is not a member's, not under way or without room appends none. -/
theorem Decided.aborted_log_kept {u : State} {owed : Nat} {cause : Byte} {origin : Station}
    (h : Decided (u.abortTrial owed cause origin) t) (hno : u.isMember = false ∨ u.underWay = false ∨ 256 ≤ u.log.records.length) :
    t.log = u.log ∧ t.hasEvent .logClosed = u.hasEvent .logClosed := by
  have hnot : ¬(u.isMember = true ∧ u.underWay = true ∧ u.log.records.length < 256) := by
    rintro ⟨hm, hu, hl⟩
    rcases hno with hno | hno | hno
    · rw [hm] at hno; cases hno
    · rw [hu] at hno; cases hno
    · omega
  rw [h.log, h.logClosed, abortTrial_log, abortTrial_logClosed, Config.logCapacity, if_neg hnot, if_neg hnot]
  exact ⟨rfl, rfl⟩

theorem underWay_of (h : s.trial.phase = .scheduled ∨ s.trial.phase = .running) : s.underWay = true := by
  rcases h with h | h <;> simp [State.underWay, h]

/-! ### The counting down (R61, R62) -/

theorem appendRun_log (s : State) (id : TrialId) : (s.appendRun id).log =
    if s.log.records.length < 256 then
      { s.log with
        records := s.log.records ++ [{ seq := s.log.counter, type := .run, id := id, sample := s.log.last, outcome := .none,
                                       cause := 0, origin := 0 }]
        counter := s.log.counter + 1 }
    else s.log := by rw [State.appendRun, appendRecord_log, Config.logCapacity]

/-- A RUNNING record with one round less, and the RUN record of a member. -/
def State.roundRun (s : State) : State :=
  let t := if s.isMember then s.appendRun s.trial.id else s
  { t with trial := { t.trial with remaining := s.trial.remaining - 1 } }

theorem countDown_eq (s : State) : s.countDown = if s.trial.remaining ≤ 1 then s.roundRun.completeTrial else s.roundRun := rfl

theorem roundRun_trial (s : State) : s.roundRun.trial = { s.trial with remaining := s.trial.remaining - 1 } := by
  unfold State.roundRun; dsimp only; split <;> simp

theorem roundRun_log (s : State) : s.roundRun.log = if s.isMember then (s.appendRun s.trial.id).log else s.log := by
  unfold State.roundRun; dsimp only; split <;> rfl

/-- What else stands in a round that is run. -/
theorem roundRun_keeps (s : State) : s.roundRun.trim = s.trim ∧ s.roundRun.lastOutcome = s.lastOutcome
    ∧ s.roundRun.station = s.station ∧ s.roundRun.brk = s.brk ∧ s.roundRun.chans = s.chans
    ∧ s.roundRun.isMember = s.isMember := by
  have hstation : s.roundRun.station = s.station := by unfold State.roundRun; dsimp only; split <;> simp
  refine ⟨?_, ?_, hstation, ?_, ?_, isMember_of_trial (by rw [roundRun_trial]) hstation⟩ <;>
    · unfold State.roundRun; dsimp only; split <;> simp

theorem completeTrial_log (s : State) :
    s.completeTrial.log = if s.isMember then (s.appendClose s.trial.id .completed 0 0).log else s.log := by
  unfold State.completeTrial; dsimp only; split <;> rfl

theorem completeTrial_hasEvent (s : State) : s.completeTrial.hasEvent .trialEnd = true := hasEvent_writeOutcome _ _ _ _ _

theorem completeTrial_logClosed (hm : s.isMember = true) (hroom : s.log.records.length < 256) :
    s.completeTrial.hasEvent .logClosed = true := by
  have hclosed := appendClose_hasEvent hroom s.trial.id .completed 0 0
  have hraised : Raised (s.appendClose s.trial.id .completed 0 0).port s.completeTrial := by
    unfold State.completeTrial
    rw [if_pos hm]
    simp (maxDischargeDepth := 20)
  exact hraised.hasEvent hclosed

end

end Sys2Proof.Machine
end

section
/-! PROOFS. How a SCHEDULED or RUNNING record goes on (R61 to R63, R65, R66). -/

namespace Sys2Proof.Machine

section

variable {s d t : State} {n : BitVec 8}

/-- The abort conditions in terms of the state that the boundary finds. -/
theorem Found.abortTable (hf : Found s d n) : d.abortTable =
    [ (.requested, s.trial.request = .abort),
      (.brk, s.brk.latch = true ∨ s.brk.mark = true),
      (.driveFault, s.isMember = true ∧ ((∃ (m : Channel) (c : FaultCause), d.chans.get m = .faulted c)
        ∨ ∃ m : Channel, s.trial.readySet.getLsbD m.val = true ∧ d.chans.get m ≠ .ready)),
      (.drawLimit, s.isMember = true ∧ d.draw.hard = true),
      (.peerLost, ∃ u : Station, s.trial.watched.getLsbD u.val = true ∧ (d.entry u).presence ≠ .present),
      (.missedGo, s.trial.phase = .scheduled ∧ 0 < (s.trial.startRound - s.round.number).toNat
        ∧ (s.trial.startRound - s.round.number).toNat < (n - s.round.number).toNat) ] := by
  simp only [State.abortTable, hf.request, hf.brk, hf.isMember, hf.readySet, hf.watched, hf.phase, hf.startRound, hf.closing,
    hf.number]

theorem guarded_aborts {go : State → State} {r : Reason} (h : d.abortCondition = some r) : d.guarded go = d.abortOwn r := by
  rw [State.guarded, h]

theorem guarded_hears {go : State → State} {p : ParamBytes} (h : d.abortCondition = none) (hp : d.heardAbort = some p) :
    d.guarded go = d.refreshReady.abortHeard p := by
  rw [State.guarded, h, hp]

/-- A guarded record goes by its phase. -/
theorem decidePhase_of_underWay (h : d.trial.phase = .scheduled ∨ d.trial.phase = .running) :
    d.decidePhase = d.guarded (if d.trial.phase = .scheduled then State.awaitStart else State.countDown) := by
  rcases h with h | h
  · rw [decidePhase_of_scheduled h, if_pos h]
  · rw [decidePhase_of_running h, if_neg (by rw [h]; decide)]

theorem refreshReady_underWay (d : State) : d.refreshReady.underWay = d.underWay := rfl

/-- What a boundary leaves of an abort of a record that was under way. -/
theorem Decided.aborted_underWay {u : State} {owed : Nat} {cause : Byte} {origin : Station} {id : TrialId} {log : Log}
    {isMember : Bool} (h : Decided (u.abortTrial owed cause origin) t) (howed : owed ≠ 0) (huw : u.underWay = true)
    (hid : u.trial.id = id) (hlog : u.log = log) (hm : u.isMember = isMember) :
    t.trial.phase = .recovering ∧ t.trial.abortsOwed = owed ∧ t.trial.abortCause = cause
        ∧ t.trial.abortOrigin = origin ∧ t.trial.request = .none
        ∧ t.lastOutcome = { outcome := .aborted, id := id, code := cause, station := origin }
        ∧ t.trim.manual = 0 ∧ t.trim.trialTarget = none ∧ t.trim.shiftTarget = 0 ∧ t.trim.cls = .recovery
        ∧ t.hasEvent .trialEnd = true ∧ t.ownReport.phase = .abort
        ∧ (isMember = true → log.records.length < 256 →
            t.hasEvent .logClosed = true
              ∧ t.log.records = log.records
                  ++ [{ seq := log.counter, type := .close, id := id, sample := log.last, outcome := .aborted, cause := cause, origin := origin }])
        ∧ (isMember = false → t.log.records = log.records) := by
  subst hid hlog hm
  obtain ⟨h1, h2, h3, h4, h5, h6, h7, h8, h9, h10, h11, h12⟩ := h.aborted howed
  refine ⟨h1, h2, h3, h4, h5, h6, h7, h8, h9, h10, h11, h12, fun hm hroom => ?_, fun hm => ?_⟩
  · obtain ⟨hl, hc⟩ := h.aborted_log hm huw hroom
    exact ⟨hc, by rw [hl]⟩
  · rw [(h.aborted_log_kept (.inl hm)).1]

/-- The READY set that a boundary leaves of a record whose set was taken afresh. -/
theorem Found.fresh_readySet (hf : Found s d n) (hchans : t.chans = d.chans) : d.refreshReady.trial.readySet =
    if s.isMember then channelSet fun m => Decidable.decide (t.chans.get m = .ready) else s.trial.readySet := by
  rw [refreshReady_trial, hf.isMember, hf.readySet, readySet_eq, hchans]

/-- A record that owes no CLOSE record has none to clear. -/
theorem trial_of_not_owed (r : TrialRecord) (h : r.linkCloseOwed = false) (c : Nat) (m : ChannelSet) :
    { { r with linkCloseOwed := false, count := c } with readySet := m } = { r with count := c, readySet := m } := by
  cases r
  cases h
  rfl

/-- The last round of a member: its RUN and its CLOSE record. -/
theorem roundRun_completeTrial_log {u : State} (hm : u.isMember = true) (hroom : u.log.records.length + 2 ≤ 256) :
    u.roundRun.completeTrial.hasEvent .logClosed = true
      ∧ u.roundRun.completeTrial.log.records = u.log.records
          ++ [{ seq := u.log.counter, type := .run, id := u.trial.id, sample := u.log.last, outcome := .none, cause := 0, origin := 0 },
              { seq := u.log.counter + 1, type := .close, id := u.trial.id, sample := u.log.last, outcome := .completed, cause := 0, origin := 0 }] := by
  have hlog := roundRun_log u
  rw [if_pos hm, appendRun_log, if_pos (by omega)] at hlog
  have hid : u.roundRun.trial.id = u.trial.id := by rw [roundRun_trial]
  obtain ⟨-, -, -, -, -, hmember⟩ := roundRun_keeps u
  have hlength : u.roundRun.log.records.length < 256 := by
    rw [hlog, List.length_append, List.length_singleton]
    omega
  refine ⟨completeTrial_logClosed (hmember.trans hm) hlength, ?_⟩
  rw [completeTrial_log, if_pos (hmember.trans hm), appendClose_log, if_pos hlength, hid, hlog, List.append_assoc]
  rfl

/-- What a boundary leaves of a trial that is completed. -/
theorem Decided.completed {u : State} (h : Decided u.completeTrial t) :
    t.trial.phase = .recovering ∧ t.trial.abortsOwed = 0 ∧ t.trial.remaining = u.trial.remaining ∧ t.trial.request = .none
      ∧ t.lastOutcome = { outcome := .completed, id := u.trial.id, code := 0, station := u.trial.id.proposer }
      ∧ t.trim.manual = 0 ∧ t.trim.trialTarget = none ∧ t.trim.shiftTarget = 0
      ∧ (u.brk.latch = false → t.trim.cls = .normal) ∧ t.hasEvent .trialEnd = true := by
  have htrial := h.trial.trans (completeTrial_trial _)
  have hmanual := h.manual
  have htarget := h.trialTarget
  have hshift := h.shiftTarget
  have hcls := h.cls
  rw [completeTrial_trim, setManual_trim, present_trim] at hmanual htarget hshift hcls
  rw [htrial]
  exact ⟨rfl, rfl, rfl, rfl, h.lastOutcome.trans (completeTrial_lastOutcome _), hmanual, htarget, hshift,
    fun hb => by rw [hcls, hb]; rfl, h.hasEvent (completeTrial_hasEvent _)⟩

end

/-- Settles O44: an abort by the table and by what an abort leaves; the rounds waited, run and completed by the decision. -/
theorem trialCompletes : Obligations.TrialCompletes := by
  intro after b k n s a d boundary conditions ends run hb howed
  by_cases hidle : s.trial.phase = .scheduled ∨ s.trial.phase = .running
  swap
  · obtain ⟨hns, hnr⟩ := not_or.mp hidle
    exact ⟨fun h => absurd h hidle, fun h => absurd h hns, fun h => absurd h hnr, fun h => absurd h hnr⟩
  obtain ⟨t, hrun, hdecided, hrow⟩ := exec_decided hb (by rcases hidle with h | h <;> rw [h] <;> decide)
  have hf : Found s d n := found_decisionAt after b k n (by rcases hidle with h | h <;> rw [h] <;> decide)
  change Decided d.decidePhase t at hdecided
  have htable : d.abortTable = conditions := hf.abortTable
  have hfirst := htable ▸ abortCondition_first d
  have hunder : d.trial.phase = .scheduled ∨ d.trial.phase = .running := by rwa [hf.phase]
  clear_value d
  refine ⟨fun _ => ⟨fun earlier later x hx hp hnone => ?_, fun p hnone hheard => ?_⟩, fun hs hnone hheard hstart => ?_,
    fun hr hnone hheard hmore => ?_, fun hr hlast habort hheard => ?_⟩
  · rw [decidePhase_of_underWay hunder, guarded_aborts (hfirst.eq_some hx hp hnone), State.abortOwn, hf.station] at hdecided
    exact ⟨t, hrun, hdecided.aborted_underWay (by decide) (underWay_of hunder) hf.id rfl hf.isMember⟩
  · rw [decidePhase_of_underWay hunder, guarded_hears (hfirst.eq_none hnone) hheard, State.abortHeard] at hdecided
    refine ⟨t, hrun, hdecided.aborted_underWay (by decide) (underWay_of (s := d.refreshReady) hunder) hf.id rfl
      ((refreshReady_isMember d).trans hf.isMember), ?_⟩
    rw [hdecided.trial, abortTrial_trial]
    exact hf.fresh_readySet (hdecided.chans.trans (by simp))
  · have hwaits : d.refreshReady.awaitStart = d.refreshReady := by
      rw [State.awaitStart, if_neg]
      rw [refreshReady_round, hf.number, refreshReady_trial, hf.startRound]
      exact hstart.symm
    rw [decidePhase_of_scheduled (hf.phase.trans hs), guarded_goes d _ (hfirst.eq_none hnone) hheard, hwaits] at hdecided
    have hchans : t.chans = d.chans := hdecided.chans
    have hphase : d.refreshReady.rampTrims.trial.phase = .scheduled := hf.phase.trans hs
    refine ⟨t, hrun, ?_, hdecided.lastOutcome.trans hf.lastOutcome, hdecided.log, ?_,
      hdecided.manual.trans (congrArg (·.manual) hf.trim), hdecided.trialTarget.trans (congrArg (·.trialTarget) hf.trim),
      hdecided.shiftTarget.trans (congrArg (·.shiftTarget) hf.trim), hdecided.drive.trans (congrArg (·.drive) hf.trim),
      hdecided.cls.trans (congrArg (·.cls) hf.trim), fun hrole => ?_, fun hrole => ?_, fun hrole => ?_⟩
    · rw [hdecided.trial, refreshReady_trial, hf.isMember, hf.trial, trial_of_not_owed _ howed, readySet_eq, ← hchans]
    · rw [hdecided.log]; exact (hf.log howed).1
    · have hfields := hdecided.fields (trialFields_of_go hphase (hrole.imp hf.role.trans hf.role.trans))
      rw [rampTrims_trial, refreshReady_trial, hf.id, hf.params, hf.startRound] at hfields
      exact hfields
    · have hfields := hdecided.fields (trialFields_of_accepted hphase (hf.role.trans hrole))
      rw [rampTrims_trial, refreshReady_trial, hf.id, hf.params] at hfields
      exact hfields
    · have hsilent : d.refreshReady.rampTrims.trialFields = noTrialFields := by
        have hr : d.refreshReady.rampTrims.trial.role = .bystander := hf.role.trans hrole
        rw [State.trialFields, hphase, hr]
      exact (hdecided.fields hsilent).1
  · rw [decidePhase_of_running (hf.phase.trans hr), guarded_goes d _ (hfirst.eq_none hnone) hheard, countDown_eq,
      if_neg (by rw [refreshReady_trial, hf.remaining]; omega)] at hdecided
    obtain ⟨htrim, hlast, -, -, hchans, -⟩ := roundRun_keeps d.refreshReady
    have htrial := hdecided.trial.trans (roundRun_trial _)
    have hlog := hdecided.log.trans (roundRun_log _)
    rw [refreshReady_isMember, hf.isMember, appendRun_log] at hlog
    have hid : d.refreshReady.trial.id = s.trial.id := hf.id
    have hready := hf.fresh_readySet (t := t) (hdecided.chans.trans hchans)
    have hphase : d.refreshReady.roundRun.rampTrims.trial.phase = .running := by
      rw [rampTrims_trial, roundRun_trial]; exact hf.phase.trans hr
    obtain ⟨hreport, -, hparams⟩ := hdecided.fields (trialFields_of_running hphase)
    rw [rampTrims_trial, roundRun_trial, refreshReady_trial, hf.remaining] at hparams
    refine ⟨t, hrun, ?_, ?_, ?_, ?_, ?_, ?_, ?_, hreport, by rw [hparams], fun hm hroom => ?_, fun hm => ?_⟩
    · rw [htrial]; exact hf.phase.trans hr
    · rw [htrial, refreshReady_trial, hf.remaining]
    · rw [htrial]; exact hready
    · rw [hdecided.trialTarget, htrim, refreshReady_trim, hf.trim]
    · rw [hdecided.shiftTarget, htrim, refreshReady_trim, hf.trim]
    · rw [hdecided.cls, htrim, refreshReady_trim, hf.trim]
    · rw [hdecided.lastOutcome, hlast]; exact hf.lastOutcome
    · rw [hlog, if_pos hm, if_pos (show d.refreshReady.log.records.length < 256 from hroom), hid]; rfl
    · rw [hlog, if_neg (by simp [hm])]; rfl
  · rw [decidePhase_of_running (hf.phase.trans hr), guarded_goes d _ habort hheard, countDown_eq,
      if_pos (by rw [refreshReady_trial, hf.remaining]; exact hlast)] at hdecided
    obtain ⟨-, -, -, hbrk, -⟩ := roundRun_keeps d.refreshReady
    have hid : d.refreshReady.roundRun.trial.id = s.trial.id := by rw [roundRun_trial]; exact hf.id
    have hremaining : d.refreshReady.roundRun.trial.remaining = 0 := by
      rw [roundRun_trial, refreshReady_trial, hf.remaining]
      exact Nat.sub_eq_zero_of_le hlast
    obtain ⟨hphase, howes, hleft, hrequest, houtcome, hmanual, htarget, hshift, hcls, hend⟩ := hdecided.completed
    rw [hid] at houtcome
    refine ⟨t, hrow _ _ rfl (by simp [hr, hphase, houtcome]), hphase, howes, hleft.trans hremaining, hrequest, houtcome,
      hmanual, htarget, hshift, fun hb => hcls (by rw [hbrk, refreshReady_brk, hf.brk, hb]), hend, fun hm hroom => ?_⟩
    obtain ⟨hclosed, hrecords⟩ := roundRun_completeTrial_log (u := d.refreshReady)
      ((refreshReady_isMember d).trans (hf.isMember.trans hm)) hroom
    have hdid : d.refreshReady.trial.id = s.trial.id := hf.id
    rw [hdid] at hrecords
    exact ⟨hdecided.hasEvent hclosed, by rw [hdecided.log, hrecords]; rfl⟩

end Sys2Proof.Machine
end

section
/-! PROOFS. The branches of the proposer's and of an ACCEPTING record's decision (R54 to R59), and what a boundary leaves of each. -/

namespace Sys2Proof.Machine

section

variable {s d e t : State}

/-! ### The proposer's items, in their order (R56) -/

theorem decidePhase_of_proposing (h : d.trial.phase = .proposing) : d.decidePhase = d.proposingStep := by
  rw [State.decidePhase, h]

theorem decidePhase_of_accepting (h : d.trial.phase = .accepting) : d.decidePhase = d.acceptingStep := by
  rw [State.decidePhase, h]

theorem proposingStep_requested (h : d.trial.request = .abort) :
    d.proposingStep = d.withdraw Reason.requested.code d.station := by rw [State.proposingStep, if_pos h]

/-- The items after the request, without one. -/
theorem proposingStep_of_none (h : d.trial.request = .none) {p : ParamBytes} (hp : d.heardAbort = some p) :
    d.proposingStep = d.abortHeard p := by rw [State.proposingStep, if_neg (by rw [h]; decide), hp]

theorem proposingStep_replaced (h : d.trial.request = .none) (hp : d.heardAbort = none) {c : TrialId × TrialParams}
    (hc : d.replacement = some c) : d.proposingStep = (d.writeOutcome .lost d.trial.id 0 c.1.proposer).adopt c := by
  rw [State.proposingStep, if_neg (by rw [h]; decide), hp, hc]

theorem proposingStep_unfit (h : d.trial.request = .none) (hp : d.heardAbort = none) (hc : d.replacement = none) {r : Reason}
    (hr : d.proposerUnfit = some r) : d.proposingStep = d.withdraw r.code d.station := by
  rw [State.proposingStep, if_neg (by rw [h]; decide), hp, hc, hr]

theorem proposingStep_refused (h : d.trial.request = .none) (hp : d.heardAbort = none) (hc : d.replacement = none)
    (hr : d.proposerUnfit = none) {u : Station} {code : Byte} (hu : d.heardRefusal = some (u, code)) :
    d.proposingStep = d.withdraw code u := by
  rw [State.proposingStep, if_neg (by rw [h]; decide), hp, hc, hr, hu]

theorem proposingStep_lost (h : d.trial.request = .none) (hp : d.heardAbort = none) (hc : d.replacement = none)
    (hr : d.proposerUnfit = none) (hu : d.heardRefusal = none) {u : Station} (hl : d.requiredLost = some u) :
    d.proposingStep = d.withdraw Reason.peerLost.code u := by
  rw [State.proposingStep, if_neg (by rw [h]; decide), hp, hc, hr, hu, hl]

theorem proposingStep_gathers (h : d.trial.request = .none) (hp : d.heardAbort = none) (hc : d.replacement = none)
    (hr : d.proposerUnfit = none) (hu : d.heardRefusal = none) (hl : d.requiredLost = none) :
    d.proposingStep = d.gatherAcceptances := by
  rw [State.proposingStep, if_neg (by rw [h]; decide), hp, hc, hr, hu, hl]

/-- A proposal with the acceptances of this boundary. -/
def State.gathered (d : State) : State := { d with trial := { d.trial with accepted := d.nowAccepted } }

theorem gatherAcceptances_eq (d : State) : d.gatherAcceptances =
    match d.gathered.unaccepted with
    | none => if 2 ≤ d.gathered.trial.count then d.gathered.setGo else d.gathered
    | some t => if 5 ≤ d.gathered.trial.count then d.gathered.withdraw Reason.noQuorum.code t else d.gathered := rfl

theorem gatherAcceptances_waits (h : (d.gathered.unaccepted = none ∧ d.trial.count < 2)
    ∨ (d.gathered.unaccepted ≠ none ∧ d.trial.count < 5)) : d.gatherAcceptances = d.gathered := by
  rw [gatherAcceptances_eq]
  rcases h with ⟨hu, hc⟩ | ⟨hu, hc⟩
  · rw [hu]
    exact if_neg (Nat.not_le.mpr hc)
  · obtain ⟨u, hu⟩ := Option.ne_none_iff_exists'.mp hu
    rw [hu]
    exact if_neg (Nat.not_le.mpr hc)

theorem gatherAcceptances_goes (hu : d.gathered.unaccepted = none) (hc : 2 ≤ d.trial.count) :
    d.gatherAcceptances = d.gathered.setGo := by
  rw [gatherAcceptances_eq, hu]
  exact if_pos hc

theorem gatherAcceptances_withdraws {u : Station} (hu : d.gathered.unaccepted = some u) (hc : 5 ≤ d.trial.count) :
    d.gatherAcceptances = d.gathered.withdraw Reason.noQuorum.code u := by
  rw [gatherAcceptances_eq, hu]
  exact if_pos hc

/-! ### An ACCEPTING record (R54, R55, R57 to R59) -/

theorem acceptingStep_requested (h : d.trial.request = .abort) : d.acceptingStep = d.dropClaim .requested := by
  rw [State.acceptingStep, if_pos h]

theorem acceptingStep_aborts (h : d.trial.request = .none) {p : ParamBytes} (hp : d.heardAbort = some p) :
    d.acceptingStep = d.abortHeard p := by
  rw [State.acceptingStep, if_neg (by rw [h]; decide), hp]

theorem acceptingStep_withdrawn (h : d.trial.request = .none) (hp : d.heardAbort = none) (hw : d.heardWithdrawal = true) :
    d.acceptingStep = d.dropClaim .withdrawn := by
  rw [State.acceptingStep, if_neg (by rw [h]; decide), hp]
  exact if_pos hw

/-- Without any ABORT heard, the record goes on. -/
theorem acceptingStep_goes (h : d.trial.request = .none) (hp : d.heardAborts = []) : d.acceptingStep = d.acceptingGoes := by
  have hnone : d.heardAbort = none := heardAbort_eq_none_iff.mpr (by simp [hp])
  have hw : d.heardWithdrawal = false := by rw [State.heardWithdrawal, hp]; rfl
  rw [State.acceptingStep, if_neg (by rw [h]; decide), hnone]
  exact if_neg (by rw [hw]; decide)

theorem acceptingGoes_go {g : Report} (hg : d.heardGo = some g) : d.acceptingGoes = d.takeGo g.params.d := by
  rw [State.acceptingGoes, hg]

theorem acceptingGoes_run (hg : d.heardGo = none) (hr : d.heardRun = true) :
    d.acceptingGoes = if d.isMember then d.abortOwn .missedGo else d.dropClaim .missedGo := by
  rw [State.acceptingGoes, hg]
  exact if_pos hr

theorem acceptingGoes_replaced (hg : d.heardGo = none) (hr : d.heardRun = false) {c : TrialId × TrialParams}
    (hc : d.replacement = some c) : d.acceptingGoes = d.adopt c := by
  rw [State.acceptingGoes, hg, hr, hc]
  rfl

theorem acceptingGoes_count (hg : d.heardGo = none) (hr : d.heardRun = false) (hc : d.replacement = none) :
    d.acceptingGoes = if 6 ≤ d.trial.count then d.dropClaim .lapsed else d := by
  rw [State.acceptingGoes, hg, hr, hc]
  rfl

/-! ### What a boundary leaves of a withdrawal, a dropped claim and an adopted one -/

theorem Decided.withdrawn {code : Byte} {u : Station} (h : Decided (d.withdraw code u) t) :
    t.trial.phase = .recovering ∧ t.trial.abortsOwed = 3
      ∧ t.trial.abortCause = Reason.withdrawn.code ∧ t.trial.abortOrigin = d.station ∧ t.trial.request = .none
      ∧ t.lastOutcome = { outcome := .withdrawn, id := d.trial.id, code := code, station := u } ∧ t.trim.manual = 0
      ∧ t.hasEvent .trialEnd = true ∧ t.ownReport.phase = .abort ∧ t.log.records = d.log.records := by
  have htrial : t.trial = (d.enterRecovering 3 Reason.withdrawn.code d.station).trial := h.trial.trans (withdraw_trial _ _ _)
  have hfields := h.fields (trialFields_of_owed rfl (by rw [rampTrims_trial, withdraw_trial, enterRecovering_trial]; exact (by decide : 3 ≠ 0)))
  rw [htrial]
  exact ⟨rfl, rfl, rfl, rfl, rfl, h.lastOutcome.trans (withdraw_lastOutcome _ _ _), h.manual,
    h.hasEvent (hasEvent_writeOutcome _ _ _ _ _), hfields.1, congrArg (·.records) h.log⟩

theorem Decided.dropped {code : Reason} (h : Decided (d.dropClaim code) t) :
    t.trial = TrialRecord.empty
      ∧ t.lastOutcome = { outcome := .dropped, id := d.trial.id, code := code.code, station := d.trial.id.proposer }
      ∧ t.hasEvent .trialEnd = true ∧ t.ownReport.phase = .none ∧ t.log.records = d.log.records :=
  ⟨h.trial, h.lastOutcome, h.hasEvent (hasEvent_writeOutcome _ _ _ _ _), (h.fields (trialFields_of_idle rfl)).1,
    congrArg (·.records) h.log⟩

theorem Decided.adopted {c : TrialId × TrialParams} (h : Decided (d.adopt c) t) :
    t.trial.phase = .accepting ∧ t.trial.id = c.1 ∧ t.trial.params = c.2
      ∧ t.trial.role = (if c.2.inSpan d.station then .member else .bystander) ∧ t.trial.count = 0
      ∧ t.trial.refusing = false ∧ t.lastOutcome = d.lastOutcome ∧ t.hasEvent .claimSeen = true
      ∧ t.log.records = d.log.records := by
  have htrial := h.trial
  rw [htrial]
  exact ⟨rfl, rfl, rfl, rfl, rfl, rfl, h.lastOutcome, h.hasEvent (hasEvent_adopt _ _), congrArg (·.records) h.log⟩

/-- An abort of a record that was not under way leaves the log. -/
theorem Decided.aborted_early {owed : Nat} {cause : Byte} {origin : Station} (h : Decided (d.abortTrial owed cause origin) t)
    (howed : owed ≠ 0) (hphase : d.trial.phase = .accepting ∨ d.trial.phase = .proposing) :
    t.trial.phase = .recovering ∧ t.trial.abortsOwed = owed ∧ t.trial.abortCause = cause ∧ t.trial.abortOrigin = origin
      ∧ t.lastOutcome = { outcome := .aborted, id := d.trial.id, code := cause, station := origin } ∧ t.trim.manual = 0
      ∧ t.trim.trialTarget = none ∧ t.trim.shiftTarget = 0 ∧ t.trim.cls = .recovery ∧ t.hasEvent .trialEnd = true
      ∧ t.ownReport.phase = .abort ∧ t.log.records = d.log.records := by
  obtain ⟨h1, h2, h3, h4, -, h6, h7, h8, h9, h10, h11, h12⟩ := h.aborted howed
  have huw : d.underWay = false := by rcases hphase with hp | hp <;> simp [State.underWay, hp]
  exact ⟨h1, h2, h3, h4, h6, h7, h8, h9, h10, h11, h12, congrArg (·.records) (h.aborted_log_kept (.inr (.inl huw))).1⟩

/-! ### What an ACCEPTING record answers (R47, R52) -/

theorem trialFields_of_bystander (h : s.trial.phase = .accepting) (hr : s.trial.role = .bystander) :
    s.trialFields = noTrialFields := by
  rw [State.trialFields, h]
  exact if_pos hr

theorem trialFields_of_member (h : s.trial.phase = .accepting) (hr : s.trial.role = .member) :
    s.trialFields = s.memberAnswer := by
  rw [State.trialFields, h]
  exact if_neg (by rw [hr]; decide)

theorem memberAnswer_of_reason {r : Reason} (h : s.ineligible s.trim.applied = some r) :
    s.memberAnswer = (.refuse, s.trial.id, ⟨r.code, 0, 0, 0⟩) := by rw [State.memberAnswer, h]

theorem memberAnswer_of_refusing (h : s.ineligible s.trim.applied = none) (hr : s.trial.refusing = true) :
    s.memberAnswer = (.refuse, s.trial.id, ⟨Reason.requested.code, 0, 0, 0⟩) := by
  rw [State.memberAnswer, h]
  exact if_pos hr

theorem memberAnswer_of_eligible (h : s.ineligible s.trim.applied = none) (hr : s.trial.refusing = false) :
    s.memberAnswer = (.accept, s.trial.id, s.trial.params.claimBytes) := by
  rw [State.memberAnswer, h]
  exact if_neg (by rw [hr]; decide)

/-- The eligibility table of a claim, in terms of the state that the boundary leaves but for the break, whose mark it clears,
the entries and the limits. -/
def answerTable (brk : Break) (entry : Station → Entry) (station : Station) (cfg : ConfigRecord)
    (c : TrialId × TrialParams) (t : State) : List (Reason × Prop) :=
  let ready := (channels.filter fun m => Decidable.decide (t.chans.get m = .ready)).length
  let atTarget := c.2.target = station
  [ (.brk, brk.latch = true ∨ brk.mark = true),
    (.busy, ∃ u : Station, u ≠ station ∧ (entry u).presence = .present
      ∧ ((entry u).report.phase = .go ∨ (entry u).report.phase = .run) ∧ (entry u).report.id ≠ c.1),
    (.drives, (∃ (m : Channel) (f : FaultCause), t.chans.get m = .faulted f) ∨ ready = 0
      ∨ (c.2.kind = .shareStep ∧ atTarget ∧ (t.chans.get c.2.drive ≠ .ready ∨ ready < 2))),
    (.notNeutral, t.trim.manual ≠ 0 ∨ t.trim.applied ≠ 0),
    (.logSpace, 256 - t.log.records.length < 8 + c.2.duration + 1),
    (.draw, t.draw.alarm = true),
    (.invalid, atTarget ∧ ((c.2.kind = .drawStep ∧ cfg.trimLimit < c.2.step.natAbs)
      ∨ (c.2.kind = .shareStep ∧ cfg.shareTrimLimit < c.2.step.natAbs))) ]

/-- The report's table is the eligibility table of the state that the report is built on. -/
theorem Decided.answerTable (h : Decided e t) : e.rampTrims.eligibility e.rampTrims.trim.applied =
    Machine.answerTable e.brk e.entry e.station e.cfg (e.trial.id, e.trial.params) t := by
  simp only [Machine.answerTable, h.chans, h.manual, h.applied, h.log, h.draw]
  rfl

/-- A member's answer: the first reason of the table, else its refusal by request, else ACCEPT. -/
theorem Decided.answered {id : TrialId} {p : TrialParams} {refusing : Bool} (h : Decided e t) (hphase : e.trial.phase = .accepting)
    (hrole : e.trial.role = .member) (hid : e.trial.id = id) (hparams : e.trial.params = p)
    (hrefusing : e.trial.refusing = refusing) {table : List (Reason × Prop)}
    (htable : Machine.answerTable e.brk e.entry e.station e.cfg (id, p) t = table) :
    ((∀ x ∈ table, ¬x.2) →
        (refusing = true →
          t.ownReport.phase = .refuse ∧ t.ownReport.id = id ∧ t.ownReport.params = ⟨Reason.requested.code, 0, 0, 0⟩)
        ∧ (refusing = false → t.ownReport.phase = .accept ∧ t.ownReport.id = id ∧ t.ownReport.params = p.claimBytes))
      ∧ (∀ (earlier later : List (Reason × Prop)) (x : Reason × Prop), table = earlier ++ x :: later → x.2 →
          (∀ y ∈ earlier, ¬y.2) →
          t.ownReport.phase = .refuse ∧ t.ownReport.id = id ∧ t.ownReport.params = ⟨x.1.code, 0, 0, 0⟩) := by
  subst hid hparams hrefusing
  have hfirst := ineligible_first e.rampTrims e.rampTrims.trim.applied
  rw [h.answerTable, htable] at hfirst
  have hanswer : e.rampTrims.trialFields = e.rampTrims.memberAnswer := trialFields_of_member hphase hrole
  refine ⟨fun hnone => ⟨fun hr => ?_, fun hr => ?_⟩, fun earlier later x ht hx hnone => ?_⟩
  · exact h.fields (hanswer.trans (memberAnswer_of_refusing (hfirst.eq_none hnone) hr))
  · exact h.fields (hanswer.trans (memberAnswer_of_eligible (hfirst.eq_none hnone) hr))
  · exact h.fields (hanswer.trans (memberAnswer_of_reason (hfirst.eq_some ht hx hnone)))

end

end Sys2Proof.Machine
end

section
/-! PROOFS. A GO taken by an ACCEPTING record (R58, R60, R63), and the refusals that a boundary still hears at its end. -/

namespace Sys2Proof.Machine

section

variable {s d e t : State} {n : BitVec 8} {start : BitVec 8}

/-! ### A GO by its distance (R58) -/

theorem takeGo_far (h : 3 ≤ d.startDistance start) : d.takeGo start = (d.scheduledFor start).abortOwn .missedGo := by
  rcases takeGo_cases d start with ⟨-, hgo⟩ | ⟨hnear, -⟩ | ⟨hnear, -⟩
  · exact hgo
  · omega
  · omega

theorem takeGo_unready (h : d.startDistance start < 3) (hm : d.isMember = true) (hu : d.unreadyFor start) :
    d.takeGo start = (d.scheduledFor start).abortOwn .notReady := by
  rcases takeGo_cases d start with ⟨hfar, -⟩ | ⟨-, -, -, hgo⟩ | ⟨-, hready, -⟩
  · omega
  · exact hgo
  · exact absurd hu (hready hm)

theorem takeGo_waits (h : d.startDistance start = 1 ∨ d.startDistance start = 2)
    (hready : ¬(d.isMember = true ∧ d.unreadyFor start)) : d.takeGo start = d.scheduledFor start := by
  rcases takeGo_cases d start with ⟨hfar, -⟩ | ⟨-, hm, hu, -⟩ | ⟨-, -, ⟨hnow, -⟩ | ⟨-, hgo⟩⟩
  · omega
  · exact absurd ⟨hm, hu⟩ hready
  · omega
  · exact hgo

theorem takeGo_starts (h : d.startDistance start = 0) (hready : ¬(d.isMember = true ∧ d.unreadyFor start))
    (habort : (d.scheduledFor start).abortCondition = none) : d.takeGo start = (d.scheduledFor start).startTrial := by
  rcases takeGo_cases d start with ⟨hfar, -⟩ | ⟨-, hm, hu, -⟩ | ⟨-, -, ⟨-, ⟨r, hr, -⟩ | ⟨-, hgo⟩⟩ | ⟨hlater, -⟩⟩
  · omega
  · exact absurd ⟨hm, hu⟩ hready
  · rw [habort] at hr; cases hr
  · exact hgo
  · exact absurd h hlater

/-- A member that is eligible has no FAULTED channel. -/
theorem not_faulted_of_eligible {applied : Int} (h : d.ineligible applied = none) :
    ¬∃ (m : Channel) (c : FaultCause), d.chans.get m = .faulted c := by
  have hrow := (ineligible_first d applied).of_eq_none h
  simp only [State.eligibility, List.forall_mem_append, List.forall_mem_cons] at hrow
  obtain ⟨-, hdrives, -⟩ := hrow
  exact fun hf => hdrives (.inl hf)

/-- At the boundary of the start, a record just scheduled with its sets taken afresh meets no abort condition but those of the
request, the break and the hard window. -/
theorem abortCondition_scheduledFor (hd : d.startDistance start = 0) (hready : ¬(d.isMember = true ∧ d.unreadyFor start))
    (hrequest : d.trial.request = .none) (hbrk : d.brk = { latch := false, mark := false })
    (hhard : d.isMember = true → d.draw.hard = false) : (d.scheduledFor start).abortCondition = none := by
  have hstart : start = d.round.number := by
    rw [State.startDistance] at hd
    bv_omega
  have hmember : (d.scheduledFor start).isMember = d.isMember := isMember_of_trial rfl rfl
  refine (abortCondition_first _).eq_none ?_
  simp only [State.abortTable, List.forall_mem_cons, hmember]
  refine ⟨?_, ?_, ?_, ?_, ?_, ?_, by simp⟩
  · rw [show (d.scheduledFor start).trial.request = d.trial.request from rfl, hrequest]
    decide
  · rw [show (d.scheduledFor start).brk = d.brk from rfl, hbrk]
    decide
  · rintro ⟨hm, hfault | ⟨m, hset, hnot⟩⟩
    · refine hready ⟨hm, .inl (Option.isSome_iff_ne_none.mpr fun hnone => not_faulted_of_eligible hnone hfault)⟩
    · have hreadySet : (d.scheduledFor start).trial.readySet = channelSet d.ready := if_pos hm
      rw [hreadySet, channelSet_getLsbD] at hset
      exact hnot (of_decide_eq_true hset)
  · rintro ⟨hm, hh⟩
    exact Bool.false_ne_true ((hhard hm).symm.trans hh)
  · rintro ⟨u, hset, hnot⟩
    have hwatched : (d.scheduledFor start).trial.watched =
        stationSet fun t => d.trial.params.inSpan t && Decidable.decide ((d.entry t).presence = .present) := rfl
    rw [hwatched, stationSet_getLsbD, Bool.and_eq_true] at hset
    exact hnot (of_decide_eq_true hset.2)
  · rintro ⟨-, -, hpassed⟩
    exact Nat.lt_irrefl _ (hstart ▸ hpassed)

/-! ### The refusals heard at the end of the boundary (R56) -/

/-- What a boundary leaves of the entries lets no station refuse that did not refuse at the decision. -/
theorem heardRefusal_eq_none_of (hrequired : t.trial.required = d.trial.required) (hid : t.trial.id = d.trial.id)
    (hstation : t.station = d.station)
    (hentry : ∀ u : Station, u ≠ d.station → t.entry u = d.entry u ∨ (t.entry u).presence = .absent)
    (h : d.heardRefusal = none) : t.heardRefusal = none := by
  refine List.findSome?_eq_none_iff.mpr fun u hu => ?_
  have hd : d.refusalOf u = none := List.findSome?_eq_none_iff.mp h u hu
  refine Option.eq_none_iff_forall_ne_some.mpr fun ⟨v, code⟩ ht => ?_
  obtain ⟨⟨hset, r, ⟨hne, hpresent, hmiss, hreport⟩, hphase, htracked⟩, -⟩ := refusalOf_eq_some_iff.mp ht
  rw [hstation] at hne
  have hsame : t.entry u = d.entry u := (hentry u hne).resolve_right (by rw [hpresent]; decide)
  rw [hsame] at hpresent hmiss hreport
  have hears : d.hearsFor u .refuse r := ⟨⟨hne, hpresent, hmiss, hreport⟩, hphase, htracked.trans hid⟩
  have hsome := refusalOf_eq_some_iff.mpr ⟨⟨hrequired ▸ hset, r, hears⟩, rfl, rfl⟩
  rw [hd] at hsome
  cases hsome

/-! ### What a boundary leaves of an abort at the GO (R58, R65) -/

theorem Decided.aborted_atGo {cause : Reason} (h : Decided ((d.scheduledFor start).abortOwn cause) t) :
    t.trial.phase = .recovering ∧ t.trial.abortsOwed = 3 ∧ t.trial.abortCause = cause.code ∧ t.trial.abortOrigin = d.station
      ∧ t.lastOutcome = { outcome := .aborted, id := d.trial.id, code := cause.code, station := d.station }
      ∧ t.trim.manual = 0 ∧ t.trim.trialTarget = none ∧ t.trim.shiftTarget = 0 ∧ t.trim.cls = .recovery
      ∧ t.hasEvent .trialEnd = true ∧ t.ownReport.phase = .abort
      ∧ (d.isMember = true → d.log.records.length < 256 →
          t.log.records = d.log.records
              ++ [{ seq := d.log.counter, type := .close, id := d.trial.id, sample := t.log.last
                    outcome := .aborted, cause := cause.code, origin := d.station }]
            ∧ t.log.counter = d.log.counter + 1 ∧ t.hasEvent .logClosed = true)
      ∧ (d.isMember = false ∨ 256 ≤ d.log.records.length →
          t.log.records = d.log.records ∧ t.log.counter = d.log.counter ∧ t.hasEvent .logClosed = d.hasEvent .logClosed) := by
  have hmember : (d.scheduledFor start).isMember = d.isMember := isMember_of_trial rfl rfl
  obtain ⟨h1, h2, h3, h4, -, h6, h7, h8, h9, h10, h11, h12⟩ := Decided.aborted h (by decide)
  refine ⟨h1, h2, h3, h4, h6, h7, h8, h9, h10, h11, h12, fun hm hroom => ?_, fun hno => ?_⟩
  · obtain ⟨hlog, hclosed⟩ := Decided.aborted_log h (hmember.trans hm) (underWay_of (.inl rfl)) hroom
    rw [hlog]
    exact ⟨rfl, rfl, hclosed⟩
  · obtain ⟨hlog, hclosed⟩ := Decided.aborted_log_kept h (hno.imp hmember.trans .inr)
    rw [hlog]
    exact ⟨rfl, rfl, hclosed⟩

end

end Sys2Proof.Machine
end

section
/-! PROOFS. The ends of claims and proposals at a boundary (R50 to R59). -/

namespace Sys2Proof.Machine

section

variable {s d t : State} {n : BitVec 8}

/-! ### An IDLE record that adopts a claim (R51) -/

/-- The decision of an IDLE record without a request on the lowest claim heard. -/
theorem decidePhase_adopts (hphase : d.trial.phase = .idle) (hrequest : d.trial.request = .none)
    (hlink : d.link.state = .active) {c : TrialId × TrialParams} {rest : List (TrialId × TrialParams)}
    (hc : d.heardClaims = c :: rest) : d.decidePhase = d.adopt c := by
  rw [State.decidePhase, hphase]
  dsimp only
  rw [State.idleStep, hrequest]
  exact adoptHeard_of_claim hc hlink (by simp [State.trialIdle, hphase, hrequest])

/-- An adopted claim whose span does not hold the node is not answered. -/
theorem Decided.adopted_silent {c : TrialId × TrialParams} (h : Decided (d.adopt c) t) (hout : c.2.inSpan d.station = false) :
    t.ownReport.phase = .none ∧ t.ownReport.id = TrialId.zero ∧ t.ownReport.params = ⟨0, 0, 0, 0⟩ :=
  h.fields (trialFields_of_bystander rfl (by
    show (if c.2.inSpan d.station = true then Role.member else Role.bystander) = .bystander
    rw [hout]; rfl))

/-! ### A GO set and a GO taken (R56, R58) -/

/-- What a boundary leaves of a proposal that has set GO. -/
theorem Decided.goes (h : Decided d.gathered.setGo t) (hf : Found s d n) :
    t.trial.phase = .scheduled ∧ t.trial.startRound = n + 2
      ∧ t.trial.watched = s.trial.required ∧ t.trial.id = s.trial.id ∧ t.trial.params = s.trial.params
      ∧ t.trial.readySet = (if s.isMember then channelSet fun m => Decidable.decide (t.chans.get m = .ready) else 0)
      ∧ (s.trial.role = .proposer ∨ s.trial.role = .proposerMember →
          t.ownReport.phase = .go ∧ t.ownReport.params.d = n + 2)
      ∧ t.lastOutcome = s.lastOutcome ∧ t.log.records = d.log.records := by
  have hstart : d.gathered.setGo.trial.startRound = n + 2 := congrArg (· + 2) hf.number
  have hmember : d.gathered.isMember = s.isMember := (isMember_of_trial rfl rfl).trans hf.isMember
  have hready : d.gathered.setGo.trial.readySet = if d.gathered.isMember then d.gathered.readySet else 0 := rfl
  have hchans : t.chans = d.chans := h.chans
  rw [h.trial, hchans]
  refine ⟨rfl, hstart, hf.required, hf.id, hf.params, ?_, fun hrole => ?_, h.lastOutcome.trans hf.lastOutcome,
    congrArg (·.records) h.log⟩
  · rw [hready, hmember]
    rfl
  · obtain ⟨hreport, -, hparams⟩ := h.fields (trialFields_of_go rfl (hrole.imp hf.role.trans hf.role.trans))
    exact ⟨hreport, by rw [hparams]; exact hstart⟩

/-- What a boundary leaves of a record that waits for the start round of a GO taken. -/
theorem Decided.scheduled {start : BitVec 8} (h : Decided (d.scheduledFor start) t) (hf : Found s d n) :
    t.trial.phase = .scheduled ∧ t.trial.startRound = start
      ∧ t.trial.watched = (stationSet fun u => s.trial.params.inSpan u && Decidable.decide ((d.entry u).presence = .present))
      ∧ t.trial.readySet = (if s.isMember then channelSet fun m => Decidable.decide (t.chans.get m = .ready) else 0)
      ∧ t.trial.id = s.trial.id ∧ t.trial.params = s.trial.params ∧ t.lastOutcome = s.lastOutcome
      ∧ t.log.records = d.log.records := by
  have hwatched : (d.scheduledFor start).trial.watched =
      stationSet fun u => d.trial.params.inSpan u && Decidable.decide ((d.entry u).presence = .present) := rfl
  have hready : (d.scheduledFor start).trial.readySet = if d.isMember then d.readySet else 0 := rfl
  have hchans : t.chans = d.chans := h.chans
  rw [h.trial, hchans]
  refine ⟨rfl, rfl, ?_, ?_, hf.id, hf.params, h.lastOutcome.trans hf.lastOutcome, congrArg (·.records) h.log⟩
  · rw [hwatched, hf.params]
  · rw [hready, hf.isMember]
    rfl

/-- A GO is taken unready by the state that the boundary finds. -/
theorem Found.unready_iff (hf : Found s d n) (start : BitVec 8) : (d.isMember = true ∧ d.unreadyFor start) ↔
    (s.isMember = true ∧ ((d.ineligible (if (start - n).toNat = 0 then s.trim.applied else d.rampedTrim)).isSome = true
      ∨ s.trial.refusing = true ∨ s.ownReport.phase = .refuse)) := by
  rw [State.unreadyFor, State.startDistance, hf.isMember, hf.number, hf.trim, hf.refusing, hf.ownReport]

theorem advance_logClosed (s : State) (after : Wait) : (s.advance after).hasEvent .logClosed = s.hasEvent .logClosed := by
  rcases advance_cases s after with h | ⟨f, -, -, -, h⟩ <;> rw [h]
  · rfl
  · exact linkErrorIf_logClosed _ _ _

/-! ### The boundary of an event, by the state that the controller decided on -/

/-- The boundary of the event leaves the decision `e`, by its own command and by a row that comes about in it. -/
def State.boundaryTakes (s : State) (after : Wait) (b : BoundaryEvent) (e t : State) : Prop :=
  exec (boundaryCommand after b) s = .next t ∧ Decided e t
    ∧ ∀ (cmd : Instr) (row : State → State → Bool), exec cmd s = .next ((s.advance after).whenComesAbout b row) →
        row (s.advance after) t = true → exec cmd s = .next t

variable {after : Wait} {b : BoundaryEvent} {k : BoundaryKind}

theorem boundaryTakes_decision (hb : (s.advance after).boundaryOf b = some (k, n)) (h : s.trial.phase ≠ .recovering)
    (hd : ((s.advance after).decisionAt b k n).decidePhase = e) : ∃ t, s.boundaryTakes after b e t := by
  subst hd
  exact exec_decided hb h

/-- The withdrawal of a proposal in the terms of the state that the boundary finds. -/
theorem Found.withdrawn (hf : Found s d n) {u : State} (hid : u.trial.id = d.trial.id) (hstation : u.station = d.station)
    (hlog : u.log = d.log) {code : Byte} {v : Station} (h : ∃ t, s.boundaryTakes after b (u.withdraw code v) t) :
    ∃ t, exec (boundaryCommand after b) s = .next t ∧ t.trial.phase = .recovering ∧ t.trial.abortsOwed = 3
        ∧ t.trial.abortCause = Reason.withdrawn.code ∧ t.trial.abortOrigin = s.station ∧ t.trial.request = .none
        ∧ t.lastOutcome = { outcome := .withdrawn, id := s.trial.id, code := code, station := v } ∧ t.trim.manual = 0
        ∧ t.hasEvent .trialEnd = true ∧ t.ownReport.phase = .abort ∧ t.log.records = d.log.records := by
  obtain ⟨t, hrun, hdecided, -⟩ := h
  have hends := hdecided.withdrawn
  rw [hid, hstation, hlog, hf.id, hf.station] at hends
  exact ⟨t, hrun, hends⟩

theorem Found.dropped (hf : Found s d n) {code : Reason} (h : ∃ t, s.boundaryTakes after b (d.dropClaim code) t) :
    ∃ t, exec (boundaryCommand after b) s = .next t ∧ t.trial = TrialRecord.empty
        ∧ t.lastOutcome = { outcome := .dropped, id := s.trial.id, code := code.code, station := s.trial.id.proposer }
        ∧ t.hasEvent .trialEnd = true ∧ t.ownReport.phase = .none ∧ t.log.records = d.log.records := by
  obtain ⟨t, hrun, hdecided, -⟩ := h
  have hends := hdecided.dropped
  rw [hf.id] at hends
  exact ⟨t, hrun, hends⟩

theorem Found.ended (hf : Found s d n) (hphase : d.trial.phase = .accepting ∨ d.trial.phase = .proposing) {owed : Nat}
    {cause : Byte} {origin : Station} (howed : owed ≠ 0) (h : ∃ t, s.boundaryTakes after b (d.abortTrial owed cause origin) t) :
    ∃ t, exec (boundaryCommand after b) s = .next t ∧ t.trial.phase = .recovering ∧ t.trial.abortsOwed = owed
        ∧ t.trial.abortCause = cause ∧ t.trial.abortOrigin = origin
        ∧ t.lastOutcome = { outcome := .aborted, id := s.trial.id, code := cause, station := origin } ∧ t.trim.manual = 0
        ∧ t.trim.trialTarget = none ∧ t.trim.shiftTarget = 0 ∧ t.trim.cls = .recovery ∧ t.hasEvent .trialEnd = true
        ∧ t.ownReport.phase = .abort ∧ t.log.records = d.log.records := by
  obtain ⟨t, hrun, hdecided, -⟩ := h
  have hends := hdecided.aborted_early howed hphase
  rw [hf.id] at hends
  exact ⟨t, hrun, hends⟩

theorem Found.turned (hf : Found s d n) {u : State} (hstation : u.station = d.station) (hlog : u.log = d.log)
    {c : TrialId × TrialParams} (h : ∃ t, s.boundaryTakes after b (u.adopt c) t) :
    ∃ t, exec (boundaryCommand after b) s = .next t ∧ t.trial.phase = .accepting ∧ t.trial.id = c.1 ∧ t.trial.params = c.2
        ∧ t.trial.role = (if c.2.inSpan s.station then .member else .bystander) ∧ t.trial.count = 0
        ∧ t.trial.refusing = false ∧ t.lastOutcome = u.lastOutcome ∧ t.hasEvent .claimSeen = true
        ∧ t.log.records = d.log.records := by
  obtain ⟨t, hrun, hdecided, -⟩ := h
  have hturns := hdecided.adopted
  rw [hstation, hlog, hf.station] at hturns
  exact ⟨t, hrun, hturns⟩

end

/-- Settles O42: each item by its branch of the decision and by what a boundary leaves of it. -/
theorem claimsLapseAndProposalsEnd : Obligations.ClaimsLapseAndProposalsEnd := by
  intro after b k n s a d gathered boundary withdrawn dropped ended turned silent reasons refuses answered hb
  have htakes : ∀ e, s.trial.phase ≠ .recovering → d.decidePhase = e → ∃ t, s.boundaryTakes after b e t := fun e => boundaryTakes_decision hb
  have hfound : s.trial.phase ≠ .idle → Found s d n := found_decisionAt after b k n
  have hevents : s.trial.linkCloseOwed = false →
      d.log.records = s.log.records ∧ d.log.counter = s.log.counter ∧ d.hasEvent .logClosed = s.hasEvent .logClosed := fun howed => by
    obtain ⟨hrecords, hcounter, hclosed⟩ := decisionAt_log_of_not_owed a b k n (by rw [advance_trial]; exact howed)
    exact ⟨by rw [hrecords, advance_log], by rw [hcounter, advance_log], hclosed.trans (advance_logClosed s after)⟩
  have hidle : s.trial.phase = .idle → d.trial.phase = .idle ∧ d.trial.request = s.trial.request ∧ d.station = s.station
      ∧ d.cfg = s.cfg ∧ d.brk = s.brk := fun hp => by
    refine ⟨?_, ?_, by simp [d, a], cfg_of_config (by simp [d, a]), by simp [d, a]⟩
    · rw [decisionAt_trial_eq, advance_trial]; exact hp
    · rw [decisionAt_trial_eq, advance_trial]
  clear_value d
  have hproposing : s.trial.phase = .proposing → Found s d n ∧ d.trial.phase = .proposing
      ∧ ∀ e, d.proposingStep = e → ∃ t, s.boundaryTakes after b e t := fun hp => by
    have hf := hfound (by rw [hp]; decide)
    have hphase := hf.phase.trans hp
    exact ⟨hf, hphase, fun e he => htakes e (by rw [hp]; decide) ((decidePhase_of_proposing hphase).trans he)⟩
  have haccepting : s.trial.phase = .accepting → Found s d n ∧ d.trial.phase = .accepting
      ∧ ∀ e, d.acceptingStep = e → ∃ t, s.boundaryTakes after b e t := fun hp => by
    have hf := hfound (by rw [hp]; decide)
    have hphase := hf.phase.trans hp
    exact ⟨hf, hphase, fun e he => htakes e (by rw [hp]; decide) ((decidePhase_of_accepting hphase).trans he)⟩
  refine ⟨hevents, fun hp hq => ?_, fun hp hq => ?_, fun hq => ⟨fun x hp hx => ?_, fun hp hx hw => ?_, fun hp hx hg hr => ?_,
    fun c hp hx hg hr hc => ?_, fun c hp hx hc => ?_, fun hp hx hc => ⟨fun r hr => ?_, fun hfit => ⟨fun u code hu => ?_,
    fun u hu hl => ?_, fun hu hl hwants => ?_⟩⟩, fun hp hcount hx hg hr hc => ?_, fun hp hcount hx hg hr hc => ?_,
    fun u hp hcount hx hc hfit hu hl hwant => ?_, fun hp hcount hx hc hfit hu hl hall => ?_, fun g hp hx hg => ?_,
    fun c rest hp hlink hc => ?_⟩⟩
  · obtain ⟨hf, -, htaken⟩ := hproposing hp
    have hends := hf.withdrawn rfl rfl rfl (htaken _ (proposingStep_requested (hf.request.trans hq)))
    rw [hf.station] at hends
    exact hends
  · obtain ⟨hf, -, htaken⟩ := haccepting hp
    exact hf.dropped (htaken _ (acceptingStep_requested (hf.request.trans hq)))
  · rcases hp with hp | hp
    · obtain ⟨hf, hphase, htaken⟩ := haccepting hp
      exact hf.ended (.inl hphase) (by decide) (htaken _ (acceptingStep_aborts (hf.request.trans hq) hx))
    · obtain ⟨hf, hphase, htaken⟩ := hproposing hp
      exact hf.ended (.inr hphase) (by decide) (htaken _ (proposingStep_of_none (hf.request.trans hq) hx))
  · obtain ⟨hf, -, htaken⟩ := haccepting hp
    exact hf.dropped (htaken _ (acceptingStep_withdrawn (hf.request.trans hq) hx hw))
  · obtain ⟨hf, hphase, htaken⟩ := haccepting hp
    have hstep := (acceptingStep_goes (hf.request.trans hq) hx).trans (acceptingGoes_run hg hr)
    rw [hf.isMember] at hstep
    refine ⟨fun hm => ?_, fun hm => ?_⟩
    · rw [if_pos hm, State.abortOwn, hf.station] at hstep
      exact hf.ended (.inl hphase) (by decide) (htaken _ hstep)
    · rw [if_neg (by rw [hm]; decide)] at hstep
      exact hf.dropped (htaken _ hstep)
  · obtain ⟨hf, -, htaken⟩ := haccepting hp
    have hturns := hf.turned rfl rfl (htaken _ ((acceptingStep_goes (hf.request.trans hq) hx).trans
      (acceptingGoes_replaced hg hr hc)))
    rw [hf.lastOutcome] at hturns
    exact hturns
  · obtain ⟨hf, -, htaken⟩ := hproposing hp
    have htook := htaken _ (proposingStep_replaced (hf.request.trans hq) hx hc)
    have hturns := hf.turned (u := d.writeOutcome .lost d.trial.id 0 c.1.proposer) rfl rfl htook
    have hlast : (d.writeOutcome .lost d.trial.id 0 c.1.proposer).lastOutcome =
        { outcome := .lost, id := s.trial.id, code := 0, station := c.1.proposer } := by rw [← hf.id]; rfl
    rw [hlast] at hturns
    obtain ⟨t, hrun, hdecided, -⟩ := htook
    exact ⟨hturns, t, hrun, hdecided.hasEvent (hasEvent_adopt_of_ne (by decide) c (hasEvent_writeOutcome _ _ _ _ _))⟩
  · obtain ⟨hf, -, htaken⟩ := hproposing hp
    have hends := hf.withdrawn rfl rfl rfl (htaken _ (proposingStep_unfit (hf.request.trans hq) hx hc hr))
    rw [hf.station] at hends
    exact hends
  · obtain ⟨hf, -, htaken⟩ := hproposing hp
    exact hf.withdrawn rfl rfl rfl (htaken _ (proposingStep_refused (hf.request.trans hq) hx hc hfit hu))
  · obtain ⟨hf, -, htaken⟩ := hproposing hp
    exact hf.withdrawn rfl rfl rfl (htaken _ (proposingStep_lost (hf.request.trans hq) hx hc hfit hu hl))
  · obtain ⟨hf, hphase, htaken⟩ := hproposing hp
    have hcount := hf.count
    obtain ⟨t, hrun, hdecided, -⟩ := htaken _ ((proposingStep_gathers (hf.request.trans hq) hx hc hfit hu hl).trans
      (gatherAcceptances_waits (hwants.imp (fun h => ⟨h.1, by omega⟩) fun h => ⟨h.1, by omega⟩)))
    obtain ⟨hreport, hid, hparams⟩ := hdecided.fields (trialFields_of_proposing hphase)
    exact ⟨t, hrun, hdecided.trial, hdecided.lastOutcome.trans hf.lastOutcome, hreport, hid.trans hf.id,
      hparams.trans (congrArg TrialParams.claimBytes hf.params), congrArg (·.records) hdecided.log⟩
  · obtain ⟨hf, -, htaken⟩ := haccepting hp
    have hsix := hf.count
    have hstep := (acceptingStep_goes (hf.request.trans hq) hx).trans (acceptingGoes_count hg hr hc)
    rw [if_pos (by omega)] at hstep
    obtain ⟨t, -, hdecided, hrow⟩ := htaken _ hstep
    obtain ⟨htrial, hlast, hend, hreport, -⟩ := hdecided.dropped
    rw [hf.id] at hlast
    exact ⟨t, hrow _ _ rfl (by simp [hp, htrial, hlast, TrialRecord.empty]), htrial, hlast, hend, hreport⟩
  · obtain ⟨hf, hphase, htaken⟩ := haccepting hp
    have hless := hf.count
    have hstep := (acceptingStep_goes (hf.request.trans hq) hx).trans (acceptingGoes_count hg hr hc)
    rw [if_neg (by omega)] at hstep
    obtain ⟨t, hrun, hdecided, -⟩ := htaken _ hstep
    exact ⟨t, hrun, hdecided.trial, hdecided.lastOutcome.trans hf.lastOutcome, congrArg (·.records) hdecided.log,
      fun hrole => hdecided.fields (trialFields_of_bystander hphase (hf.role.trans hrole)),
      fun hrole => hdecided.answered hphase (hf.role.trans hrole) hf.id hf.params hf.refusing
        (by rw [hf.brk, hf.station, hf.cfg]; rfl)⟩
  · obtain ⟨hf, -, htaken⟩ := hproposing hp
    have hfive := hf.count
    obtain ⟨t, hrun, hdecided, hrow⟩ := htaken _ ((proposingStep_gathers (hf.request.trans hq) hx hc hfit hu hl).trans
      (gatherAcceptances_withdraws hwant (by omega)))
    have hrefusal : t.heardRefusal = none := heardRefusal_eq_none_of (congrArg (·.required) hdecided.trial)
      (congrArg (·.id) hdecided.trial) hdecided.station hdecided.entry hu
    obtain ⟨hphase, howed, hcause, horigin, -, hlast, hmanual, hend, hreport, hrecords⟩ := hdecided.withdrawn
    have hid : d.gathered.trial.id = s.trial.id := hf.id
    rw [hid] at hlast
    exact ⟨t, hrow _ _ rfl (by simp [hp, hphase, hlast, hrefusal]), hphase, howed, hcause, horigin.trans hf.station, hlast,
      hmanual, hend, hreport, hrecords⟩
  · obtain ⟨hf, -, htaken⟩ := hproposing hp
    have htwo := hf.count
    obtain ⟨t, hrun, hdecided, -⟩ := htaken _ ((proposingStep_gathers (hf.request.trans hq) hx hc hfit hu hl).trans
      (gatherAcceptances_goes hall (by omega)))
    exact ⟨t, hrun, hdecided.goes hf⟩
  · obtain ⟨hf, -, htaken⟩ := haccepting hp
    intro distance unfit aborted
    have hstep := (acceptingStep_goes (hf.request.trans hq) hx).trans (acceptingGoes_go hg)
    have hdistance : d.startDistance g.params.d = distance := by rw [State.startDistance, hf.number]
    have hunfit : (d.isMember = true ∧ d.unreadyFor g.params.d) ↔ unfit := hf.unready_iff g.params.d
    have haborted : ∀ cause, d.takeGo g.params.d = (d.scheduledFor g.params.d).abortOwn cause →
        ∃ t, exec boundary s = .next t ∧ aborted cause t := fun cause h => by
      obtain ⟨t, hrun, hdecided, -⟩ := htaken _ (hstep.trans h)
      have hends := hdecided.aborted_atGo
      rw [hf.station, hf.id, hf.isMember] at hends
      exact ⟨t, hrun, hends⟩
    refine ⟨fun hwait hready => ?_, fun hnow hready hbrk hhard => ?_, fun hfar => ?_, fun hnear hbad => ?_⟩
    · obtain ⟨t, hrun, hdecided, -⟩ := htaken _ (hstep.trans (takeGo_waits (by rwa [hdistance]) (mt hunfit.mp hready)))
      exact ⟨t, hrun, hdecided.scheduled hf⟩
    · have hzero : d.startDistance g.params.d = 0 := hdistance.trans hnow
      have hfit := mt hunfit.mp hready
      obtain ⟨t, -, hdecided, hrow⟩ := htaken _ (hstep.trans (takeGo_starts hzero hfit (abortCondition_scheduledFor hzero hfit
        (hf.request.trans hq) (hf.brk.trans hbrk) fun hm => hhard (hf.isMember.symm.trans hm))))
      have htrial := hdecided.trial.trans (startTrial_trial _)
      have hrunning : t.trial.phase = .running := by rw [htrial]
      exact ⟨t, hrow _ _ rfl (by simp [hp, hrunning]), hrunning, by rw [htrial]; exact congrArg (·.duration) hf.params,
        hdecided.hasEvent (startTrial_hasEvent _),
        (hdecided.fields (trialFields_of_running (by rw [rampTrims_trial, startTrial_trial]))).1⟩
    · exact haborted _ (takeGo_far (by omega))
    · obtain ⟨hm, hu⟩ := hunfit.mpr hbad
      exact haborted _ (takeGo_unready (by omega) hm hu)
  · obtain ⟨hphase, hrequest, hstation, hcfg, hbrk⟩ := hidle hp
    obtain ⟨t, hrun, hdecided, -⟩ := htakes _ (by rw [hp]; decide)
      (decidePhase_adopts hphase (hrequest.trans hq) hlink hc)
    obtain ⟨h1, h2, h3, h4, h5, h6, -, h8, -⟩ := hdecided.adopted
    refine ⟨t, hrun, h1, h2, h3, by rw [h4, hstation], h5, h6, h8, fun hout => ?_, fun hin => ?_⟩
    · exact hdecided.adopted_silent (by rw [hstation]; exact hout)
    · have hrole : (d.adopt c).trial.role = .member := by
        show (if c.2.inSpan d.station = true then Role.member else Role.bystander) = .member
        rw [hstation, hin]; rfl
      exact hdecided.answered rfl hrole rfl rfl rfl (by
        show answerTable d.brk d.entry d.station d.cfg c t = _
        rw [hbrk, hstation, hcfg]; rfl)

end Sys2Proof.Machine
end
